-- ==== Sys2Proof/Word.lean ====
section
/-! DEFINITION. The word types of the core and their plainest arithmetic (00_scope, Reading this manual:
registers are 32 bits and little-endian). Everything a test could correct stands in Machine/Bits.lean. -/

namespace Sys2Proof

/-- A register, descriptor or slot word. -/
abbrev Word := BitVec 32

/-- A byte of the pool, of a frame or of a packet. -/
abbrev Byte := BitVec 8

/-- A word of the value n, wrapping at 2^32. -/
abbrev word (n : Nat) : Word := BitVec.ofNat 32 n

/-- A byte of the value n, wrapping at 2^8. -/
abbrev byte (n : Nat) : Byte := BitVec.ofNat 8 n

end Sys2Proof
end

