-- ==== Sys2Proof/Config.lean ====
section
/-! DEFINITION. The licence-time parameters of a core (01_boundary R42 to R44, 12_management R409) and the values
that the spec leaves open, as constants with no body: no proof can see what they are. -/

namespace Sys2Proof

/-- The optional units of a Pedaind Standard, each chosen by itself (R5, R42): comparison cells, activation compressor, second
transposing buffer. -/
structure Options where
  cmpc : Bool
  acmp : Bool
  tb1 : Bool
  deriving DecidableEq, Repr

/-- The cores that can be licensed (R5, R6, R42, R44). A Standard of 128 lanes is of class DC-1 to DC-6, given as 0 to 5, or of
DC-8; a Standard-V, of 256 lanes, is of class DC-1 to DC-6; a Wide has 256 lanes and every optional unit, and is of class DC-5 or
DC-7. -/
inductive Variant where
  | standard (units : Options) (cls : Fin 6)
  | reducedRail (units : Options)
  | standardV (units : Options) (cls : Fin 6)
  | wide (mixedDie : Bool)
  deriving DecidableEq, Repr

/-- The licence-time parameters of R42 and the fixed version fields of R409. -/
structure Cfg where
  /-- Configuration, vector width, optional units and chip-design class (R42, R44). -/
  variant : Variant
  /-- IDCODE manufacturer code (R39). -/
  mfr : BitVec 11
  /-- VERSION.RTL_MAJ (R409). -/
  rtlMaj : Byte
  /-- VERSION.RTL_MIN (R409). -/
  rtlMin : Byte
  /-- VERSION.ROM (R409). -/
  rom : Byte
  deriving DecidableEq, Repr

/-- Configuration: Pedaind Wide (true) or Pedaind Standard (R42). -/
def Cfg.wide (c : Cfg) : Bool :=
  match c.variant with
  | .wide _ => true
  | _ => false

/-- Vector width of 256 lanes (true) or 128 (R42). -/
def Cfg.vw256 (c : Cfg) : Bool :=
  match c.variant with
  | .wide _ => true
  | .standardV _ _ => true
  | _ => false

/-- The optional units that the core contains: a Wide contains every one (R5). -/
def Cfg.units (c : Cfg) : Options :=
  match c.variant with
  | .standard u _ => u
  | .reducedRail u => u
  | .standardV u _ => u
  | .wide _ => ⟨true, true, true⟩

/-- Comparison cells present (R42). -/
def Cfg.cmpc (c : Cfg) : Bool := c.units.cmpc
/-- Activation compressor present (R42). -/
def Cfg.acmp (c : Cfg) : Bool := c.units.acmp
/-- Second transposing buffer present (R42). -/
def Cfg.tb1 (c : Cfg) : Bool := c.units.tb1

/-- Chip-design class, 1 to 8 (R44). -/
def Cfg.cls (c : Cfg) : BitVec 4 :=
  match c.variant with
  | .standard _ k => BitVec.ofNat 4 (k.val + 1)
  | .reducedRail _ => 8
  | .standardV _ k => BitVec.ofNat 4 (k.val + 1)
  | .wide mixed => if mixed then 5 else 7

/-- A fresh value of w bits for each draw n: what an ECC word with four or more wrong bits reads as, the first and
last clk of a droop window, the level of an applied firmware patch, the values of R490 outside every rule.
DESIGN CHOICE safe: the spec leaves the value open (log 7). -/
opaque Config.freeValue : (w : Nat) → Nat → BitVec w

/-- A fresh natural number for each draw n, used below a bound that the spec gives (R339, R390). DESIGN CHOICE safe:
the spec leaves the choice open (log 7, log 8). -/
opaque Config.freeNat : Nat → Nat

/-- The fixed-table coefficient file (R490): function index, segment, coefficient index 0 to 3, as FP32 codes. The
file is not in the spec. DESIGN CHOICE safe (log 7). -/
opaque Config.fixedCoeff : Nat → Nat → Nat → BitVec 32

/-- IDCODE bits 31 to 12, version and part number, which the spec does not give (R39). DESIGN CHOICE safe (log 7). -/
opaque Config.idPart : BitVec 20

end Sys2Proof
end

