-- ==== Sys2Proof/Syntax.lean ====
section
/-! DEFINITION. The commands of the core: one constructor of Instr for every row of spec/opcode_table.json, with the
row's operands, and the plain records those operands carry (a packet, a frame, a management request). -/

namespace Sys2Proof

/-- The array slot a command acts on: MXA or MXB (00_scope, What the core contains). -/
inductive Arr where
  | mxa
  | mxb
  deriving DecidableEq, Repr

/-- The straps of R36. -/
structure Straps where
  chip : BitVec 12
  core : BitVec 12
  slot : BitVec 6
  feed : BitVec 8
  deriving DecidableEq, Repr

/-- An arriving Galold packet (R356): the receive channel, the flits it occupied, whether they were contiguous
(R28), the eight header words and the payload bytes that the flits carried. -/
structure Pkt where
  ch : BitVec 1
  flits : Nat
  contig : Bool
  w0 : Word
  w1 : Word
  w2 : Word
  w3 : Word
  w4 : Word
  w5 : Word
  w6 : Word
  w7 : Word
  payload : List Byte
  deriving DecidableEq, Repr

/-- A side-band frame (R392). wire is false where the pair showed a stuffing violation or a missing EOF (R391). -/
structure Frame where
  dst : Byte
  src : Byte
  typ : Byte
  seq : Byte
  len : Byte
  payload : List Byte
  crc : Word
  wire : Bool
  deriving DecidableEq, Repr

/-- The source, sequence number and destination of the frame that carries a single-word register request
(R392, R396). -/
structure Req where
  src : Byte
  seq : Byte
  dst : Byte
  deriving DecidableEq, Repr

/-- What the TAP does after it has selected the IJTAG network (R40): nothing more, a read or write of the management
window by the MGC debug access, or an access to another instrument's data register. -/
inductive Ijtag where
  | select
  | windowRead (addr : BitVec 16)
  | windowWrite (addr : BitVec 16) (w : Word)
  | instrument (n : Nat) (w : Word)
  deriving DecidableEq, Repr

/-- The commands, one for each row of spec/opcode_table.json, in its order. -/
inductive Instr where
  /-- A data flit accepted on the spring port is appended to the pending LOAD_BLOCK or DESC_LOAD; bundles are expanded, checked and written into the replay half. (R135) -/
  | springDataFlit (typ : BitVec 2) (data : BitVec 128)
  /-- Command flit that invalidates the named replay half and announces NFLIT data flits of patch entries and bundles. (R135) -/
  | loadBlock (w3 : BitVec 24) (w2 w1 w0 : Word)
  /-- Command flit that is range-checked and queued to issue a bundle range of a half ITER times with its patch entries. (R141) -/
  | replay (w3 : BitVec 24) (w2 w1 w0 : Word)
  /-- Command flit that is queued and announces two data flits carrying all eight words of one descriptor. (R138) -/
  | descLoad (w3 : BitVec 24) (w2 w1 w0 : Word)
  /-- Command flit that is queued to set S63 to VALUE. (R139) -/
  | beatNo (w3 : BitVec 24) (w2 w1 w0 : Word)
  /-- Command flit accepted after a HOLD mark that ends Hold at the next qualifying beat edge, or faults with SPR_PROTO. (R140) -/
  | resume (w3 : BitVec 24) (w2 w1 w0 : Word)
  /-- At the head of the command queue, after earlier SCL work completes, the descriptor is written in one clk. (R138) -/
  | descLoadExecute
  /-- At the head of the command queue S63 takes VALUE in one clk, overriding a coincident beat-edge increment. (R139) -/
  | beatNoExecute
  /-- At a PRE, EACH or POST boundary of a replay, after every issued SCL instruction completes, the matching patch entries are applied one per clk. (R142) -/
  | patchListApply
  /-- The next bundle of the replay issues as a whole when every queue it names has room, copying descriptors and S registers into the queue entries. (R97) -/
  | bundleIssue
  /-- A mark bundle with MARK_OP BEAT issues, ends the core's part of the beat and stops issue until the next beat edge. (R128) -/
  | beatMark
  /-- A mark bundle with MARK_OP HOLD issues and arranges entry into Hold at the edge that ends its beat. (R128) -/
  | holdMark
  /-- A mark bundle with MARK_OP IMGSW issues, sets PEND and PSLOT, and arranges a shape-image switch from the edge that ends its beat. (R421) -/
  | imgswMark
  /-- A mark bundle with MARK_OP CKPT issues and arranges a checkpoint stop or snapshot from the edge that ends its beat. (R468) -/
  | ckptMark
  /-- The beat_due pulse arrives; a core in beat service that has not issued its mark drives core_late to 1 from the next clk. (R19) -/
  | beatDue
  /-- The beat_edge pulse starts the next beat: S63 increments, issue may resume, and edge-timed actions take effect. (R10) -/
  | beatEdge
  /-- A new pl_target moves the regulator target when it is above the level in force, and pl_ready falls. (R24) -/
  | plTargetChange (level : BitVec 2)
  /-- pl_commit with beat_edge makes pl_target the level in force, or faults with PL_BREACH if the commit breaches the contract. (R25) -/
  | plCommit (edge : Bool)
  /-- The regulator slew to the target ends and pl_ready rises within 1 µs. (R24) -/
  | plReadyRise
  /-- pond_halt rises: issue stops, passes in flight are abandoned, and the core leaves beat service. (R23) -/
  | pondHaltRise
  /-- droop_alert rises and opens or extends a throttling window that skips every second clk. (R339) -/
  | droopAlertRise
  /-- droop_alert falls and the throttling window is set to end 16 to 19 clk later. (R339) -/
  | droopAlertFall
  /-- The throttling window's last clk passes and clk skipping stops. (R339) -/
  | droopWindowEnd
  /-- A gmi_txk_credit pulse returns one transmit flit credit on channel k. (R28) -/
  | gmiTxCredit (ch : BitVec 1)
  /-- A formed packet is handed to a transmit channel once credits for all its flits are held, and its flits are sent in consecutive clk. (R366) -/
  | packetHandoff (ch : BitVec 1)
  /-- An arriving PUT packet is checked and its bytes are written into the pool, then acknowledged. (R357) -/
  | putPacket (p : Pkt)
  /-- An arriving GET packet reads the requested pool bytes and is answered with a GETR, poisoned if needed. (R357) -/
  | getPacket (p : Pkt)
  /-- An arriving GETR is matched by TAGX to an outstanding GET and its data is pushed or written. (R357) -/
  | getrPacket (p : Pkt)
  /-- An arriving ACK is matched to an outstanding PUT, RACC or RCON and may complete its instruction. (R357) -/
  | ackPacket (p : Pkt)
  /-- An arriving NACK ends its request, or directly reports a refused FADD or CARRY, with fault FAB_NACK. (R357) -/
  | nackPacket (p : Pkt)
  /-- An arriving RACC adds each element into the pool with one rounding, then is acknowledged. (R357) -/
  | raccPacket (p : Pkt)
  /-- An arriving flag-add packet adds its signed value to the named flag, with a range check. (R323) -/
  | faddPacket (p : Pkt)
  /-- An arriving carry packet writes its records into CR[DREG] onward and adds 1 to its flag in one clk. (R269) -/
  | carryPacket (p : Pkt)
  /-- An RCON reaching a core is not served and is answered with NACK SPACE. (R356) -/
  | rconPacket (p : Pkt)
  /-- An arriving reduction result piece is matched to its receive entry and written, or replaces CUR_AMAX for MAX. (R378) -/
  | rresPacket (p : Pkt)
  /-- An arriving PROBE is answered with a PROBER carrying eight identity and state words. (R360) -/
  | probePacket (p : Pkt)
  /-- An arriving PROBER answers the arm probe, and the arm check judges configuration and feed group. (R465) -/
  | proberPacket (p : Pkt)
  /-- An arriving RESET with matching JOB starts a warm or data reset. (R361) -/
  | resetPacket (p : Pkt)
  /-- A tier temperature crosses its warning threshold and therm_warn follows it. (R49) -/
  | thermWarn (logic sram : Int)
  /-- A tier temperature reaches its trip threshold and the core faults with THERM_TRIP. (R49) -/
  | thermalTrip (logic sram : Int)
  /-- The brown-out detector fires and asserts a cold-reach reset. (R445) -/
  | brownOut
  /-- After 1,000 consecutive cycles of vin_core in range with the detector quiet, the brown-out source releases. (R430) -/
  | brownOutRelease
  /-- por_n falls and asserts a cold-reach reset. (R430) -/
  | porAssert
  /-- por_n rises, straps are latched, and the release order may proceed. (R433) -/
  | porRelease (straps : Straps)
  /-- chip_rst_n falls and asserts a warm-reach reset. (R430) -/
  | chipRstAssert
  /-- chip_rst_n rises and the steps of its reach may be released. (R435) -/
  | chipRstRelease
  /-- The 16-cycle assertion of an internal, command or packet reset source expires. (R430) -/
  | internalResetRelease (bit : BitVec 4)
  /-- A held release step whose predecessor is done and whose gap has elapsed starts its action. (R434) -/
  | resetStepStart (k : BitVec 4)
  /-- The action of a release step completes and the step becomes DONE. (R434) -/
  | resetStepComplete (k : BitVec 4)
  /-- The trim frame completes and is committed on a pass, or counted as a failure. (R436) -/
  | fuseFrameEnd (words : List Word)
  /-- The frame is incomplete 100,000 ref_clk cycles after fuse_req rose and the load fails. (R38) -/
  | fuseTimeout
  /-- After fuse_req has been held at 0 for 16 cycles following a failure, it rises again and the load restarts. (R436) -/
  | fuseRetry
  /-- trst_n resets the TAP controller. (R39) -/
  | tapReset
  /-- The TAP instruction IDCODE selects the identification register. (R39) -/
  | idcode
  /-- The TAP instruction BYPASS, or any unlisted value, selects the bypass register. (R39) -/
  | bypass (ir : Byte)
  /-- The TAP instruction IJTAG selects the IEEE 1687 network of instruments, with access blocked while debug is locked. (R40) -/
  | ijtag (access : Ijtag)
  /-- The IJTAG debug reset instrument asserts a reset of its reach field. (R430) -/
  | debugReset (reach : BitVec 2)
  /-- IEEE 1500 wrapper instruction WS_BYPASS. (R41) -/
  | wsBypass
  /-- IEEE 1500 wrapper instruction WS_EXTEST. (R41) -/
  | wsExtest
  /-- IEEE 1500 wrapper instruction WS_PRELOAD. (R41) -/
  | wsPreload
  /-- IEEE 1500 wrapper instruction WS_CLAMP. (R41) -/
  | wsClamp
  /-- IEEE 1500 wrapper instruction WS_SAFE drives every output to its reset state. (R41) -/
  | wsSafe
  /-- IEEE 1500 wrapper instruction WS_INTEST_SCAN. (R41) -/
  | wsIntestScan
  /-- IEEE 1500 wrapper instruction WP_EXTEST. (R41) -/
  | wpExtest
  /-- IEEE 1500 wrapper instruction WP_INTEST_SCAN. (R41) -/
  | wpIntestScan
  /-- Array product instruction accumulating a × b into the tile under the ACC and LAST rules. (R182) -/
  | mma (a : Arr)
  /-- Array product instruction accumulating −(a × b). (R182) -/
  | mman (a : Arr)
  /-- Comparison mode that accumulates abs(a − b). (R176) -/
  | cdl1 (a : Arr)
  /-- Comparison mode that accumulates (a − b)². (R176) -/
  | cdl2 (a : Arr)
  /-- Comparison mode that keeps the minimum of a + b. (R176) -/
  | cminp (a : Arr)
  /-- Comparison mode that keeps the maximum of a + b. (R176) -/
  | cmaxp (a : Arr)
  /-- Comparison mode that counts the k-steps where a CMP b holds. (R176) -/
  | ccnt (a : Arr)
  /-- Closes the open tile, or a tile of +0, and drains it to CH_OUT. (R182) -/
  | drain (a : Arr)
  /-- Closes the open tile without output. (R182) -/
  | discard (a : Arr)
  /-- Sets armed so the array ramps to and stays at activity level 8. (R181) -/
  | arm (a : Arr)
  /-- Sets quiet and clears armed so the array may ramp down. (R181) -/
  | quiet (a : Arr)
  /-- MXA half of a gradient pair computing a dXᵀ block from the shared fork channel. (R198) -/
  | gpdx
  /-- MXB half of a gradient pair computing a dW block with B taken from the pair turn. (R197) -/
  | gpdw
  /-- MXA half of a frozen-weight pair, computing as GPDX. (R202) -/
  | fwdx
  /-- MXB half of a frozen-weight pair computing dZᵀ = V·dYᵀ. (R202) -/
  | adz
  /-- In a clk at activity level 8 whose operand lines can all be popped, the array broadcasts its k-steps and accumulates. (R164) -/
  | kstepBroadcast (a : Arr)
  /-- After a closing instruction's last k-step, once the shadow is empty, the active accumulators swap into the shadow for drain. (R168) -/
  | tileSwap (a : Arr)
  /-- The corner turn pushes a converted tile row to CH_OUT when the channel has room, folding and setting END and NF. (R173) -/
  | drainRowPush (a : Arr)
  /-- After 4 clk of counting toward its target, the array's activity level moves one step. (R179) -/
  | activityLevelStep (a : Arr)
  /-- Vector instruction X + Y. (R228) -/
  | vecAdd
  /-- Vector instruction X − Y. (R228) -/
  | vecSub
  /-- Vector instruction X × Y. (R228) -/
  | vecMul
  /-- Vector instruction X × Y + Z, rounded once. (R228) -/
  | fma
  /-- Vector instruction X × Y − Z. (R228) -/
  | fms
  /-- Vector instruction Z − X × Y. (R228) -/
  | fnma
  /-- Vector instruction X × Y × Z. (R228) -/
  | mul3
  /-- Vector instruction abs(X). (R228) -/
  | abs
  /-- Vector instruction −X. (R228) -/
  | neg
  /-- Vector element-wise minimum. (R230) -/
  | vecMin
  /-- Vector element-wise maximum. (R230) -/
  | vecMax
  /-- Vector instruction min(max(X, Y), Z). (R230) -/
  | clamp
  /-- Vector instruction (X − Y)². (R228) -/
  | sqd
  /-- Vector comparison producing a mask or the values 1 and 0. (R230) -/
  | cmp
  /-- Vector selection of X or Y by mask bit. (R230) -/
  | sel
  /-- Vector bitwise and. (R228) -/
  | vecAnd
  /-- Vector bitwise or. (R228) -/
  | vecOr
  /-- Vector bitwise exclusive or. (R228) -/
  | vecXor
  /-- And of two mask streams. (R228) -/
  | mand
  /-- Or of two mask streams. (R228) -/
  | mor
  /-- Inversion of a mask stream. (R228) -/
  | mnot
  /-- Vector conversion of X to the result format. (R228) -/
  | cvt
  /-- Vector permutation within groups by an INT8 index operand. (R240) -/
  | perm
  /-- Vector reverse or broadcast within groups. (R241) -/
  | shuf
  /-- Interleaves X and Y into 2L elements. (R241) -/
  | zip
  /-- Keeps the even-indexed elements of X. (R241) -/
  | even
  /-- Keeps the odd-indexed elements of X. (R241) -/
  | odd
  /-- Joins X and Y halves into elements of double width read in FMT_Z. (R242) -/
  | pack
  /-- Returns the low or high half of X read in FMT_Z. (R242) -/
  | unpack
  /-- Writes L results into the operand cache from OC_BASE. (R243) -/
  | ocw
  /-- Pushes the elements whose mask bit is 1 and then their count. (R237) -/
  | cmprs
  /-- Spreads popped X elements to the positions of set mask bits. (R238) -/
  | expand
  /-- Pushes the popcount of a mask stream as a count. (R239) -/
  | cnt
  /-- Produces raw words, uniform values or a mask from the Philox generator. (R244) -/
  | rng
  /-- Fixed-table evaluation of 2^X. (R248) -/
  | exp2
  /-- Fixed-table evaluation of log2 X. (R248) -/
  | log2
  /-- Fixed-table evaluation of 1 / X. (R248) -/
  | rcp
  /-- Fixed-table evaluation of X^(−1/2). (R248) -/
  | rsqrt
  /-- Exact square root rounded once, evaluated in the function unit. (R228) -/
  | sqrt
  /-- Fixed-table evaluation of tanh X. (R246) -/
  | tanh
  /-- Fixed-table evaluation of the logistic function. (R246) -/
  | sigm
  /-- Fixed-table evaluation of erf X. (R246) -/
  | erf
  /-- Evaluation of loadable table U0 to U7. (R246) -/
  | utab
  /-- Once all members have started, the previous chain's flow has ended and cache writes allow it, the chain's flow begins after a length check. (R250) -/
  | chainFlowStart
  /-- A chain step processes V elements when its input, ROWS and mask lines can be popped. (R250) -/
  | vecStep
  /-- The last chain member pushes a step's output when the output channel has room. (R250) -/
  | vecResultPush
  /-- Row or column sum reduction. (R256) -/
  | rsum
  /-- Row or column sum of squares. (R256) -/
  | rsumsq
  /-- Row or column maximum. (R256) -/
  | rmax
  /-- Row or column minimum. (R256) -/
  | rmin
  /-- Row maximum with its index. (R261) -/
  | ramax
  /-- Row minimum with its index. (R261) -/
  | ramin
  /-- The k largest elements of each row with their indices. (R261) -/
  | topk
  /-- The k smallest elements of each row with their indices. (R261) -/
  | botk
  /-- Row mean and M2 with optional statistics records. (R263) -/
  | rstatMv
  /-- Row mean of squares with optional records. (R263) -/
  | rstatMs
  /-- Row maximum and log-sum-exp with optional records. (R264) -/
  | rstatLse
  /-- RSU prefix scan with addition. (R258) -/
  | scadd
  /-- RSU prefix scan with maximum. (R258) -/
  | scmax
  /-- RSU prefix scan with minimum. (R258) -/
  | scmin
  /-- RSU prefix scan with multiplication. (R258) -/
  | scmul
  /-- Linear recurrence scan h := a·h + b with prefix product. (R258) -/
  | lrec
  /-- Sets carry registers to the empty value of COP. (R268) -/
  | crset
  /-- Loads carry registers from records popped from CH_X. (R268) -/
  | crld
  /-- Pushes carry registers as records or CV values. (R268) -/
  | crst
  /-- Combines two carry register ranges under COP. (R268) -/
  | crcomb
  /-- Sends a range of carry registers in one carry packet to another core. (R268) -/
  | csend
  /-- An RSU instruction's flow starts once the previous flow and earlier carry writes it reads have finished. (R272) -/
  | rsuFlowStart
  /-- Row, scan or carry results are pushed or land P clk after their flow clk, delayed by a full channel. (R272) -/
  | rsuResultPush
  /-- A statistics record leaves the statistics buffer and is written whole into the statistics area. (R265) -/
  | statRecordWrite
  /-- A read stream generator walks the pool and pushes a plain or group-mode stream. (R290) -/
  | rd
  /-- A write stream generator pops a stream and writes it along its walk. (R290) -/
  | wr
  /-- Reads a mask stream from the pool. (R294) -/
  | rdm
  /-- Writes a mask stream to the pool. (R294) -/
  | wrm
  /-- Writes the all-zero code at every unclipped position of a walk. (R295) -/
  | zero
  /-- A read generator pushes a line once its data has returned and the channel has room. (R296) -/
  | generatorLinePush (g : BitVec 4)
  /-- A write generator pops a line and its bytes land in the pool 3 clk later. (R296) -/
  | generatorLinePop (g : BitVec 3)
  /-- Inline transposition of units through transposing buffer 0. (R299) -/
  | tin0
  /-- Inline transposition of units through transposing buffer 1. (R299) -/
  | tin1
  /-- A transposing buffer emits a transposed unit after accepting its last group. (R301) -/
  | tinUnitEmit (b : BitVec 1)
  /-- Permuting copy of tiles through transposing buffer 0. (R302) -/
  | tpc0
  /-- Permuting copy of tiles through transposing buffer 1. (R302) -/
  | tpc1
  /-- In-place tile transposition through transposing buffer 0. (R303) -/
  | tpci0
  /-- In-place tile transposition through transposing buffer 1. (R303) -/
  | tpci1
  /-- Gathers blocks addressed by a coordinate list and pushes them in list order. (R309) -/
  | gath
  /-- Scatter-stores blocks at listed coordinates in list order. (R310) -/
  | scst
  /-- Scatter-adds blocks at listed coordinates with one rounding per element in list order. (R310) -/
  | movScadd
  /-- The gather engine starts the next list entry, waiting for earlier SCADD writes to the same rows. (R312) -/
  | gatherEntryStart
  /-- Saves activations, compressed losslessly or lossily, to external memory. (R313) -/
  | acsv
  /-- Fetches a saved activation, checks it, and pushes the restored elements. (R317) -/
  | acrs
  /-- Fabric put of LEN bytes popped from a channel to a remote address. (R365) -/
  | put
  /-- Fabric get of LEN bytes pushed to a channel in address order. (R365) -/
  | get
  /-- Fabric get of LEN bytes written into the local pool at LOFF. (R365) -/
  | getp
  /-- Remote accumulate of LEN bytes popped from a channel. (R365) -/
  | racc
  /-- Sends one drained tile contribution up the reduction tree and posts its receive. (R374) -/
  | rsend
  /-- Sends CUR_AMAX of a scale slot up the tree with OP MAX and posts its receive. (R375) -/
  | rmaxs
  /-- Patrol scrub reads a bank row when the bank is free, or forced after 256 clk, correcting or poisoning words. (R279) -/
  | patrolRead (bank : BitVec 6)
  /-- A corrected word is written back in the next free clk of its bank unless a write reached it first. (R277) -/
  | correctedWriteback (row : BitVec 19)
  /-- Sets a flag to v. (R327) -/
  | fset
  /-- Adds signed v to a flag with a range check. (R327) -/
  | fadd
  /-- Waits until a flag is at least v. (R327) -/
  | fwge
  /-- Waits until a flag equals v. (R327) -/
  | fweq
  /-- Waits until a flag is at least v, then subtracts v. (R327) -/
  | ftake
  /-- Orders instructions by AFTER and GATE without a flag operation. (R328) -/
  | fence
  /-- FWGE with a time limit. (R336) -/
  | twge
  /-- FWEQ with a time limit. (R336) -/
  | tweq
  /-- FTAKE with a time limit. (R336) -/
  | ttake
  /-- Sends a flag-add packet to a remote core, after fabric writes when AFTER names MOV. (R331) -/
  | rfadd
  /-- A pending wait's test passes on the flag's start value and the wait completes, subtracting for a take. (R327) -/
  | flagWaitPass
  /-- A timed wait's count reaches TLIM without its test passing; it faults with FLAG_TIMEOUT or prepares to proceed. (R336) -/
  | timedWaitExpiry
  /-- In the next unskipped clk after expiry, TOFLAG receives +1 and the wait completes without its test. (R336) -/
  | timedWaitProceed
  /-- Scalar saturating signed addition. (R122) -/
  | sclAdd
  /-- Scalar saturating signed subtraction. (R122) -/
  | sclSub
  /-- Scalar saturating signed multiplication. (R122) -/
  | sclMul
  /-- Scalar bitwise and. (R122) -/
  | sclAnd
  /-- Scalar bitwise or. (R122) -/
  | sclOr
  /-- Scalar bitwise exclusive or. (R122) -/
  | sclXor
  /-- Scalar shift left by register. (R122) -/
  | shl
  /-- Scalar logical shift right by register. (R122) -/
  | shr
  /-- Scalar arithmetic shift right by register. (R122) -/
  | sra
  /-- Scalar signed minimum. (R122) -/
  | sclMin
  /-- Scalar signed maximum. (R122) -/
  | sclMax
  /-- Scalar unsigned minimum. (R122) -/
  | minu
  /-- Scalar unsigned maximum. (R122) -/
  | maxu
  /-- Scalar signed set-less-than. (R122) -/
  | slt
  /-- Scalar unsigned set-less-than. (R122) -/
  | sltu
  /-- Scalar saturating addition of an immediate. (R122) -/
  | addi
  /-- Scalar and with an immediate. (R122) -/
  | andi
  /-- Scalar or with an immediate. (R122) -/
  | ori
  /-- Scalar exclusive or with an immediate. (R122) -/
  | xori
  /-- Scalar shift left by an immediate. (R122) -/
  | shli
  /-- Scalar logical shift right by an immediate. (R122) -/
  | shri
  /-- Scalar arithmetic shift right by an immediate. (R122) -/
  | srai
  /-- Scalar conditional move. (R122) -/
  | cmov
  /-- Loads a sign-extended 20-bit immediate. (R122) -/
  | li
  /-- Loads a 20-bit immediate shifted left by 12. (R122) -/
  | lui
  /-- Unpipelined unsigned division. (R122) -/
  | divu
  /-- Unpipelined unsigned remainder. (R122) -/
  | remu
  /-- Reads a descriptor word into an S register. (R124) -/
  | drd
  /-- Writes an S register into a descriptor word. (R124) -/
  | dwr
  /-- Pops a count from a count channel into an S register, waiting while empty. (R122) -/
  | cpop
  /-- Pushes an S register as a count, waiting while full. (R122) -/
  | cpush
  /-- Configures a scale slot field selected by SEL, faulting with TRK_VALUE on forbidden values. (R126) -/
  | tcfg
  /-- Commits a scale slot's amax to history and recomputes SCALE_EXP. (R85) -/
  | tcommit
  /-- Reads a word of a scale slot record into an S register. (R122) -/
  | trd
  /-- Reads JOB_ID or JOB_NRANKS into an S register. (R122) -/
  | jread
  /-- An SCL instruction's result lands after its latency and becomes usable. (R122) -/
  | sclComplete
  /-- After a HOLD mark's edge, once the work issued before it completes, the engines are clock-gated and PWR_STATE reports Hold. (R447) -/
  | holdEntry
  /-- After 32 consecutive clk with nothing issuable or in flight, the core passes from Run to Idle. (R447) -/
  | idleEntry
  /-- Once the work issued before an IMGSW mark completes, the switch checks the target slot and channels and begins installation. (R421) -/
  | imageInstallStart
  /-- Installation ends: pl_limit, counter selects and routes take effect, PEND falls and parked packets are processed. (R421) -/
  | installationComplete
  /-- Once the work issued before a CKPT mark completes, the core enters Hold and runs the entry checks, computing NB and BEAT. (R468) -/
  | ckptStopEntry
  /-- A self-test finishes and the core restores itself or warm-resets, recording pass or fail. (R487) -/
  | selfTestComplete (fail : Option Byte)
  /-- A restore finishes writing the body and compares the digest, setting DONE or RDIG. (R479) -/
  | restoreComplete
  /-- core_late has been 1 for BEAT_HOLD_MAX + 1 clk and the core faults. (R337) -/
  | beatOverrun
  /-- The stall count reaches STALL_LIMIT, STALL_SNAP is captured and the core faults with DEADLOCK. (R343) -/
  | stallLimitReached
  /-- A HELLO frame is answered with IDENT, enrolling a stranger master while EOPEN is 1. (R400) -/
  | hello (f : Frame)
  /-- A broadcast DISCOVER frame is answered with IDENT. (R393) -/
  | discover (f : Frame)
  /-- A READ frame returns up to 15 register words in RDATA or a NACK. (R396) -/
  | read (f : Frame)
  /-- A WRITE frame word to a register without behaviour of its own is checked and applied, or refused with a NACK. (R396) -/
  | write (f : Frame)
  /-- A CLAIM frame opens or joins an election, is denied, or completes a handover. (R402) -/
  | claim (f : Frame)
  /-- A RENEW frame from the owner resets the lease. (R403) -/
  | renew (f : Frame)
  /-- A RELEASE frame from the owner ends ownership and clears the locks. (R405) -/
  | release (f : Frame)
  /-- A WAKE frame to an awake core is answered with ACK. (R398) -/
  | wake (f : Frame)
  /-- The owner's ACK frame acknowledges an ALERT. (R393) -/
  | alertAck (f : Frame)
  /-- The MGC sends an ALERT frame to the owner after a fault. (R386) -/
  | alert
  /-- At every SPER-th slow-tick edge a pair of EVENT frames is sent, or shed under load. (R429) -/
  | event
  /-- A sender reads back a differing bit, stops, jams and schedules a backoff or abandons the frame. (R390) -/
  | sidebandCollision
  /-- The backoff slots after idle elapse and the frame is attempted again. (R390) -/
  | sidebandBackoffExpiry
  /-- REMAIN reaches 0 at a slow-tick edge and ownership ends. (R403) -/
  | leaseExpiry
  /-- At the second slow-tick edge the election closes, the winner becomes owner and every claimant gets GRANT or DENY. (R402) -/
  | electionWindowClose
  /-- WIN reaches 0 and STATE returns to OWNED. (R404) -/
  | handoverWindowExpiry
  /-- The firmware has not serviced the watchdog for 4 slow ticks and a cold reset asserts. (R430) -/
  | mgcWatchdogExpiry
  /-- RST_CMD with REACH cold asserts a cold reset after the ACK and ends ownership. (R439) -/
  | rstCmdCold (r : Req)
  /-- RST_CMD with REACH warm asserts a warm reset after the ACK. (R439) -/
  | rstCmdWarm (r : Req)
  /-- RST_CMD with REACH data asserts a data reset after the ACK. (R439) -/
  | rstCmdData (r : Req)
  /-- RST_CMD with REACH engine resets one engine when Idle, Hold or halted. (R439) -/
  | rstCmdEngine (r : Req) (eng : BitVec 3)
  /-- IMG_CTL BEGIN sets a slot to LOADING. (R418) -/
  | imgBegin (r : Req) (slot : Bool)
  /-- IMG_CTL END starts the check of the loading slot. (R418) -/
  | imgEnd (r : Req) (slot : Bool)
  /-- IMG_CTL ABORT stops a load or check and empties the slot. (R418) -/
  | imgAbort (r : Req) (slot : Bool)
  /-- IMG_CTL ACTIVATE installs a VALID slot as the image in force when the core is quiet. (R419) -/
  | activate (r : Req) (slot : Bool)
  /-- A write to IMG_WINDOW appends 4 bytes to the loading slot. (R418) -/
  | imgWindow (r : Req) (w : Word)
  /-- A write to IMG_HASH_A or IMG_HASH_B sets the expected hash and may invalidate a VALID slot. (R420) -/
  | imgHashWrite (r : Req) (slot : Bool) (i : BitVec 3) (w : Word)
  /-- The check of a loaded slot ends with VALID or a failure status. (R416) -/
  | imageCheckComplete
  /-- PATCH_CTL BEGIN starts loading a firmware patch. (R411) -/
  | patchBegin (r : Req)
  /-- PATCH_CTL END starts the size and hash check of the patch. (R411) -/
  | patchEnd (r : Req)
  /-- PATCH_CTL APPLY restarts the firmware from a VALID patch outside Run. (R411) -/
  | patchApply (r : Req)
  /-- A write to PATCH_WINDOW appends 4 bytes of the patch. (R411) -/
  | patchWindow (r : Req) (w : Word)
  /-- The patch check ends with VALID, HASH or SIZE. (R411) -/
  | patchCheckComplete
  /-- Setting OWN_STATE.LOCK makes every RWL register read-only until ownership ends. (R407) -/
  | ownLock (r : Req)
  /-- Clearing OWN_STATE.EOPEN closes enrolment by HELLO. (R400) -/
  | eopenClear (r : Req)
  /-- A write of OWN_HANDOVER.SUCC names a successor and starts a handover, or cancels it with 0xFF. (R404) -/
  | ownHandover (r : Req) (succ : Byte)
  /-- A write of an ENROL entry validates, changes or invalidates an enrolled station. (R400) -/
  | enrol (r : Req) (n : BitVec 4) (w : Word)
  /-- Setting DBG_CTL.LOCK blocks IJTAG data access. (R411) -/
  | dbgLock (r : Req)
  /-- Writing 1 to ERR_FIRST.V clears ERR_FIRST and FAULT_INFO0 to FAULT_INFO6. (R459) -/
  | errFirstClear (r : Req)
  /-- A write to STALL_CTL sets STALL_LIMIT and restarts the stall count. (R342) -/
  | stallCtlWrite (r : Req) (w : Word)
  /-- A write of ROUTE_DATA sets shadow entry ROUTE_IDX and advances ROUTE_IDX. (R352) -/
  | routeDataWrite (r : Req) (w : Word)
  /-- A read of ROUTE_DATA returns shadow entry ROUTE_IDX and advances ROUTE_IDX. (R352) -/
  | routeDataRead (r : Req)
  /-- Setting COPY starts copying the active route table into the shadow. (R352) -/
  | routeCopy (r : Req)
  /-- The shadow copy finishes and waiting ROUTE_DATA writes proceed. (R352) -/
  | routeCopyComplete
  /-- Setting COMMIT requests a swap of active and shadow route tables at the next edge, or within 8 clk when halted, Idle or Hold. (R352) -/
  | routeCommit (r : Req)
  /-- Setting CNT_CTL.CLR clears every counter, snapshot and OVF bit. (R424) -/
  | cntClr (r : Req)
  /-- A read of a counter's LO word captures its HI half for the next HI read. (R424) -/
  | cntLoRead (r : Req) (addr : BitVec 16)
  /-- PWR_STATE.REQ Shallows switches domains off, retains tarn banks and puts the regulator in low-power mode. (R449) -/
  | enterShallows (r : Req)
  /-- PWR_STATE.REQ Off powers the core down with tarn banks retained. (R449) -/
  | enterOff (r : Req)
  /-- Each WATCH_PERIOD in Shallows the core samples gmi_wake_rx and the side-band pair for a wake match. (R450) -/
  | watchWindow (samples : List Bool) (frame : Option Byte)
  /-- Writing CKPT_CTL.ARM = 1 checks range and probes the partner. (R465) -/
  | armCheck (r : Req) (w : Word)
  /-- No PROBER arrives within 1 slow tick and the arm check ends in NOANSWER. (R465) -/
  | armProbeTimeout
  /-- CKPT_CTL RESTORE_LOCAL restores from the LOCAL slot. (R479) -/
  | restoreLocal (r : Req) (w : Word)
  /-- CKPT_CTL RESTORE_REMOTE restores by GET from the partner's replica. (R479) -/
  | restoreRemote (r : Req) (w : Word)
  /-- CKPT_CTL RESTORE_HELD restores from the REPLICA slot, snapshots included. (R479) -/
  | restoreHeld (r : Req) (w : Word)
  /-- ST_CTL request for the logic BIST, run at once or queued to a checkpoint stop. (R486) -/
  | lbist (r : Req) (queue : Bool)
  /-- ST_CTL request for the buffer memory BIST. (R486) -/
  | bufferMbist (r : Req) (queue : Bool)
  /-- ST_CTL request for the pool memory BIST. (R486) -/
  | poolMbist (r : Req) (queue : Bool)
  /-- ST_CTL request for all three self-tests in order. (R486) -/
  | selfTestAll (r : Req) (queue : Bool)
  /-- pond_halt falls when the spring releases the halt, so the core stops ignoring beat_edge and pl_commit, clears PWR_STATE.HALT and route commits no longer take the halted timing. (R23) -/
  | pondHaltFall
  /-- The IJTAG debug reset instrument's reset bit is cleared, ending the debug reset source once its 16-cycle minimum has passed, so the held release steps may proceed. (R430) -/
  | debugResetRelease
  deriving DecidableEq, Repr

end Sys2Proof
end

