-- ==== Sys2Proof/Machine/Bits.lean ====
section
/-! DEFINITION. Fields of words, sign extension, little-endian byte order (00_scope, Reading this manual), saturation,
and bit strings in the packing of 02_numbers R56. -/

namespace Sys2Proof.Machine

/-- Field [hi:lo] of a number. -/
def fld (n hi lo : Nat) : Nat := (n >>> lo) % 2 ^ (hi + 1 - lo)

/-- Field [hi:lo] of a word. -/
def wfld (w : Word) (hi lo : Nat) : Nat := fld w.toNat hi lo

/-- Bit i of a word. -/
def wbit (w : Word) (i : Nat) : Bool := w.toNat.testBit i

/-- A number with its field [hi:lo] replaced by the low bits of v. -/
def setFld (n hi lo v : Nat) : Nat :=
  n - (fld n hi lo <<< lo) + ((v % 2 ^ (hi + 1 - lo)) <<< lo)

/-- A word with its field [hi:lo] replaced. -/
def setWfld (w : Word) (hi lo v : Nat) : Word := word (setFld w.toNat hi lo v)

/-- 1 for true and 0 for false. -/
def b2n (b : Bool) : Nat := if b then 1 else 0

/-- The value of an n-bit two's complement code. -/
def sext (n v : Nat) : Int :=
  let m := v % 2 ^ n
  if m < 2 ^ (n - 1) then (m : Int) else (m : Int) - 2 ^ n

/-- The n-bit two's complement code of an integer. -/
def toCode (n : Nat) (x : Int) : Nat := (x % (2 ^ n : Int)).toNat

/-- An integer saturated to n-bit two's complement. -/
def satInt (n : Nat) (x : Int) : Int :=
  let hi : Int := 2 ^ (n - 1) - 1
  let lo : Int := -(2 ^ (n - 1))
  if x > hi then hi else if x < lo then lo else x

/-- A count that stops at its largest n-bit value. -/
def satCount (n x : Nat) : Nat := if x < 2 ^ n then x else 2 ^ n - 1

/-- The n low bytes of a number, least significant first. -/
def leBytes : Nat → Nat → List Byte
  | 0, _ => []
  | n + 1, v => byte (v % 256) :: leBytes n (v / 256)

/-- The number that a byte list spells, least significant byte first. -/
def leNat : List Byte → Nat
  | [] => 0
  | b :: bs => b.toNat + 256 * leNat bs

/-- The four bytes of a word. -/
def wordBytes (w : Word) : List Byte := leBytes 4 w.toNat

/-- The bytes of a list of words. -/
def wordsBytes (ws : List Word) : List Byte := ws.flatMap wordBytes

/-- The first n words that a byte list spells. -/
def bytesWords : Nat → List Byte → List Word
  | 0, _ => []
  | n + 1, bs => word (leNat (bs.take 4)) :: bytesWords n (bs.drop 4)

/-- The n-th element of a list, or a default. -/
def nth {α : Type} (d : α) (l : List α) (n : Nat) : α := l.getD n d

/-- A list with its n-th element replaced (unchanged where n is past the end). -/
def setNth {α : Type} (l : List α) (n : Nat) (a : α) : List α := l.set n a

/-- 32 mask bits of a word, bit i for byte lane i and so on: whether any bit is set outside a mask. -/
def hasBitsOutside (w mask : Word) : Bool := (w &&& ~~~ mask) != 0

/-- The population count of the low n bits. -/
def popcount : Nat → Nat → Nat
  | 0, _ => 0
  | n + 1, v => v % 2 + popcount n (v / 2)

/-- Ceiling division. -/
def ceilDiv (a b : Nat) : Nat := (a + b - 1) / b

/-- A string of bits: len bits, bit 0 first in val. The packing of every element stream (R56). -/
structure BitBuf where
  val : Nat
  len : Nat
  deriving DecidableEq, Repr

/-- The empty bit string. -/
def BitBuf.empty : BitBuf := ⟨0, 0⟩

/-- A bit string with the n low bits of v appended. -/
def BitBuf.push (b : BitBuf) (n v : Nat) : BitBuf := ⟨b.val + ((v % 2 ^ n) <<< b.len), b.len + n⟩

/-- Two bit strings in order. -/
def BitBuf.append (a b : BitBuf) : BitBuf := ⟨a.val + (b.val <<< a.len), a.len + b.len⟩

/-- The first n bits. -/
def BitBuf.take (b : BitBuf) (n : Nat) : Nat := b.val % 2 ^ n

/-- The string without its first n bits. -/
def BitBuf.drop (b : BitBuf) (n : Nat) : BitBuf := ⟨b.val >>> n, b.len - n⟩

/-- Element i of width w of a packed number. -/
def packedElem (w v i : Nat) : Nat := (v >>> (w * i)) % 2 ^ w

/-- The first n elements of width w of a packed number. -/
def unpackElems (w n v : Nat) : List Nat := (List.range n).map (packedElem w v)

/-- A list of codes packed at w bits an element. -/
def packElems (w : Nat) : List Nat → Nat
  | [] => 0
  | c :: cs => (c % 2 ^ w) + (packElems w cs <<< w)

/-- A byte list as a bit string. -/
def BitBuf.ofBytes (bs : List Byte) : BitBuf := ⟨leNat bs, 8 * bs.length⟩

end Sys2Proof.Machine
end

