-- ==== Sys2Proof/Machine/Formats.lean ====
section
/-! DEFINITION. The number formats of 02_numbers R51 to R60, exact values, and the exact arithmetic that every
rounding starts from (R81, R82). -/

namespace Sys2Proof.Machine

/-- An exact value: NaN, a signed infinity, or a signed rational (num / den) × 2^e. A zero keeps its sign (R54). -/
inductive FVal where
  | nan
  | inf (neg : Bool)
  | fin (neg : Bool) (num den : Nat) (e : Int)
  deriving DecidableEq, Repr

/-- A float element layout of R52: trailing mantissa bits, exponent bits, bias, largest finite magnitude code, whether
an infinity exists, canonical NaN magnitude (0 where the format has none). -/
structure FpFmt where
  mbits : Nat
  ebits : Nat
  bias : Nat
  maxCode : Nat
  hasInf : Bool
  nanCode : Nat
  deriving DecidableEq, Repr

/-- FP32 (R52). -/
def fmtFp32 : FpFmt := ⟨23, 8, 127, 0x7F7FFFFF, true, 0x7FC00000⟩
/-- BF16 (R52). -/
def fmtBf16 : FpFmt := ⟨7, 8, 127, 0x7F7F, true, 0x7FC0⟩
/-- FP16 (R52). -/
def fmtFp16 : FpFmt := ⟨10, 5, 15, 0x7BFF, true, 0x7E00⟩
/-- E4M3 (R52): the exponent field 0b1111 is finite, 0x7F is NaN. -/
def fmtE4m3 : FpFmt := ⟨3, 4, 7, 0x7E, false, 0x7F⟩
/-- E5M2 (R52). -/
def fmtE5m2 : FpFmt := ⟨2, 5, 15, 0x7B, true, 0x7E⟩
/-- E3M2 (R52): no infinity and no NaN. -/
def fmtE3m2 : FpFmt := ⟨2, 3, 3, 0x1F, false, 0⟩
/-- E2M3 (R52). -/
def fmtE2m3 : FpFmt := ⟨3, 2, 1, 0x1F, false, 0⟩
/-- E2M1 (R52). -/
def fmtE2m1 : FpFmt := ⟨1, 2, 1, 0x7, false, 0⟩

/-- The element layout of a format code (R51); none for the integer codes and the reserved codes. -/
def fpOf (code : Nat) : Option FpFmt :=
  match code with
  | 0 => some fmtFp32
  | 1 => some fmtBf16
  | 2 => some fmtFp16
  | 3 => some fmtE4m3
  | 4 => some fmtE5m2
  | 5 => some fmtE4m3
  | 6 => some fmtE3m2
  | 7 => some fmtE2m3
  | 8 => some fmtE2m1
  | 11 => some fmtE2m1
  | _ => none

/-- Element bits of a format code (R51); 0 for a reserved code. -/
def fmtBits (code : Nat) : Nat :=
  match code with
  | 0 => 32
  | 1 => 16
  | 2 => 16
  | 3 => 8
  | 4 => 8
  | 5 => 8
  | 6 => 6
  | 7 => 6
  | 8 => 4
  | 9 => 8
  | 10 => 4
  | 11 => 4
  | _ => 0

/-- A code that R51 reserves. -/
def fmtReserved (code : Nat) : Bool := code ≥ 12

/-- Block-scaled formats (R57). -/
def fmtBlock (code : Nat) : Bool := (5 ≤ code && code ≤ 8) || code == 11

/-- Integer formats (R55). -/
def fmtInt (code : Nat) : Bool := code == 9 || code == 10

/-- Scale bytes of one block: 1 for E8M0, 2 for FS4, 0 otherwise (R57). -/
def fmtScaleBytes (code : Nat) : Nat := if code == 11 then 2 else if fmtBlock code then 1 else 0

/-- Zero with the given sign. -/
def FVal.zero (neg : Bool) : FVal := .fin neg 0 1 0

/-- The value of a natural number. -/
def FVal.ofNat (n : Nat) : FVal := .fin false n 1 0

/-- The value of an integer. -/
def FVal.ofInt (x : Int) : FVal := .fin (x < 0) x.natAbs 1 0

/-- The value of a magnitude code of a float layout, sign given: subnormal or normal (R52). -/
def FpFmt.decodeMag (f : FpFmt) (neg : Bool) (mag : Nat) : FVal :=
  let e := mag >>> f.mbits
  let m := mag % 2 ^ f.mbits
  if mag > f.maxCode ∧ f.nanCode ≠ 0 then
    if f.hasInf ∧ m = 0 then .inf neg else .nan
  else if e = 0 then .fin neg m 1 (1 - (f.bias : Int) - f.mbits)
  else .fin neg (2 ^ f.mbits + m) 1 ((e : Int) - f.bias - f.mbits)

/-- The value of an element code of a float layout (R52, R53). -/
def FpFmt.decode (f : FpFmt) (code : Nat) : FVal :=
  let w := f.mbits + f.ebits
  f.decodeMag (code.testBit w) (code % 2 ^ w)

/-- The value of an element code of format c without its block scale (R52, R55). -/
def decodeElem (c code : Nat) : FVal :=
  match fpOf c with
  | some f => f.decode code
  | none => FVal.ofInt (sext (fmtBits c) code)

/-- Whether a value is NaN or an infinity. -/
def FVal.nonfinite : FVal → Bool
  | .nan => true
  | .inf _ => true
  | .fin _ _ _ _ => false

/-- Whether a value is NaN. -/
def FVal.isNan : FVal → Bool
  | .nan => true
  | _ => false

/-- Whether a value is a zero of either sign. -/
def FVal.isZero : FVal → Bool
  | .fin _ 0 _ _ => true
  | _ => false

/-- The sign of a value (NaN counts as positive, R53). -/
def FVal.sign : FVal → Bool
  | .nan => false
  | .inf n => n
  | .fin n _ _ _ => n

/-- Negation; NaN stays NaN. -/
def FVal.neg : FVal → FVal
  | .nan => .nan
  | .inf n => .inf (!n)
  | .fin n a d e => .fin (!n) a d e

/-- Absolute value. -/
def FVal.abs : FVal → FVal
  | .nan => .nan
  | .inf _ => .inf false
  | .fin _ a d e => .fin false a d e

/-- Exact product (R82: zero times infinity is NaN). -/
def FVal.mul : FVal → FVal → FVal
  | .nan, _ => .nan
  | _, .nan => .nan
  | .inf n, .inf m => .inf (n != m)
  | .inf n, .fin m a _ _ => if a = 0 then .nan else .inf (n != m)
  | .fin n a _ _, .inf m => if a = 0 then .nan else .inf (n != m)
  | .fin n a d e, .fin m b k f => .fin (n != m) (a * b) (d * k) (e + f)

/-- The two numerators of two finite values over one denominator and one exponent. -/
def alignFin (a d : Nat) (e : Int) (b k : Nat) (f : Int) : Nat × Nat × Nat × Int :=
  let m := min e f
  ((a * k) <<< (e - m).toNat, (b * d) <<< (f - m).toNat, d * k, m)

/-- Exact sum (R82). An exact sum of zero is +0 unless both terms are −0. -/
def FVal.add : FVal → FVal → FVal
  | .nan, _ => .nan
  | _, .nan => .nan
  | .inf n, .inf m => if n = m then .inf n else .nan
  | .inf n, .fin _ _ _ _ => .inf n
  | .fin _ _ _ _, .inf m => .inf m
  | .fin n a d e, .fin m b k f =>
    if a = 0 ∧ b = 0 then .fin (n && m) 0 1 0
    else if a = 0 then .fin m b k f
    else if b = 0 then .fin n a d e
    else
      let (x, y, dk, ex) := alignFin a d e b k f
      if n = m then .fin n (x + y) dk ex
      else if x = y then .fin false 0 1 0
      else if x > y then .fin n (x - y) dk ex
      else .fin m (y - x) dk ex

/-- Exact difference. -/
def FVal.sub (x y : FVal) : FVal := x.add y.neg

/-- Exact quotient by a positive natural number. -/
def FVal.divNat (x : FVal) (n : Nat) : FVal :=
  match x with
  | .fin s a d e => .fin s a (d * n) e
  | v => v

/-- Product by a power of two. -/
def FVal.scale (x : FVal) (d : Int) : FVal :=
  match x with
  | .fin s a k e => .fin s a k (e + d)
  | v => v

/-- Order of two values that are not NaN: x < y. −0 and +0 are equal. -/
def FVal.lt : FVal → FVal → Bool
  | .nan, _ => false
  | _, .nan => false
  | .inf n, .inf m => n && !m
  | .inf n, .fin _ _ _ _ => n
  | .fin _ _ _ _, .inf m => !m
  | .fin n a d e, .fin m b k f =>
    let (x, y, _, _) := alignFin a d e b k f
    let xi : Int := if n then -(x : Int) else x
    let yi : Int := if m then -(y : Int) else y
    decide (xi < yi)

/-- Equality of two values as numbers; false where either is NaN. -/
def FVal.eqv : FVal → FVal → Bool
  | .nan, _ => false
  | _, .nan => false
  | x, y => !(x.lt y) && !(y.lt x)

/-- floor(log2 (num / den)) of positive num and den, plus e. -/
def floorLog2 (num den : Nat) (e : Int) : Int :=
  let k : Int := (Nat.log2 num : Int) - Nat.log2 den
  let ge : Bool := if k ≥ 0 then decide (den <<< k.toNat ≤ num) else decide (den ≤ num <<< (-k).toNat)
  (if ge then k else k - 1) + e

/-- The block scale of an E8M0 byte; none where it encodes NaN (R58). -/
def e8m0Scale (b : Nat) : Option FVal :=
  if b = 255 then none else some (.fin false 1 1 ((b : Int) - 127))

/-- The block scale of an FS4 word; none where it encodes NaN (R59). -/
def fs4Scale (w : Nat) : Option FVal :=
  let e := fld w 15 8
  if e = 255 then none else some (.fin false (16 + fld w 7 4) 1 ((e : Int) - 127 - 4))

/-- The block scale that a scale code of block-scaled format c spells; none where NaN. -/
def blockScale (c scale : Nat) : Option FVal := if c == 11 then fs4Scale scale else e8m0Scale scale

/-- The value of element code x of format c under a block scale code (R58 to R60). -/
def decodeBlockElem (c scale x : Nat) : FVal :=
  match blockScale c scale with
  | none => .nan
  | some sc => (decodeElem c x).mul sc

/-- 32-bit FP32 value of a word. -/
def f32 (w : Word) : FVal := fmtFp32.decode w.toNat

end Sys2Proof.Machine
end

