-- ==== Sys2Proof/Machine/Convert.lean ====
section
/-! DEFINITION. Rounding and conversion of 02_numbers: R71 to R77, R79 to R82, R86, the array accumulation of R63 to
R68, and the Philox generator. -/

namespace Sys2Proof.Machine

/-- A rounding step: nearest even, toward zero, or stochastic with the generator word of the element (R71, R80). -/
inductive Rnd where
  | rne
  | rtz
  | sr (r : Word)
  deriving DecidableEq, Repr

/-- The rounding that CONV[1:0] selects for an element whose generator word is r (R71). The reserved code 0b11 never
reaches a conversion: R252, R320 and R177 refuse it at issue. -/
def rndOf (rnd : Nat) (r : Word) : Rnd :=
  match rnd with
  | 0 => .rne
  | 1 => .rtz
  | _ => .sr r

/-- One rounding of the positive rational n / d to an integer (R72, R80). -/
def roundDiv (m : Rnd) (n d : Nat) : Nat :=
  let t := n / d
  let rem := n % d
  match m with
  | .rne => if 2 * rem > d then t + 1 else if 2 * rem = d ∧ t % 2 = 1 then t + 1 else t
  | .rtz => t
  | .sr r => if r.toNat < (rem <<< 32) / d then t + 1 else t

/-- n × 2^s / d as a fraction of naturals. -/
def shiftFrac (n d : Nat) (s : Int) : Nat × Nat :=
  if s ≥ 0 then (n <<< s.toNat, d) else (n, d <<< (-s).toNat)

/-- The magnitude code of a positive value rounded to a float layout as if its exponent range had no top; codes above
maxCode say that the rounded magnitude exceeds the largest finite value (R72). -/
def FpFmt.roundMag (f : FpFmt) (m : Rnd) (num den : Nat) (e : Int) : Nat :=
  let k := floorLog2 num den e
  let eff := max k (1 - (f.bias : Int))
  let (n, d) := shiftFrac num den (e - (eff - f.mbits))
  ((eff + f.bias - 1).toNat <<< f.mbits) + roundDiv m n d

/-- A sign and a magnitude code. -/
def FpFmt.signed (f : FpFmt) (neg : Bool) (mag : Nat) : Nat := mag + (b2n neg <<< (f.mbits + f.ebits))

/-- Conversion of an exact value to a float layout (R72): sat is CONV.SAT, elem is true for an element of a
block-scaled format, whose overflow always saturates. -/
def FpFmt.convert (f : FpFmt) (sat elem : Bool) (m : Rnd) (v : FVal) : Nat :=
  let ovf (neg : Bool) : Nat :=
    if sat || elem then f.signed neg f.maxCode
    else if f.hasInf then f.signed neg ((2 ^ f.ebits - 1) <<< f.mbits)
    else f.nanCode
  match v with
  | .nan => f.nanCode
  | .inf neg => ovf neg
  | .fin neg num den e =>
    if num = 0 then f.signed neg 0
    else
      let c := f.roundMag m num den e
      if c > f.maxCode then
        (if m = .rtz then f.signed neg f.maxCode else ovf neg)
      else f.signed neg c

/-- Conversion of an exact value to an n-bit integer (R72): NaN gives 0, everything else saturates. -/
def convertInt (n : Nat) (m : Rnd) (v : FVal) : Nat :=
  match v with
  | .nan => 0
  | .inf neg => toCode n (if neg then -(2 ^ (n - 1)) else 2 ^ (n - 1) - 1)
  | .fin neg num den e =>
    let (a, d) := shiftFrac num den e
    let r := roundDiv m a d
    toCode n (satInt n (if neg then -(r : Int) else r))

/-- Conversion of one value to format c, not block-scaled, under CONV (R72). conv is the 3-bit field of R71. -/
def convertElem (c conv : Nat) (r : Word) (v : FVal) : Nat :=
  let m := rndOf (conv % 4) r
  match fpOf c with
  | some f => f.convert (conv.testBit 2) false m v
  | none => convertInt (fmtBits c) m v

/-- Round to nearest even to FP32, overflow to infinity. -/
def rneF32 (v : FVal) : Word := word (fmtFp32.convert false false .rne v)

/-- Round to nearest even to FP32, as a value. -/
def rneF32v (v : FVal) : FVal := f32 (rneF32 v)

/-- The larger of two magnitudes of finite values; non-finite values do not enter. -/
def maxMag (a b : FVal) : FVal :=
  if b.nonfinite then a else if a.abs.lt b.abs then b.abs else a

/-- The largest finite magnitude of a list. -/
def amaxOf (vs : List FVal) : FVal := vs.foldl maxMag (FVal.zero false)

/-- The exponent of the largest normal value of an MX element format (R73). -/
def mxEmax (c : Nat) : Int :=
  match c with
  | 5 => 8
  | 6 => 4
  | _ => 2

/-- The MX scale exponent X of a block of largest magnitude amax (R73). -/
def mxExp (c : Nat) (amax : FVal) : Int :=
  match amax with
  | .fin _ num den e => if num = 0 then -127 else max (-127) (min 127 (floorLog2 num den e - mxEmax c))
  | _ => -127

/-- The FS4 scale, exponent and fine mantissa, of a block of largest magnitude amax (R74). -/
def fs4Exp (amax : FVal) : Int × Nat :=
  match amax with
  | .fin _ num den e =>
    if num = 0 then (-127, 0)
    else
      let d := den * 6
      let k := floorLog2 num d e
      let (n', d') := shiftFrac num d (e - k)
      let m := ceilDiv ((n' - d') * 16) d'
      let (k, m) := if m = 16 then (k + 1, 0) else (k, m)
      if k < -127 then (-127, 0) else if k > 127 then (127, 15) else (k, m)
  | _ => (-127, 0)

/-- Conversion of one block of values to block-scaled format c (R73 to R75): the scale code and the element codes. rs
are the generator words of the elements. -/
def convertBlock (c conv : Nat) (rs : List Word) (vs : List FVal) : Nat × List Nat :=
  if vs.any FVal.nonfinite then
    (if c == 11 then 0xFF00 else 0xFF, vs.map fun _ => 0)
  else
    let amax := amaxOf vs
    let elem (num16 : Nat) (x : Int) (v : FVal) (r : Word) : Nat :=
      let q := match v with
        | .fin s a d e => FVal.fin s (a * 16) (d * num16) (e - x)
        | w => w
      match fpOf c with
      | some f => f.convert true true (rndOf (conv % 4) r) q
      | none => 0
    if c == 11 then
      let (x, m) := fs4Exp amax
      (((x + 127).toNat <<< 8) + (m <<< 4), List.zipWith (elem (16 + m) x) vs rs)
    else
      let x := mxExp c amax
      ((x + 127).toNat, List.zipWith (elem 16 x) vs rs)

/-- The scaled value of R86: exact where it is zero or its magnitude lies in the FP32 normal range, else its FP32
rounding to nearest even. -/
def scaleR86 (d : Int) (x : FVal) : FVal :=
  match x.scale d with
  | .fin s num den e =>
    if num = 0 then .fin s num den e
    else
      let y := FVal.fin s num den e
      let k := floorLog2 num den e
      let small := decide (k < -126)
      let big := (fmtFp32.decode 0x7F7FFFFF).lt y.abs
      if small || big then rneF32v y else y
  | v => v

/-! ## The keyed generator (R79) -/

/-- The four words and two keys of the Philox state. -/
structure Philox where
  c0 : Word
  c1 : Word
  c2 : Word
  c3 : Word
  k0 : Word
  k1 : Word
  deriving DecidableEq, Repr

/-- The high half of a 64-bit product. -/
def hi32 (a b : Word) : Word := word ((a.toNat * b.toNat) >>> 32)

/-- One round of R79. -/
def Philox.round (p : Philox) : Philox :=
  { c0 := hi32 0xCD9E8D57 p.c2 ^^^ p.c1 ^^^ p.k0
    c1 := 0xCD9E8D57 * p.c2
    c2 := hi32 0xD2511F53 p.c0 ^^^ p.c3 ^^^ p.k1
    c3 := 0xD2511F53 * p.c0
    k0 := p.k0 + 0x9E3779B9
    k1 := p.k1 + 0xBB67AE85 }

/-- n rounds. -/
def Philox.rounds : Nat → Philox → Philox
  | 0, p => p
  | n + 1, p => Philox.rounds n p.round

/-- A rounding key of R76. -/
structure SrKey where
  step : Word
  tensor : BitVec 16
  row : BitVec 16
  col : Word
  deriving DecidableEq, Repr

/-- The Philox input of an element (R79). -/
def philoxOf (seed : BitVec 64) (k : SrKey) (elem : Nat) : Philox :=
  { c0 := k.step
    c1 := word elem
    c2 := word ((k.tensor.toNat <<< 16) + k.row.toNat)
    c3 := k.col
    k0 := word seed.toNat
    k1 := word (seed.toNat >>> 32) }

/-- The generator word of one element (R79). -/
def srWord (seed : BitVec 64) (k : SrKey) (elem : Nat) : Word := (Philox.rounds 10 (philoxOf seed k elem)).c0

/-- The second output word of the generator, for RNG (R244). -/
def rngWord (seed : BitVec 64) (k : SrKey) (elem : Nat) : Word := (Philox.rounds 10 (philoxOf seed k elem)).c1

/-! ## Array accumulation (R63 to R68) -/

/-- One class-H k-step (R63, R68). -/
def accStep (acc : Word) (p : FVal) : Word := rneF32 ((f32 acc).add p)

/-- The anchor A of a k-block: the largest floor(log2 |p|) of its nonzero products (R65). -/
def windowTop : List FVal → Option Int
  | [] => none
  | p :: ps =>
    match p with
    | .fin _ num den e =>
      if num = 0 then windowTop ps
      else
        let k := floorLog2 num den e
        match windowTop ps with
        | none => some k
        | some t => some (max k t)
    | _ => windowTop ps

/-- A product as an integer count of 2^lsb, its magnitude truncated (R65). -/
def truncTo (lsb : Int) (p : FVal) : Int :=
  match p with
  | .fin s num den e =>
    let (n, d) := shiftFrac num den (e - lsb)
    if s then -((n / d : Nat) : Int) else ((n / d : Nat) : Int)
  | _ => 0

/-- The window sum of a k-block (R64, R65, R68). -/
def windowSum (ps : List FVal) : FVal :=
  if ps.any FVal.isNan then .nan
  else
    let pos := ps.contains (.inf false)
    let neg := ps.contains (.inf true)
    if pos && neg then .nan
    else if pos then .inf false
    else if neg then .inf true
    else
      match windowTop ps with
      | none => FVal.zero false
      | some top =>
        let lsb := top - 41
        let s := ps.foldl (fun a p => a + truncTo lsb p) (0 : Int)
        .fin (s < 0) s.natAbs 1 lsb

/-- One k-block: its window sum times both block scales, exactly, added with one rounding (R64). A scale of none is a
NaN block scale. -/
def accBlock (acc : Word) (ps : List FVal) (scA scB : Option FVal) : Word :=
  match scA, scB with
  | some a, some b => accStep acc ((windowSum ps).mul (a.mul b))
  | _, _ => accStep acc .nan

/-! ## Comparison and selection outside the arrays (R82) -/

/-- Maximum (R82): NaN if either operand is NaN; a tie of zeros keeps +0. -/
def fmaxv (x y : FVal) : FVal :=
  if x.isNan || y.isNan then .nan
  else if x.lt y then y
  else if y.lt x then x
  else if x.sign then y else x

/-- Minimum (R82): NaN if either operand is NaN; a tie of zeros keeps −0. -/
def fminv (x y : FVal) : FVal :=
  if x.isNan || y.isNan then .nan
  else if y.lt x then y
  else if x.lt y then x
  else if x.sign then x else y

/-- The comparisons of CMP codes EQ, NE, LT, LE, GT, GE, 0 to 5 (R82). -/
def cmpVal (op : Nat) (x y : FVal) : Bool :=
  match op with
  | 0 => x.eqv y
  | 1 => !(x.eqv y)
  | 2 => x.lt y
  | 3 => x.lt y || x.eqv y
  | 4 => y.lt x
  | _ => y.lt x || x.eqv y

end Sys2Proof.Machine
end

