-- ==== Sys2Proof/Machine/Store.lean ====
section
/-! DEFINITION. Sparse stores in one canonical form: keys strictly rising, no entry equal to the value that an unlisted
key reads as. The pool's bytes (09_pool_and_movement R275, R284), flags, descriptors, registers and tables are kept so. -/

namespace Sys2Proof.Machine

/-- What key k holds; d is what an unlisted key reads as. -/
def mget {α : Type} (d : α) : List (Nat × α) → Nat → α
  | [], _ => d
  | (a, x) :: t, k => if k = a then x else mget d t k

/-- The store with key k holding v, in canonical form. -/
def mset {α : Type} [DecidableEq α] (d : α) : List (Nat × α) → Nat → α → List (Nat × α)
  | [], k, v => if v = d then [] else [(k, v)]
  | (a, x) :: t, k, v =>
    if k < a then (if v = d then (a, x) :: t else (k, v) :: (a, x) :: t)
    else if k = a then (if v = d then t else (k, v) :: t)
    else (a, x) :: mset d t k v

/-- Every key of the store lies above n. -/
def keysAbove {α : Type} : List (Nat × α) → Nat → Bool
  | [], _ => true
  | (a, _) :: t, n => decide (n < a) && keysAbove t n

/-- The canonical form: keys strictly rising, no entry equal to the default. -/
def mwf {α : Type} [DecidableEq α] (d : α) : List (Nat × α) → Bool
  | [] => true
  | (a, x) :: t => decide (x ≠ d) && keysAbove t a && mwf d t

/-- Consecutive bytes from address a. -/
def readBytes (m : List Host.Cell) (a : Nat) : Nat → List Byte
  | 0 => []
  | n + 1 => mget (0 : Byte) m a :: readBytes m (a + 1) n

/-- Bytes written from address a on. -/
def writeBytes (m : List Host.Cell) (a : Nat) : List Byte → List Host.Cell
  | [] => m
  | b :: bs => writeBytes (mset (0 : Byte) m a b) (a + 1) bs

end Sys2Proof.Machine
end

