-- ==== Sys2Proof/Machine/State.lean ====
section
/-! DEFINITION. The state of the core: every register, queue, buffer, counter, mode and pin that spec/ gives it, as plain
data, the queue of waiting commands, and the state right after the release of a cold reset. INVENTORY.md lists each
piece with its rule. -/

namespace Sys2Proof.Machine

/-! ## Common records -/

/-- Eight words: a descriptor (R112), a bundle (R91) or a packet header (R348). -/
structure W8 where
  w0 : Word
  w1 : Word
  w2 : Word
  w3 : Word
  w4 : Word
  w5 : Word
  w6 : Word
  w7 : Word
  deriving DecidableEq, Repr

/-- Eight zero words. -/
def W8.zero : W8 := ⟨0, 0, 0, 0, 0, 0, 0, 0⟩

/-- One instruction in an engine queue or in flight (R98, R103): its slot word and TAG, the copies of its descriptor and
of the next one (R292, R302), the S registers and scale exponents copied at issue (R98, R171, R226), for RSEND and RMAXS
the job registers copied at issue (R381), the replay position for FAULT_INFO (R149), the clk and the bundle it issued
in, and the model's number of the instruction. -/
structure Entry where
  w : Word
  tag : BitVec 16
  d : W8
  d1 : W8
  s0 : Word
  s1 : Word
  e0 : Int
  e1 : Int
  e2 : Int
  job : List Nat
  half : Bool
  bundle : Nat
  iter : Nat
  clk : Nat
  bseq : Nat
  id : Nat
  deriving DecidableEq, Repr

/-- A 64-byte channel line with its sideband bits END and NF (R172) and the clk of its push; a count entry holds the
count in its low 32 bits (R105). -/
structure Line where
  data : Nat
  endB : Bool
  nf : Bool
  clk : Nat
  deriving DecidableEq, Repr

/-- A channel (R104 to R109): its lines; of a fork channel the lines that both consumers have popped and that consumer 0 or
consumer 1 has not yet used (R108); the lines popped and pushed in clk stamp (R109). -/
structure Chan where
  lines : List Line
  hold0 : List Line
  hold1 : List Line
  stamp : Nat
  pops : Nat
  pushes : Nat
  deriving DecidableEq, Repr

/-- An empty channel. -/
def Chan.empty : Chan := ⟨[], [], [], 0, 0, 0⟩

/-! ## Shape image (R413) -/

/-- One entry of the channel table (R105). -/
structure ChanEntry where
  prod : Nat
  cons0 : Nat
  cons1 : Nat
  kind : Nat
  width : Nat
  depth : Nat
  base : Nat
  deriving DecidableEq, Repr

/-- One pool area (R282): first bank, number of banks (0: absent), KEEP. -/
structure Area where
  first : Nat
  nb : Nat
  keep : Bool
  deriving DecidableEq, Repr

/-- A function table (R245): the header fields and 1,024 coefficients, c0 to c3 of segment 0 first. -/
structure FTable where
  red : Nat
  loTail : Nat
  hiTail : Nat
  dLo : Word
  scale : Word
  dHi : Word
  loVal : Word
  loSlope : Word
  hiVal : Word
  hiSlope : Word
  coeff : List Word
  deriving DecidableEq, Repr

/-- The contents of a shape image (R413): power is the map of PD0 to PD128, lanes and formats are bit maps. -/
structure Image where
  fuse : Bool
  areas : List Area
  chans : List ChanEntry
  lanes : Nat
  formats : Nat
  ftables : List (Option FTable)
  power : Nat
  plimit : Nat
  counters : Option (List Nat)
  routes : Option (Nat × List Word)
  hash : Nat
  deriving DecidableEq, Repr

/-- An unused channel table entry. -/
def ChanEntry.unused : ChanEntry := ⟨0, 0, 0, 0, 0, 0, 0⟩

/-- The null image (R415): PD0 to PD63, PD80 to PD83 and PD125 to PD128 powered. -/
def Image.null : Image :=
  { fuse := false
    areas := List.replicate 5 ⟨0, 0, false⟩
    chans := List.replicate 56 ChanEntry.unused
    lanes := 0xF
    formats := 3
    ftables := List.replicate 8 none
    power := (2 ^ 64 - 1) + (0xF <<< 80) + (0xF <<< 125)
    plimit := 1
    counters := none
    routes := none
    hash := 0 }

/-! ## Clocks, pins and outputs -/

/-- The model's clocks (log 2): core_clk, the clk of them not skipped so far, which the engines' stages count (R253), ref_clk,
clk since the last ref_clk, slow ticks, whether droop throttling skips this clk (R339), with the first and last clk of its
window, and the lines that the channel buffer has taken and given in this clk (R109). -/
structure Clocks where
  clk : Nat
  ek : Nat
  refc : Nat
  refFrac : Nat
  slow : Nat
  skip : Bool
  winFirst : Option Nat
  winLast : Option Nat
  pushes : Nat
  pops : Nat
  deriving DecidableEq, Repr

/-- Input pins held as levels (01_boundary signal tables). -/
structure Pins where
  porN : Bool
  chipRstN : Bool
  droopAlert : Bool
  pondHalt : Bool
  plTarget : BitVec 2
  testMode : Bool
  deriving DecidableEq, Repr

/-- Outputs held as levels (01_boundary signal tables). pl_ready, pl_limit and fuse_req stand in Power and Trim. -/
structure Outs where
  sprRdy : Bool
  coreLate : Bool
  coreFault : Bool
  thermWarn : Bool
  deriving DecidableEq, Repr

/-! ## Spring receiver, replay, issue -/

/-- A load in progress (R133, R135, R138): target half or descriptor class and number, the command words for FAULT_INFO,
counts announced, CRC announced, the flits still expected and received, the bundles written, the words not yet written and
the running CRC-32C. -/
structure Load where
  isBlock : Bool
  half : Bool
  cls : Nat
  desc : Nat
  nbund : Nat
  npatch : Nat
  crc : Word
  w3 : Word
  w2 : Word
  left : Nat
  flits : Nat
  bund : Nat
  words : List Word
  crcRun : Nat
  deriving DecidableEq, Repr

/-- A queued spring command (R134). A REPLAY keeps words 3 and 2 of its flit for FAULT_INFO (R460). A DESC_LOAD waits for its
data; words is filled when they have arrived. -/
inductive Cmd where
  | replay (half : Bool) (first last iter plFirst plCount : Nat) (w3 w2 : Word)
  | descLoad (cls desc : Nat) (words : Option W8)
  | beatNo (value : Word)
  deriving DecidableEq, Repr

/-- One half of the replay buffer (R135, R137): loaded since reset, a load in progress, valid, the bundles and patches of
the last load, and the stored bundles and patch entries. -/
structure Half where
  loaded : Bool
  loading : Bool
  valid : Bool
  nbund : Nat
  npatch : Nat
  bundles : List (Nat × W8)
  patches : List (Nat × W8)
  deriving DecidableEq, Repr

/-- A cleared half (R144). -/
def Half.empty : Half := ⟨false, false, false, 0, 0, [], []⟩

/-- The spring receiver (04_loading). badParity lists bundles and patch entries that hold a word with a parity error
(R149): half, patch table, index. doneAt: the clk in which the command at the head completes; it leaves the queue in the next
(R134, R137). -/
structure Rcv where
  load : Option Load
  cmdq : List Cmd
  half0 : Half
  half1 : Half
  badParity : List (Bool × Bool × Nat)
  doneAt : Option Nat
  deriving DecidableEq, Repr

/-- Where the replay at the head of the command queue stands (R142). -/
inductive Phase where
  | pre
  | run (it b : Nat)
  | each (it : Nat)
  | post
  deriving DecidableEq, Repr

/-- The action of the mark that ends this beat (R128). -/
inductive MarkAct where
  | beat
  | hold
  | imgsw (slot : Bool)
  | ckpt (snap : Bool)
  deriving DecidableEq, Repr

/-- The stop that a mark's beat edge has begun (R140, R421, R468): where it stands, the edge clk it began at and the edges
since. due: the clk in which the installation is complete (R421). actRun is the installation of an ACTIVATE (R419), from Idle or from the Hold that began at an edge clk. -/
inductive Stop where
  | none
  | holdWait (e0 : Nat)
  | hold (e0 : Nat)
  | imgWait (slot : Bool) (e0 edges : Nat)
  | imgRun (slot : Bool) (e0 edges due : Nat)
  | imgDone (e0 edges : Nat)
  | actRun (slot : Bool) (held : Option Nat) (due : Nat)
  | ckptWait (snap : Bool) (e0 edges : Nat)
  | ckptReady (snap : Bool) (e0 edges nb : Nat)
  | ckptCopy (snap : Bool) (e0 edges nb : Nat)
  | ckptDone (snap : Bool) (e0 edges nb : Nat)
  deriving DecidableEq, Repr

/-- The issue point and the beat (R19 to R22, R97 to R101). mark: a mark has issued in this beat. holdMark: a HOLD mark has
issued and no RESUME has been accepted since (R140). resumeAt: clk of the accepted RESUME. chain: the VEC members of the
chain still open at issue (R231). -/
structure Issue where
  phase : Option Phase
  mark : Bool
  act : Option MarkAct
  stop : Stop
  service : Bool
  mayEnter : Bool
  holdMark : Bool
  resumeAt : Option Nat
  lastIssue : Option Nat
  lastEdge : Nat
  lastDue : Option Nat
  beatLen : Nat
  s63Set : Option Nat
  lateRun : Nat
  idleRun : Nat
  issuedNow : Bool
  chain : List Entry
  nextId : Nat
  nextBundle : Nat
  deriving DecidableEq, Repr

/-- An issued instruction that has not completed (R330): slot 0 to 6, its bundle, its number; done in this clk. -/
structure Live where
  slot : Nat
  bseq : Nat
  id : Nat
  done : Bool
  deriving DecidableEq, Repr

/-- A gate that a SYN instruction holds on later bundles (R328): the slots it names, its bundle, its number. -/
structure Gate where
  slots : List Nat
  bseq : Nat
  id : Nat
  flag : Nat
  done : Bool
  deriving DecidableEq, Repr

/-- The seven engine queues, at most eight entries each (R97). -/
structure Queues where
  mxa : List Entry
  mxb : List Entry
  vec : List Entry
  rsu : List Entry
  mov : List Entry
  syn : List Entry
  scl : List Entry
  deriving DecidableEq, Repr

/-! ## Matrix arrays -/

/-- An array instruction in progress (R162 to R165): k-steps broadcast so far, 32-element groups popped and not broadcast
for A and B, the block scales of the present k-block, and its operand codes k-step by k-step. -/
structure ArrRun where
  e : Entry
  k : Nat
  bufA : List Nat
  bufB : List Nat
  scaleA : List Nat
  scaleB : List Nat
  blkA : List (List Nat)
  blkB : List (List Nat)
  deriving DecidableEq, Repr

/-- A stream on its way to a channel (R56, R172, R217): element bits and block-scale bits (0: none), the length of a
segment of a block-scaled stream and of the whole stream, bits waiting for a line, elements so far, the lines formed and not
pushed, each with the number of elements that the stream has carried at its end, and that number for the lines pushed. -/
structure LineOut where
  w : Nat
  sw : Nat
  rowlen : Nat
  total : Nat
  bits : BitBuf
  scales : BitBuf
  pos : Nat
  lineq : List (Nat × Nat)
  sent : Nat
  deriving DecidableEq, Repr

/-- A tile on its way out (R168 to R173): the closing instruction's entry, the accumulators, columns shifted, rows pushed,
the stream it forms, and its non-finite flag. -/
structure Tile where
  e : Entry
  acc : List Word
  cols : Nat
  row : Nat
  out : LineOut
  nf : Bool
  deriving DecidableEq, Repr

/-- A logical array (05_arrays). swap: a closing instruction has broadcast its last k-step in that clk and its tile waits
for the shadow. -/
structure ArrState where
  run : Option ArrRun
  acc : List Word
  isOpen : Bool
  swap : Option (Nat × Entry)
  shadow : Option Tile
  corner : List Tile
  armed : Bool
  quiet : Bool
  level : Nat
  target : Nat
  cnt : Nat
  idle : Nat
  lastStep : Option Nat
  lastRow : Option Nat
  broadcastNow : Bool
  deriving DecidableEq, Repr

/-- An array after reset (R192). -/
def ArrState.init : ArrState :=
  ⟨none, [], false, none, none, [], false, false, 0, 0, 0, 0, none, none, false⟩

/-- The pair turn of MXB (R197): two slots of P × P element codes, the lines received of the block being filled, which
slot fills, which blocks are complete, with the clk from which they can be read, which slot is read next, and the clk in
which the other one was last freed. -/
structure Turn where
  slot0 : List Nat
  slot1 : List Nat
  full0 : Option Nat
  full1 : Option Nat
  fill : Bool
  read : Bool
  freed : Option Nat
  deriving DecidableEq, Repr

/-- An empty pair turn. -/
def Turn.init : Turn := ⟨[], [], none, none, false, false, none⟩

/-! ## Vector engine and RSU -/

/-- A stream being popped (R217): lines popped of the present segment, bits not decoded, element codes with their block
scales that wait, and the index of the first of them. -/
structure InStream where
  lines : List Nat
  bits : BitBuf
  ready : List (Nat × Nat)
  taken : Nat
  deriving DecidableEq, Repr

/-- A stream not yet begun. -/
def InStream.init : InStream := ⟨[], BitBuf.empty, [], 0⟩

/-- A started chain member (R250) with its length, its input streams X, Y, Z and the mask, the elements it has kept or
counted so far (R237, R239), and the clk of its start. -/
structure Member where
  e : Entry
  len : Nat
  x : InStream
  y : InStream
  z : InStream
  m : InStream
  outPos : Nat
  clk : Nat
  deriving DecidableEq, Repr

/-- What one step of a chain hands to the push stage: the earliest engine clk, the element codes with their block scales, the
values to fold, each with the number of elements of the stream that the push carrying it completes and its slot, cache elements to
write (bit position, width, code), a count, and whether it is the last. -/
structure StepOut where
  due : Nat
  codes : List (Nat × Nat)
  folds : List (Nat × Nat × FVal)
  cache : List (Nat × Nat × Nat)
  cnt : Option Nat
  last : Bool
  deriving DecidableEq, Repr

/-- An output of a chain (R217, R250): the member that pushes it, the ids of the chain's members in order, whether it pushes to a
channel, the stream, the steps waiting, values whose elements have not been pushed, a count to push with the engine clk of the
last line before it, and whether the last step has been taken. -/
structure OutStream where
  e : Entry
  chain : List Nat
  push : Bool
  out : LineOut
  steps : List StepOut
  held : List (Nat × Nat × FVal)
  cnt : Option Nat
  lastPush : Nat
  ended : Bool
  deriving DecidableEq, Repr

/-- The chain in flow (R250): its members, next element, clk of its start and of its last step, the cache as it stood when
the flow began (R222). -/
structure Flow where
  members : List Member
  elem : Nat
  len : Nat
  start : Nat
  step : Nat
  oc : List (Nat × Byte)
  deriving DecidableEq, Repr

/-- The vector engine (07_vector). links: the link queues L0 to L7, each its vectors with their elements, oldest first (R107). -/
structure VecState where
  started : List Member
  flow : Option Flow
  lastFlow : Nat
  outs : List OutStream
  links : List (List (List (Nat × Nat)))
  deriving DecidableEq, Repr

/-- A vector engine with nothing in flight. -/
def VecState.init : VecState := ⟨[], none, 0, [], List.replicate 8 []⟩

/-- One result of the RSU on its way out (R262, R272): the earliest clk, the element index of its values, FP32 values for
CH_OUT and CH_AUX, records for COUT_CH or CH_OUT, carry registers to write, statistics records (pool address, bytes), a carry packet, end of
the instruction. -/
structure RsuOut where
  due : Nat
  idx : Nat
  main : List Word
  aux : List Word
  recs : List (BitVec 64)
  crs : List (Nat × BitVec 64)
  stat : List (Nat × List Byte)
  send : Bool
  last : Bool
  deriving DecidableEq, Repr

/-- The RSU instruction in flow (R254 to R272): its length, position, input streams, the elements of the open row (values
of X and Y, mask bit), the row's index, the running carry pair (CA, CV) and whether it is present, the column accumulators,
and the records read. -/
structure RsuRun where
  e : Entry
  len : Nat
  pos : Nat
  start : Nat
  x : InStream
  y : InStream
  m : InStream
  row : List (Word × Word × Bool)
  rowIdx : Nat
  c : Word × Word
  have_ : Bool
  cols : List (Option Word)
  recs : List (BitVec 64)
  deriving DecidableEq, Repr

/-- The push stage of an RSU instruction: pending results, the streams of CH_OUT, CH_AUX and COUT_CH, values that wait for
a block of 32, values to fold, each with its stream (true: CH_AUX) and the number of elements of it that the push carrying it
completes (R84), whether the last result has been made, and of CSEND whether its packet has been handed off. -/
structure RsuPush where
  e : Entry
  outs : List RsuOut
  main : LineOut
  aux : LineOut
  recs : LineOut
  mval : List Word
  aval : List Word
  held : List (Bool × Nat × FVal)
  ended : Bool
  handed : Bool
  deriving DecidableEq, Repr

/-- The RSU (08_reduction_scan): started instruction waiting for its flow, the flow, the push stages of instructions that
have not completed, the statistics buffer (instruction number, pool address, bytes), and the carry registers that the last
results to land wrote, each with its clk (R272). The clk are engine clk (R273). -/
structure RsuState where
  started : List (Entry × Nat × Nat)
  run : Option RsuRun
  lastFlow : Nat
  push : List RsuPush
  stats : List (Nat × Nat × List Byte)
  landed : List (Nat × Nat)
  deriving DecidableEq, Repr

/-- An RSU with nothing in flight. -/
def RsuState.init : RsuState := ⟨[], none, 0, [], [], []⟩

/-! ## Data movement -/

/-- A row that a read generator has fetched (R296): its number, its 256 bits, what the read found of its four ECC words (R276,
R277), the last line that takes an element of it, and the ECC words already asked for. -/
structure FetchRow where
  row : Nat
  data : Nat
  found : List Nat
  last : Nat
  words : List Nat
  deriving DecidableEq, Repr

/-- A read or write generator at work (R286, R296): lines pushed or popped (a ZERO: positions written); the clk of the last
of them and how many moved in it. Of a read generator: the line being fetched, how many of its pieces are captured, the
clk from which they can be pushed, the last rows fetched, oldest first, and the whole lines that wait (clk, line). Of a write
generator: popped lines with their landing clk. The clk are engine clk (R321). -/
structure Gen where
  e : Entry
  line : Nat
  clk : Nat
  count : Nat
  fl : Nat
  part : List (Nat × Nat)
  partDue : Nat
  rows : List FetchRow
  buf : List (Nat × Nat)
  land : List (Nat × Nat × Nat)
  deriving DecidableEq, Repr

/-- A generator that begins an instruction. -/
def Gen.begin (e : Entry) : Gen := ⟨e, 0, 0, 0, 0, [], 0, [], [], []⟩

/-- A transposing buffer in TIN (R299, R301): units accepted and emitted, lines of the unit being accepted, units held with
the engine clk of their last group, lines of the unit being emitted not yet pushed, and the engine clk of the last emission with
the lines of groups emitted in it. -/
structure Tin where
  e : Entry
  units : Nat
  lines : List Nat
  held : List (List Nat × Nat)
  emitted : Nat
  outq : List Nat
  outClk : Nat
  outN : Nat
  deriving DecidableEq, Repr

/-- A permuting copy at work in a transposing buffer (R302, R303): the tiles or tile pairs left, indices i2 to i5, and of the
first of them the element codes read and the number written. -/
structure TileCopy where
  e : Entry
  left : List (List Nat × List Nat)
  got : List Nat
  put : Nat
  deriving DecidableEq, Repr

/-- One block of a gather from external memory (R309): its entry, its external offset, the packets it takes, those asked
and received, or a block of zeros, or the block before it once more. -/
structure GBlock where
  idx : Nat
  addr : Nat
  pieces : Nat
  asked : Nat
  got : List (Nat × List Byte)
  zero : Bool
  dup : Bool
  deriving DecidableEq, Repr

/-- The entry of a pool table at work (R312): its block, of GATH the codes read so far, else the codes to write, and the elements
done. -/
structure GWork where
  block : Nat
  codes : List Nat
  pos : Nat
  deriving DecidableEq, Repr

/-- The gather engine at work (R306 to R312): entry count, next entry, the coordinate list, data and mask streams, the
stream it pushes, count of blocks read or written, the block of the entry before with its codes of a pool table, external blocks
in list order, the codes of the last of them that has joined the stream, the entry at work with the engine clk of its last work,
and the engine clk of the last push or landing. -/
structure Gath where
  e : Entry
  len : Nat
  next : Nat
  list : InStream
  data : InStream
  mask : InStream
  out : LineOut
  count : Nat
  last : Option (Nat × List Nat)
  blocks : List GBlock
  prev : List (Nat × Nat)
  work : Option GWork
  workClk : Option Nat
  lastClk : Nat
  deriving DecidableEq, Repr

/-- The activation compressor at work (R313 to R318). stage of a save: 0 streaming the body, 1 body sent, 2 header sent.
stage of a restore: 0 header asked, 1 body asked, 2 all received. elem counts elements taken or restored; pend are restored
elements on their way to the stream; body the bytes formed or received in order; sent, acked and asked count packets; got holds
replies by packet index. -/
structure Acmp where
  e : Entry
  save : Bool
  stage : Nat
  elem : Nat
  pend : List (Nat × Nat)
  inp : InStream
  body : List Byte
  bodyLen : Nat
  crcRun : Nat
  sent : Nat
  acked : Nat
  asked : Nat
  got : List (Nat × List Byte)
  out : LineOut
  deriving DecidableEq, Repr

/-- A result piece of a reduction (R378): its key, number, COUNT, NF, NFX and payload; hasVals is false for the value-less piece of
R380. -/
structure ResPiece where
  step : Nat
  tile : Nat
  op : Nat
  piece : Nat
  count : Nat
  nf : Bool
  nfx : Bool
  hasVals : Bool
  payload : List Byte
  deriving DecidableEq, Repr

/-- A fabric instruction in flight (R363 to R366, R374, R375): its length, packets formed and acknowledged, the lines
popped as a bit string with their number, the replies received and not pushed, the index of the next to push, the stream it
pushes, the engine clk of its start, the packets of a reduce sender that wait, and the result pieces of a one-rank job that are
still to be written (R380). -/
structure FabOp where
  e : Entry
  len : Nat
  formed : Nat
  acked : Nat
  inp : BitBuf
  lines : Nat
  nf : Bool
  got : List (Nat × List Byte)
  pushed : Nat
  out : LineOut
  start : Nat
  queue : List (W8 × List Byte)
  local_ : List ResPiece
  deriving DecidableEq, Repr

/-- The MOV engine (09_pool_and_movement, 11_fabric_and_reduction). -/
structure MovState where
  rg : List (Option Gen)
  wg : List (Option Gen)
  tb0 : Option Tin
  tb1 : Option Tin
  cp0 : Option TileCopy
  cp1 : Option TileCopy
  gath : Option Gath
  acmp : Option Acmp
  fab : List FabOp
  deriving DecidableEq, Repr

/-- A MOV engine with nothing in flight: 16 read and 8 write generators idle. -/
def MovState.init : MovState := ⟨List.replicate 16 none, List.replicate 8 none, none, none, none, none, none, none, []⟩

/-! ## SYN and SCL -/

/-- The SYN engine (R329, R336): the wait at work, its count of clk or beats, and whether it has expired and proceeds. -/
structure SynState where
  cur : Option Entry
  count : Nat
  startClk : Nat
  lastDone : Option Nat
  expired : Bool
  deriving DecidableEq, Repr

/-- A SYN engine with nothing in flight. -/
def SynState.init : SynState := ⟨none, 0, 0, none, false⟩

/-- What an SCL instruction writes when its result lands (R122, R489). -/
inductive SclRes where
  | reg (n : Nat) (v : Word)
  | desc (cls n word : Nat) (v : Word)
  | scaleCfg (slot sel : Nat) (v : Word)
  | scaleCommit (slot : Nat)
  | none
  deriving DecidableEq, Repr

/-- A started SCL instruction (R122): when its result can be used. -/
structure SclFly where
  e : Entry
  due : Nat
  res : SclRes
  deriving DecidableEq, Repr

/-- The SCL engine. -/
structure SclState where
  fly : List SclFly
  deriving DecidableEq, Repr

/-- An SCL engine with nothing in flight. -/
def SclState.init : SclState := ⟨[]⟩

/-- A scale slot (R83). -/
structure ScaleRec where
  hist : List Word
  curAmax : Word
  nf : Bool
  hcount : Nat
  hptr : Nat
  margin : Nat
  fmt : Nat
  policy : Bool
  scaleExp : Int
  deriving DecidableEq, Repr

/-- What reaches a scale slot in one clk (R87): the replacement of CUR_AMAX by a chip-wide result, a fold of values with
their largest finite magnitude and whether one was not finite, and what a tracker operation writes (R126). -/
inductive ScaleEv where
  | replace (v : Word)
  | fold (amax : Word) (nf : Bool)
  | cfg (sel : Nat) (v : Word)
  | commit
  deriving DecidableEq, Repr

/-- A scale slot at reset: FMT 0x3 (R83). -/
def ScaleRec.init : ScaleRec := ⟨List.replicate 16 0, 0, false, 0, 0, 0, 3, false, 0⟩

/-! ## Fabric port -/

/-- An outstanding request (R355): TAGX, what it belongs to, its packet index, the bytes asked. owner: 0 a fabric
instruction, 1 the gather engine, 2 the compressor, 3 a checkpoint copy, 4 a restore. -/
structure Outst where
  tagx : Nat
  typ : Nat
  owner : Nat
  id : Nat
  index : Nat
  len : Nat
  deriving DecidableEq, Repr

/-- A formed packet that waits for the hand-off (R352, R353, R366): header words, payload, channel, earliest engine clk, and the
request it becomes. -/
structure TxPkt where
  hdr : W8
  payload : List Byte
  ch : Nat
  due : Nat
  req : Option Outst
  liveId : Option Nat
  deriving DecidableEq, Repr

/-- A posted reduce receive (R375). -/
structure Recv where
  step : Nat
  tile : Nat
  op : Nat
  rfmt : Nat
  resOff : Nat
  area : Nat
  rflag : Nat
  elems : Nat
  slot : Nat
  divMode : Nat
  nranks : Nat
  got : List Nat
  deriving DecidableEq, Repr

/-- A digest ring entry (R383). -/
structure Digest where
  v : Bool
  job : Nat
  step : Nat
  sent : Nat
  recv : Nat
  nsent : Nat
  nrecv : Nat
  deriving DecidableEq, Repr

/-- An empty digest ring entry. -/
def Digest.init : Digest := ⟨false, 0, 0, 0, 0, 0, 0⟩

/-- A fabric add that changes a flag at the end of the present clk (R324): the flag, the amount, the instruction it completes,
the source for FAULT_INFO, whether a packet carried it (R428 source 0x033), and its place in the arrival order: 0 waited, 1 and 2
arrived in this clk on channel 0 and 1. -/
structure FlagAdd where
  flag : Nat
  amount : Int
  inst : Option (Nat × Entry)
  src : Nat
  remote : Bool
  rank : Nat
  deriving DecidableEq, Repr

/-- The fabric port (11_fabric_and_reduction). routes0 and routes1 are the two physical copies (R351, R352), commit and
copying the actions pending, waiting the ROUTE_DATA writes and COPY requests (none) that wait (R352), busy0 and busy1 the clk from which each transmit channel is free, wire the packets driven on each
channel since reset, newest first, rxbuf the packets that wait in the receive buffer with the clk of their arrival (R385), parked those of the staging
buffer in an installation (R421), both in arrival order, adds and carries the flag adds and carry records that take effect at
the end of this clk (R269, R324). -/
structure FabState where
  txCred0 : Nat
  txCred1 : Nat
  rxCred0 : Nat
  rxCred1 : Nat
  link : Bool
  outst : List Outst
  txq : List TxPkt
  wire : List TxPkt
  busy0 : Nat
  busy1 : Nat
  routes0 : List (Nat × Word)
  routes1 : List (Nat × Word)
  active : Bool
  commit : Bool
  copying : Bool
  waiting : List (Option (Nat × Word))
  routeIdx : BitVec 12
  recv : List Recv
  rxbuf : List (Nat × Pkt)
  parked : List Pkt
  adds : List FlagAdd
  carries : List (Nat × BitVec 64)
  norx : Nat
  fabDrop : Nat
  sbStranger : Nat
  ring : List Digest
  deriving DecidableEq, Repr

/-- The job registers (R381). -/
structure Job where
  id : BitVec 10
  rank : BitVec 16
  nranks : Nat
  nfMode : Nat
  lateMode : Bool
  divMode : Nat
  dlb : Byte
  dls : Byte
  seed : BitVec 64
  deriving DecidableEq, Repr

/-- The job registers at reset. -/
def Job.init : Job := ⟨0, 0, 1, 1, false, 0, 0, 0, 0⟩

/-! ## Management -/

/-- An ENROL entry (R400) with the last request of R395 and its reply: SEQ, TYPE and the reply frame. -/
structure EnrolEnt where
  v : Bool
  claim : Bool
  maxpri : Byte
  station : Byte
  last : Option (Byte × Byte × Option Frame)
  deriving DecidableEq, Repr

/-- An invalid ENROL entry. -/
def EnrolEnt.init : EnrolEnt := ⟨false, false, 0, 0, none⟩

/-- A claim of an open election (R402). -/
structure Claim where
  station : Byte
  prio : Byte
  nonce : BitVec 24
  seq : Byte
  deriving DecidableEq, Repr

/-- Ownership and enrolment (R400 to R407). state: 0 UNOWNED, 1 OWNED, 2 HANDOVER. window: the claims of the open election
and the slow-tick edges left. -/
structure Own where
  state : Nat
  lock : Bool
  eopen : Bool
  owner : Byte
  prio : Byte
  nonce : BitVec 24
  ticks : Byte
  remain : Byte
  win : Byte
  succ : Byte
  enrol : List EnrolEnt
  window : Option (List Claim × Nat)
  wnack : Nat
  cdeny : Nat
  rxerr : Nat
  aband : Nat
  qovf : Nat
  deriving DecidableEq, Repr

/-- Ownership after a cold reset. -/
def Own.init : Own :=
  ⟨0, false, true, 0xFF, 0, 0, 0x10, 0, 0, 0xFF, List.replicate 16 EnrolEnt.init, none, 0, 0, 0, 0, 0⟩

/-- A frame that met a collision (R390): failed attempts, the slots to wait plus one (0: it is being attempted again), and the
ref_clk of the collision. -/
structure Retry where
  f : Frame
  attempts : Nat
  slots : Nat
  since : Nat
  deriving DecidableEq, Repr

/-- The side-band transceiver: frames driven, oldest first, frames that met a collision, an abandoned ALERT to queue again at
the next slow tick (R390), and the queue of received frames (R387). -/
structure Sideband where
  out : List Frame
  retry : List Retry
  requeue : Bool
  rxq : List Frame
  deriving DecidableEq, Repr

/-- The debug block (R411). status: 0 EMPTY, 1 LOADING, 2 CHECKING, 3 VALID, 0xB HASH, 0xF SIZE. -/
structure Dbg where
  lock : Bool
  status : Nat
  bytes : List Byte
  hash : List Word
  level : Byte
  deriving DecidableEq, Repr

/-- One shape-image slot (R416): status code and the bytes received, and the image they spell once it is VALID. -/
structure ImgSlot where
  status : Nat
  bytes : List Byte
  image : Option Image
  body : Nat
  deriving DecidableEq, Repr

/-- An EMPTY slot. -/
def ImgSlot.empty : ImgSlot := ⟨0, [], none, 0⟩

/-- The shape-image block (R415 to R421). bytes: IMG_COUNT. -/
structure Img where
  a : ImgSlot
  b : ImgSlot
  bytes : Nat
  hashA : List Word
  hashB : List Word
  cur : Image
  infV : Bool
  inf : Bool
  pend : Bool
  pslot : Bool
  deriving DecidableEq, Repr

/-- The event counters (R424). cap: the captured HI half of each LO word's offset.
base: the values as the clk began (R426). -/
structure Cnt where
  en : Bool
  snap : Bool
  keep : Bool
  stream : Bool
  sdst : Byte
  sper : Byte
  shed : Nat
  ovf : Nat
  sel : List Nat
  val : List Nat
  base : List Nat
  snaps : List Nat
  cyc : Nat
  cycSnap : Nat
  snapBeat : Word
  cap : List (Nat × Word)
  sinceStream : Nat
  deriving DecidableEq, Repr

/-- The counters after a cold reset. -/
def Cnt.init : Cnt :=
  ⟨false, false, false, false, 0, 1, 0, 0, List.replicate 16 0, List.replicate 16 0, List.replicate 16 0,
    List.replicate 16 0, 0, 0, 0, [],
    0⟩

/-- One ERR_LOG entry (R459). -/
structure LogEnt where
  v : Bool
  code : Byte
  tag : BitVec 16
  arg0 : Word
  arg1 : Word
  beat : Word
  deriving DecidableEq, Repr

/-- A free ERR_LOG entry. -/
def LogEnt.init : LogEnt := ⟨false, 0, 0, 0, 0, 0⟩

/-- An error detected in the present clk (R457, R458): code, whether it halts, the slot of its instruction, its TAG and the
FAULT_INFO words it would latch. -/
structure Fresh where
  code : Byte
  halt : Bool
  slot : Option Nat
  tag : BitVec 16
  info : List Word
  deriving DecidableEq, Repr

/-- The errors block (R459). info: FAULT_INFO0 to FAULT_INFO6. fresh: the errors of the present clk, which its end records in
ascending code order (R457). -/
structure Err where
  v : Bool
  more : Nat
  code : Byte
  info : List Word
  log : List LogEnt
  wptr : Nat
  ovw : Nat
  poolCe : Nat
  poolUe : Nat
  ocCe : Nat
  critCe : Nat
  ocUe : Nat
  alert : Bool
  fresh : List Fresh
  deriving DecidableEq, Repr

/-- FAULT_INFO at reset: SLOT reads 7 (R459). -/
def Err.info0 : List Word := [0x70000000, 0, 0, 0, 0, 0, 0]

/-- The errors block after a cold reset. -/
def Err.init : Err :=
  ⟨false, 0, 0, Err.info0, List.replicate 32 LogEnt.init, 0, 0, 0, 0, 0, 0, 0, false, []⟩

/-- SYNC_CTL, STALL_CTL, BEAT_LATE and STALL_SNAP (R337, R338, R342 to R344). active: an engine popped, pushed, broadcast,
accessed memory or changed a flag in this clk. -/
structure Sync where
  holdMaxReg : Nat
  holdMax : Nat
  stallLimit : Nat
  stall : Nat
  active : Bool
  lateBeats : Nat
  lateMax : Nat
  snap : List Word
  deriving DecidableEq, Repr

/-- These registers after a cold reset. -/
def Sync.init : Sync := ⟨0x400, 0x400, 0x10000, 0, false, 0, 0, List.replicate 9 0⟩

/-- A checkpoint copy in progress (R468, R472): pieces sent and acknowledged, header sent, the image's bytes, SEQ, digest. -/
structure Copy where
  snap : Bool
  image : List Byte
  sent : Nat
  acked : Nat
  hdrSent : Bool
  hdrAcked : Bool
  seq : Nat
  digest : Nat
  deriving DecidableEq, Repr

/-- A restore in progress (R479): 1 local, 2 remote, 3 held; the header, pieces asked and received. -/
structure Restore where
  kind : Nat
  header : List Byte
  asked : Nat
  pieces : List (Nat × List Byte)
  deriving DecidableEq, Repr

/-- The checkpoint block (R478). state codes as CKPT_STATUS.STATE. probe: the ref_clk of the arm check's PROBE. rx: pieces of
the replica being received and their digest sum. -/
structure Ckpt where
  partner : Word
  pbase : Word
  area : Word
  src : Word
  snap : Word
  sbase : Word
  srcJob : BitVec 10
  arm : Bool
  sameAck : Bool
  rcv : Bool
  tseq : BitVec 16
  state : Nat
  lvalid : Bool
  rvalid : Bool
  rxbad : Bool
  sameFeed : Bool
  lseq : BitVec 16
  rseq : BitVec 16
  ldig : BitVec 64
  rdig : BitVec 64
  probe : Option Nat
  copy : Option Copy
  restore : Option Restore
  rx : Option (List Nat × Nat)
  deriving DecidableEq, Repr

/-- The checkpoint block after a cold reset. -/
def Ckpt.init : Ckpt :=
  ⟨0, 0, 0, 0, 0, 0, 0, false, false, false, 0, 0, false, false, false, false, 0, 0, 0, 0, none, none, none, none⟩

/-- The self-test block (R488). run: the test running and whether it runs inside a checkpoint stop; queued: the CMD queued
to the next stop; stopTest: the CMD that the stop in progress took at its E0 (R486, R487). -/
structure SelfTest where
  state : Nat
  last : Nat
  unit : Byte
  runs : Nat
  queued : Option Nat
  stopTest : Option Nat
  run : Option (Nat × Bool)
  failNow : Bool
  tempSram : BitVec 16
  tempLogic : BitVec 16
  calCode : Byte
  calCnt : Byte
  deriving DecidableEq, Repr

/-- The self-test block after a cold reset. -/
def SelfTest.init : SelfTest := ⟨0, 0, 0xFF, 0, none, none, none, false, 0, 0, 0x80, 0⟩

/-! ## Reset, trim, power, test access -/

/-- An asserted source: its bit of RST_CAUSE, its reach (R431; 1 cold, 2 warm, 3 data, 4 engine), the ref_clk of its
assertion, the engine of an engine reach, and the first release step it holds (10: none whole). -/
structure RstSrc where
  bit : Nat
  reach : Nat
  since : Nat
  eng : Nat
  first : Nat
  deriving DecidableEq, Repr

/-- One release step (R434): 0 HELD, 1 RUNNING, 2 DONE. -/
structure RstStep where
  st : Nat
  tDone : Nat
  tFree : Nat
  tRun : Nat
  deriving DecidableEq, Repr

/-- The reset block (R434, R438, R440): RST_CAUSE, the sources asserted, steps 1 to 9, engines held by an engine reach,
and of the release under way: whether it began with a cold reset, with a wake or a reset in Shallows or Off, with
power-on or brown-out, the pool areas at its start, and the slow ticks since the MGC firmware last serviced its watchdog
(R430). -/
structure Rst where
  cause : BitVec 10
  srcs : List RstSrc
  steps : List RstStep
  engHeld : List Nat
  cold : Bool
  fromSleep : Bool
  fromPower : Bool
  layout : List Area
  wdog : Nat
  deriving DecidableEq, Repr

/-- Trim and options (R436, R437, R440) and the fuse port (R38). committed: a frame has been committed since the last cold
reset. -/
structure Trim where
  state : Nat
  fails : Nat
  cause : Nat
  ign : Bool
  ignIdx : Nat
  nrep : Nat
  fusedMax : BitVec 2
  regTrim : Byte
  limTrim : Byte
  committed : Bool
  droopTrim : Byte
  thLogic : BitVec 16
  thSram : BitVec 16
  repairs : List (Nat × Nat)
  fuseReq : Bool
  reqSince : Nat
  retryAt : Option Nat
  deriving DecidableEq, Repr

/-- Nothing loaded: safe defaults (R437). -/
def Trim.init : Trim := ⟨0, 0, 0, false, 0, 0, 1, 0x80, 0, false, 0x80, 0x8000, 0x8000, [], false, 0, none⟩

/-- The power block and the regulator (R24, R444, R452). state: 0 Run, 1 Idle, 2 Hold, 3 Shallows, 4 Off. vout: regulator
target in 5 mV. slewFrom, slewAt: the output in 0.1 mV when the target last moved, and the ref_clk of that move (R24).
ready: pl_ready. periodUse and sproutUse are the values in force in Shallows (R452), watchAt the ref_clk at which the next watch
window opens (R450). -/
structure Pwr where
  state : Nat
  hwhy : Nat
  wake : Nat
  wcnt : Nat
  level : BitVec 2
  target : BitVec 2
  ready : Bool
  mode : Bool
  vout : Nat
  slewFrom : Nat
  slewAt : Nat
  tarn : Nat
  period : Nat
  periodUse : Nat
  sprout : Word
  sproutUse : Word
  watchAt : Nat
  awaitCommit : Bool
  lostLink : Bool
  brownout : Bool
  retained : Nat
  deriving DecidableEq, Repr

/-- The power block after a cold reset. -/
def Pwr.init : Pwr :=
  ⟨1, 0, 0, 0, 0, 0, false, false, 0x6E, 5500, 0, 0, 0x64, 0x64, 0x2D4B96B3, 0x2D4B96B3, 0, true, false, false, 0⟩

/-- What a BEAT_EDGE or PL_COMMIT of the present clk found, which a rise of pond_halt in the same clk puts back (R23). -/
structure Undo where
  s63 : Word
  issue : Issue
  holdMax : Nat
  cnt : Cnt
  active : Bool
  commit : Bool
  pwr : Pwr
  fresh : List Fresh
  failNow : Bool
  deriving DecidableEq, Repr

/-- The sixteen states of an IEEE 1149.1 controller (R39). -/
inductive TapCtl where
  | reset
  | idle
  | selDr
  | captureDr
  | shiftDr
  | exit1Dr
  | pauseDr
  | exit2Dr
  | updateDr
  | selIr
  | captureIr
  | shiftIr
  | exit1Ir
  | pauseIr
  | exit2Ir
  | updateIr
  deriving DecidableEq, Repr

/-- The outputs that the wrapper encloses (R41): those of the spring and the level handshake, therm_warn, fuse_req, and those of the
GMI in one word, which is 0 between flits (log 6). -/
structure Pads where
  sprRdy : Bool
  coreLate : Bool
  coreFault : Bool
  thermWarn : Bool
  plReady : Bool
  fuseReq : Bool
  plLimit : BitVec 2
  gmi : Nat
  deriving DecidableEq, Repr

/-- Every output at its reset state (01_boundary signal tables). -/
def Pads.reset : Pads := ⟨false, false, false, false, false, false, 1, 0⟩

/-- The TAP and the wrapper (R39 to R41): the controller's state, the shift register, tdo (none: high impedance), the instruction
register, the data register shown, accesses blocked while debug is locked, the debug reset's reset bit; of the wrapper its
instruction 0 WS_BYPASS to 7 WP_INTEST_SCAN, the outputs' cells of the boundary register, what the wrapper drives on the outputs in
place of the core (none: nothing), wso and wpo. -/
structure Tap where
  ctl : TapCtl
  sh : Nat
  tdo : Option Bool
  ir : Byte
  dr : Word
  blocked : Nat
  debugRst : Bool
  wir : Nat
  cells : Pads
  pads : Option Pads
  wso : Bool
  wpo : Word
  deriving DecidableEq, Repr

/-- The TAP after its reset: IDCODE selected, WS_BYPASS (log 14). -/
def Tap.init : Tap := ⟨.reset, 0, none, 0x01, 0, 0, false, 0, Pads.reset, none, false, 0⟩

/-- The pool (R275 to R279): bytes, poison bits by 8-byte word, words with wrong bits (log 9), how many rows patrol has
read of each bank, and corrected words waiting for their write-back. -/
structure Pool where
  mem : List Host.Cell
  poison : List (Nat × Bool)
  upset : List (Nat × Nat)
  patrolRow : List (Nat × Nat)
  writeback : List Nat
  deriving DecidableEq, Repr

/-- An initialised pool: all bytes 0, no poison (R284). -/
def Pool.init : Pool := ⟨[], [], [], [], []⟩

/-- The state of the core. ocUpset and flagUpset list operand-cache words of 8 bytes and flag-memory words of four flags
with wrong bits (R221, R322; log 9), descUpset descriptors (class times 64 plus number, R112), routeUpset entries of the two
physical route tables (copy times 4,096 plus chip, R351), imgUpset words of 8 bytes of the shape-image store (slot times 8,192
plus word, R416), each with the wrong bits of its worst ECC word. started lists the slots whose engine has started an instruction in this clk (R100),
scaleNow what has reached the scale slots in this clk (R87), undo what a rise of pond_halt in this clk puts back (R23). -/
structure State where
  cfg : Cfg
  straps : Straps
  strapPins : Straps
  pins : Pins
  out : Outs
  clock : Clocks
  rcv : Rcv
  issue : Issue
  q : Queues
  live : List Live
  gates : List Gate
  started : List Nat
  mxa : ArrState
  mxb : ArrState
  turn : Turn
  vec : VecState
  ocache : List (Nat × Byte)
  ocUpset : List (Nat × Nat)
  flagUpset : List (Nat × Nat)
  descUpset : List (Nat × Nat)
  routeUpset : List (Nat × Nat)
  imgUpset : List (Nat × Nat)
  rsu : RsuState
  crs : List (Nat × BitVec 64)
  mov : MovState
  syn : SynState
  scl : SclState
  chans : List Chan
  pool : Pool
  sregs : List (Nat × Word)
  s63 : Word
  descs : List (Nat × W8)
  scales : List (Nat × ScaleRec)
  scaleNow : List (Nat × ScaleEv)
  flags : List (Nat × BitVec 16)
  flagOld : List (Nat × BitVec 16)
  fab : FabState
  job : Job
  own : Own
  sb : Sideband
  dbg : Dbg
  img : Img
  cnt : Cnt
  err : Err
  sync : Sync
  ckpt : Ckpt
  st : SelfTest
  rst : Rst
  trim : Trim
  pwr : Pwr
  tap : Tap
  undo : Option Undo
  free : Nat
  pending : List Instr
  deriving DecidableEq, Repr

/-- Reasons a step ends in a fault of the model. -/
inductive Fault where
  /-- Raised by resetStepStart, resetStepComplete and internalResetRelease on an operand that names no release step or no
  reset source of R430, R433: a command that no hardware event spells. Safe: nothing is claimed of it. -/
  | noSuchEvent
  deriving DecidableEq, Repr

/-- Reasons a command is refused. -/
inductive Refusal where
  /-- Raised by Dispatch.lean for a command that has no meaning yet, named by its mnemonic. Safe. -/
  | notModelled (mnemonic : String)
  deriving DecidableEq, Repr

/-- The licence parameters of the model's reset state: Standard, no options, class 1. DESIGN CHOICE (log 4). -/
def Cfg.standard : Cfg := ⟨.standard ⟨false, false, false⟩ 0, 0, 0, 0, 0⟩

/-- Empty queues. -/
def Queues.empty : Queues := ⟨[], [], [], [], [], [], []⟩

/-- The issue point after reset. beatLen is the default beat of 00_scope (log 12). -/
def Issue.init : Issue :=
  { phase := none, mark := false, act := none, stop := .none, service := false, mayEnter := true, holdMark := false,
    resumeAt := none, lastIssue := none, lastEdge := 0, lastDue := none, beatLen := 8192, s63Set := none, lateRun := 0,
    idleRun := 0, issuedNow := false, chain := [], nextId := 0, nextBundle := 0 }

/-- The spring receiver after reset (R144). -/
def Rcv.init : Rcv := ⟨none, [], Half.empty, Half.empty, [], none⟩

/-- The fabric port right after step 7 of a release that granted credits (R28, R433): log 3. -/
def FabState.init : FabState :=
  { txCred0 := 0, txCred1 := 0, rxCred0 := 16, rxCred1 := 16, link := true, outst := [], txq := [], wire := [],
    busy0 := 0, busy1 := 0, routes0 := [], routes1 := [], active := false, commit := false, copying := false, waiting := [],
    routeIdx := 0, recv := [], rxbuf := [], parked := [], adds := [], carries := [], norx := 0, fabDrop := 0, sbStranger := 0,
    ring := List.replicate 16 Digest.init }

/-- The machine right after reset: the clk in which step 9 of the release of a power-on cold reset completes (R433),
before any trim word, image, program or frame has arrived. The point of the release is the model's choice (log 3), and
so are the licence parameters and the straps (log 4, log 5). -/
def State.reset : State where
  cfg := Cfg.standard
  straps := ⟨0, 0, 0, 0⟩
  strapPins := ⟨0, 0, 0, 0⟩
  pins := ⟨true, true, false, false, 0, false⟩
  out := ⟨true, false, false, false⟩
  clock := ⟨0, 0, 0, 0, 0, false, none, none, 0, 0⟩
  rcv := Rcv.init
  issue := Issue.init
  q := Queues.empty
  live := []
  gates := []
  started := []
  mxa := ArrState.init
  mxb := ArrState.init
  turn := Turn.init
  vec := VecState.init
  ocache := []
  ocUpset := []
  flagUpset := []
  descUpset := []
  routeUpset := []
  imgUpset := []
  rsu := RsuState.init
  crs := []
  mov := MovState.init
  syn := SynState.init
  scl := SclState.init
  chans := List.replicate 56 Chan.empty
  pool := Pool.init
  sregs := []
  s63 := 0
  descs := []
  scales := []
  scaleNow := []
  flags := []
  flagOld := []
  fab := FabState.init
  job := Job.init
  own := Own.init
  sb := ⟨[], [], false, []⟩
  dbg := ⟨false, 0, [], List.replicate 8 0, 0⟩
  img := ⟨ImgSlot.empty, ImgSlot.empty, 0, List.replicate 8 0, List.replicate 8 0, Image.null, false, false, false, false⟩
  cnt := Cnt.init
  err := Err.init
  sync := Sync.init
  ckpt := Ckpt.init
  st := SelfTest.init
  rst := { cause := 1, srcs := [], steps := List.replicate 9 ⟨2, 0, 0, 0⟩, engHeld := [], cold := false,
           fromSleep := false, fromPower := false, layout := [], wdog := 0 }
  trim := Trim.init
  pwr := Pwr.init
  tap := Tap.init
  undo := none
  free := 0
  pending := []

end Sys2Proof.Machine
end

