-- ==== Sys2Proof/Machine/Ops.lean ====
section
/-! DEFINITION. The operations that the meanings share: fields of a queue entry, event counters, faults and what they halt,
S registers, descriptors, flags, scale slots, channels, pool areas and pool accesses, starts and completions. -/

namespace Sys2Proof.Machine

/-! ## Words of a descriptor and of a slot word -/

/-- Word n of eight. -/
def W8.get (d : W8) (n : Nat) : Word :=
  match n with
  | 0 => d.w0
  | 1 => d.w1
  | 2 => d.w2
  | 3 => d.w3
  | 4 => d.w4
  | 5 => d.w5
  | 6 => d.w6
  | _ => d.w7

/-- Eight words with word n replaced. -/
def W8.set (d : W8) (n : Nat) (v : Word) : W8 :=
  match n with
  | 0 => { d with w0 := v }
  | 1 => { d with w1 := v }
  | 2 => { d with w2 := v }
  | 3 => { d with w3 := v }
  | 4 => { d with w4 := v }
  | 5 => { d with w5 := v }
  | 6 => { d with w6 := v }
  | _ => { d with w7 := v }

/-- Eight words from a list, missing words 0. -/
def W8.ofList (l : List Word) : W8 :=
  ⟨l.getD 0 0, l.getD 1 0, l.getD 2 0, l.getD 3 0, l.getD 4 0, l.getD 5 0, l.getD 6 0, l.getD 7 0⟩

/-- The eight words as a list. -/
def W8.toList (d : W8) : List Word := [d.w0, d.w1, d.w2, d.w3, d.w4, d.w5, d.w6, d.w7]

/-- Field [hi:lo] of descriptor word n. -/
def W8.fld (d : W8) (n hi lo : Nat) : Nat := wfld (d.get n) hi lo

/-- OP of a slot word (R94). -/
def Entry.op (e : Entry) : Nat := wfld e.w 31 26
/-- CH_A or CH_X (R94). -/
def Entry.chX (e : Entry) : Nat := wfld e.w 25 20
/-- CH_B or CH_Y (R94). -/
def Entry.chY (e : Entry) : Nat := wfld e.w 19 14
/-- CH_OUT (R94). -/
def Entry.chOut (e : Entry) : Nat := wfld e.w 13 8
/-- DESC (R94). -/
def Entry.dn (e : Entry) : Nat := wfld e.w 7 2
/-- ACC, MASK or SEG (R94). -/
def Entry.b1 (e : Entry) : Bool := wbit e.w 1
/-- LAST, CHAIN or CARRY (R94). -/
def Entry.b0 (e : Entry) : Bool := wbit e.w 0
/-- CVT of the copied descriptor (R113). -/
def Entry.cvt (e : Entry) : Bool := wbit e.d.w0 23
/-- The conversion tail's CONV (R114); 0 with CVT = 0. -/
def Entry.conv (e : Entry) : Nat := if e.cvt then e.d.fld 4 2 0 else 0
/-- The conversion tail's FMT_OUT (R114). -/
def Entry.fmtOut (e : Entry) : Nat := e.d.fld 4 23 20
/-- FOLD_EN and FOLD_SLOT (R114). -/
def Entry.foldSlot (e : Entry) : Option Nat :=
  if e.cvt && wbit e.d.w4 31 then some (e.d.fld 4 30 25) else none
/-- The rounding key W5 to W7 (R76, R114). -/
def Entry.srKey (e : Entry) : SrKey :=
  ⟨e.d.w5, BitVec.ofNat 16 (e.d.fld 6 31 16), BitVec.ofNat 16 (e.d.fld 6 15 0), e.d.w7⟩

/-- An entry of zeros, for the places that need a default. -/
def Entry.zero : Entry := ⟨0, 0, W8.zero, W8.zero, 0, 0, 0, 0, 0, [], false, 0, 0, 0, 0, 0⟩

/-! ## Sizes (00_scope Configurations) -/

/-- Bytes of one pool bank (R283). -/
def bankBytes (s : State) : Nat := if s.cfg.wide then 65536 else 32768
/-- Lines of the operand cache (07_vector, Operand cache). -/
def ocLines (s : State) : Nat := if s.cfg.wide then 2048 else 1024
/-- Lane groups of the core (R218). -/
def laneGroups (s : State) : Nat := if s.cfg.vw256 then 32 else 16
/-- Enabled lanes of the image in force (R218). -/
def lanesOn (s : State) : Nat := 8 * popcount 32 s.img.cur.lanes
/-- Rows M and columns N of a logical array's tile (R158). -/
def tileM (s : State) : Nat := if s.cfg.wide && s.img.cur.fuse then 64 else 32
/-- Columns N (R158). -/
def tileN (s : State) : Nat := if s.cfg.wide then 64 else 32

/-! ## Event counters (R424, R425, R428) -/

/-- One counter after n events of a source: the new value and whether it wrapped. -/
def cntStep (src n sel v : Nat) : Nat × Bool :=
  if sel = src then ((v + n) % 2 ^ 48, decide (v + n ≥ 2 ^ 48)) else (v, false)

/-- n events of a source, counted where EN is 1 (R425). -/
def bump (src n : Nat) (s : State) : State :=
  if s.cnt.en && n != 0 then
    let r := List.zipWith (cntStep src n) s.cnt.sel s.cnt.val
    let ovf := (List.range 16).foldl (fun o i => if (r.getD i (0, false)).2 then o ||| (1 <<< i) else o) s.cnt.ovf
    { s with cnt := { s.cnt with val := r.map Prod.fst, ovf := ovf } }
  else s

/-- This clk saw an engine act (R343). -/
def touch (s : State) : State := { s with sync := { s.sync with active := true } }

/-- A fresh free value of w bits. -/
def freshBits (w : Nat) (s : State) : BitVec w × State :=
  (Config.freeValue w s.free, { s with free := s.free + 1 })

/-- A fresh number from lo to hi, both possible. -/
def freshNat (lo hi : Nat) (s : State) : Nat × State :=
  (lo + Config.freeNat s.free % (hi + 1 - lo), { s with free := s.free + 1 })

/-! ## Running, halted, held -/

/-- Release step k is DONE (R434). -/
def stepDone (s : State) (k : Nat) : Bool :=
  match s.rst.steps[k - 1]? with
  | some x => x.st == 2
  | none => false

/-- The job is halted: pond_halt is 1 or the core has latched a fault (R23, R457). -/
def halted (s : State) : Bool := s.pins.pondHalt || s.out.coreFault

/-- The core is awake: not in Shallows or Off (R448). -/
def awake (s : State) : Bool := decide (s.pwr.state < 3)

/-- The engine of a slot may act in this clk: not skipped, not halted, released, awake (R35, R253, R321, R457). -/
def engOk (s : State) (slot : Nat) : Bool :=
  !(s.err.fresh.any fun f => f.halt && f.slot == some slot) &&
  !s.clock.skip && !halted s && stepDone s 9 && awake s && !s.rst.engHeld.contains slot

/-- The fabric port may act in this clk (R385, R433). -/
def portOk (s : State) : Bool := !s.clock.skip && stepDone s 7 && awake s

/-! ## Faults (R456 to R460) -/

/-- What FAULT_INFO and ERR_LOG record of a fault: slot and TAG, replay position, patch entry, details (R459, R460). -/
structure FaultCtx where
  inst : Option (Nat × BitVec 16)
  pos : Option (Bool × Nat × Nat)
  pentry : Option Nat
  arg0 : Word
  arg1 : Word
  deriving DecidableEq, Repr

/-- A fault with no detail. -/
def FaultCtx.none : FaultCtx := ⟨Option.none, Option.none, Option.none, 0, 0⟩

/-- A fault with two details and no instruction. -/
def FaultCtx.args (a b : Nat) : FaultCtx := ⟨Option.none, Option.none, Option.none, word a, word b⟩

/-- A fault of an instruction: slot, TAG and replay position (R103, R149). -/
def FaultCtx.ofEntry (slot : Nat) (e : Entry) (a b : Nat) : FaultCtx :=
  ⟨some (slot, e.tag), some (e.half, e.bundle, e.iter), Option.none, word a, word b⟩

/-- The FAULT_INFO words of a fault (R459). -/
def faultInfo (c : FaultCtx) (beat : Word) (cyc : Nat) : List Word :=
  let i0 := match c.inst with
    | some (sl, tag) => word (0x80000000 + (sl <<< 28) + tag.toNat)
    | Option.none => word 0x70000000
  let i1 := match c.pos with
    | some (h, b, _) =>
      0x80000000 + (b2n h <<< 30) + ((b % 512) <<< 21) +
        (match c.pentry with
          | some p => (1 <<< 20) + ((p % 64) <<< 14)
          | Option.none => 0)
    | Option.none => 0
  let i2 := match c.pos with
    | some (_, _, it) => (it % 65536) <<< 16
    | Option.none => 0
  [i0, word i1, word i2, c.arg0, c.arg1, beat, word cyc]

/-- The ERR_LOG entry at WPTR written, WPTR advanced, OVW counted (R459). -/
def logWrite (f : Fresh) (e : Err) : Err :=
  let old := e.log.getD e.wptr LogEnt.init
  { e with
    log := e.log.set e.wptr ⟨true, f.code, f.tag, f.info.getD 3 0, f.info.getD 4 0, f.info.getD 5 0⟩
    wptr := (e.wptr + 1) % 32
    ovw := if old.v then satCount 16 (e.ovw + 1) else e.ovw }

/-- ERR_FIRST and FAULT_INFO latched, or MORE counted (R457, R458). -/
def latchFirst (f : Fresh) (e : Err) : Err :=
  if e.v then { e with more := satCount 8 (e.more + 1) } else { e with v := true, more := 0, code := f.code, info := f.info }

/-- core_late falls: BEAT_LATE takes the beat and the run (R338). -/
def lowerLate (s : State) : State :=
  if s.out.coreLate then
    { s with
      out := { s.out with coreLate := false }
      issue := { s.issue with lateRun := 0 }
      sync := { s.sync with lateBeats := satCount 16 (s.sync.lateBeats + 1)
                            lateMax := max s.sync.lateMax (satCount 16 s.issue.lateRun) } }
  else s

/-- An array after a halt (R188): accumulators, shadow and corner turn discarded, the level ramps down. -/
def ArrState.halt (a : ArrState) : ArrState :=
  { a with run := none, acc := [], isOpen := false, swap := none, shadow := none, corner := [], armed := false,
           target := 0 }

/-- Packets of abandoned instructions leave the transmit queue; replies stay. -/
def dropInstrPackets (q : List TxPkt) : List TxPkt := q.filter fun p => p.req.isNone && p.liveId.isNone

/-- The stop in progress after a halt: a checkpoint copy is abandoned (R474). -/
def Stop.halt : Stop → Stop
  | .ckptWait _ _ _ => .none
  | .ckptReady _ _ _ _ => .none
  | .ckptCopy _ _ _ _ => .none
  | .ckptDone _ _ _ _ => .none
  | x => x

/-- The self-test block after a stop that did not commit: its test waits for the next one (R486). -/
def SelfTest.unstop (t : SelfTest) : SelfTest := { t with queued := t.stopTest.orElse fun _ => t.queued, stopTest := none }

/-- A fork channel whose consumers have abandoned the lines they popped. -/
def Chan.dropHolds (x : Chan) : Chan := { x with hold0 := [], hold1 := [] }

/-- What pond_halt and a halting fault stop (R188, R200, R253, R273, R321, R346, R385, R474, R489). -/
def haltEngines (s : State) : State :=
  { s with
    mxa := s.mxa.halt
    mxb := s.mxb.halt
    turn := Turn.init
    vec := VecState.init
    rsu := RsuState.init
    mov := MovState.init
    syn := { SynState.init with lastDone := s.syn.lastDone }
    scl := SclState.init
    q := { s.q with scl := [] }
    chans := s.chans.map Chan.dropHolds
    live := []
    gates := []
    issue := { s.issue with stop := s.issue.stop.halt }
    fab := { s.fab with txq := dropInstrPackets s.fab.txq }
    st := s.st.unstop
    ckpt := { s.ckpt with copy := none
                          state := if s.ckpt.copy.isSome then (if s.ckpt.arm then 2 else 0) else s.ckpt.state } }

/-- An error joins those of the present clk (R457, R458); one detected twice in a clk is one error (log 31). -/
def noteError (halt : Bool) (code : Byte) (c : FaultCtx) (s : State) : State :=
  let f : Fresh := ⟨code, halt, c.inst.map (·.1), (c.inst.map (·.2)).getD 0, faultInfo c s.s63 s.cnt.cyc⟩
  if s.err.fresh.contains f then s else { s with err := { s.err with fresh := s.err.fresh ++ [f] } }

/-- A halting fault is detected (R457). The end of the clk records it and halts the core. -/
def raise (code : Byte) (c : FaultCtx) (s : State) : State := noteError true code c s

/-- A log-kind error is detected (R458). -/
def logError (code : Byte) (c : FaultCtx) (s : State) : State := noteError false code c s

/-- The core has faulted, or detects a halting fault in this clk. -/
def faulting (s : State) : Bool := s.out.coreFault || s.err.fresh.any (·.halt)

/-- An error in its place in ascending code order (R457). -/
def insertFresh (f : Fresh) : List Fresh → List Fresh
  | [] => [f]
  | g :: t => if f.code < g.code then f :: g :: t else g :: insertFresh f t

/-- The errors of a clk recorded in ascending code order (R457). -/
def recordErrors (s : State) : State :=
  let fs := s.err.fresh.foldl (fun l f => insertFresh f l) []
  { s with err := { (fs.foldl (fun e f => logWrite f (latchFirst f e)) s.err) with fresh := [] } }

/-- The end of a clk that detected errors (R457): first error, log entries; where one halts, ALERT is queued, core_fault is 1
and core_late 0 from the next clk, and the engines stop. -/
def settle (s : State) : State :=
  if s.err.fresh.isEmpty then s
  else if s.err.fresh.any (·.halt) then
    let t := lowerLate (recordErrors s)
    haltEngines { t with out := { t.out with coreFault := true }, err := { t.err with alert := true } }
  else recordErrors s

/-- ARG0 of a fault raised for an instruction: DCLS and DESC (R460). -/
def instArg (cls : Nat) (e : Entry) : Nat := (cls <<< 6) + e.dn

/-- Descriptor class of a slot (R112): MXA and MXB draw on MX. -/
def slotClass (slot : Nat) : Nat :=
  match slot with
  | 0 => 1
  | 1 => 1
  | 2 => 2
  | 3 => 3
  | 4 => 4
  | 5 => 5
  | _ => 6

/-- A fault raised for an instruction with the ARG0 of R460. -/
def raiseInst (code : Byte) (slot : Nat) (e : Entry) (s : State) : State :=
  raise code (FaultCtx.ofEntry slot e (instArg (slotClass slot) e) 0) s

/-- DESC_BOUND at an engine's start check. -/
def descBound (slot : Nat) (e : Entry) (s : State) : State := raiseInst 0x07 slot e s

/-! ## S registers, descriptors, flags, scale slots -/

/-- The value of S register n (R118): S0 is 0, S60 to S62 the straps and the rank, S63 the beat number. -/
def sreg (s : State) (n : Nat) : Word :=
  if n = 0 then 0
  else if n = 60 then s.straps.slot.zeroExtend 32
  else if n = 61 then s.straps.chip.zeroExtend 32
  else if n = 62 then s.job.rank.zeroExtend 32
  else if n = 63 then s.s63
  else mget 0 s.sregs n

/-- A write of S register n (R118): S0 discards it, S60 to S63 cannot be named. -/
def setSreg (n : Nat) (v : Word) (s : State) : State :=
  if 1 ≤ n ∧ n ≤ 59 then { s with sregs := mset 0 s.sregs n v } else s

/-- Descriptor n of class cls, 1 to 6 (R112). -/
def descGet (s : State) (cls n : Nat) : W8 := mget W8.zero s.descs (cls * 64 + n)

/-- A descriptor written whole, its check bits with it (R117). -/
def descSet (cls n : Nat) (d : W8) (s : State) : State :=
  { s with descs := mset W8.zero s.descs (cls * 64 + n) d, descUpset := mset 0 s.descUpset (cls * 64 + n) 0 }

/-- The value of a flag (R322). -/
def flagGet (s : State) (f : Nat) : BitVec 16 := mget 0 s.flags f

/-- The value a flag held at the start of this clk (R324). -/
def flagStart (s : State) (f : Nat) : BitVec 16 :=
  match s.flagOld.lookup f with
  | some v => v
  | none => flagGet s f

/-- A flag set to v; its value at the start of the clk is kept for waits (R324). Its ECC word is written whole (R322). -/
def setFlag (f : Nat) (v : BitVec 16) (s : State) : State :=
  touch { s with
    flags := mset 0 s.flags f v
    flagOld := s.flagOld ++ [(f, flagGet s f)]
    flagUpset := mset 0 s.flagUpset (f / 4) 0 }

/-- An exact signed add to a flag (R323): outside 0 to 65,535 the flag keeps its value and the core faults with
FLAG_RANGE. src is the source chip and core for FAULT_INFO. -/
def addFlag (f : Nat) (x : Int) (inst : Option (Nat × Entry)) (src : Nat) (s : State) : State :=
  let v : Int := (flagGet s f).toNat
  let r := v + x
  if 0 ≤ r ∧ r ≤ 65535 then setFlag f (BitVec.ofNat 16 r.toNat) s
  else
    let a := (f <<< 16) + (flagGet s f).toNat
    let ctx := match inst with
      | some (sl, e) => FaultCtx.ofEntry sl e a src
      | none => FaultCtx.args a src
    raise 0x83 ctx s

/-- A fabric add that takes effect at the end of the clk (R324). -/
def addLater (f : Nat) (x : Int) (inst : Option (Nat × Entry)) (src : Nat) (remote : Bool) (s : State) : State :=
  touch { s with fab := { s.fab with adds := s.fab.adds ++ [⟨f, x, inst, src, remote, 0⟩] } }

/-- A chip and core number as R460 packs them: [31:20] chip, [19:8] core. -/
def chipCore (chip core : Nat) : Nat := (chip <<< 20) + (core <<< 8)

/-- The core's own ids, packed. -/
def ownIds (s : State) : Nat := chipCore s.straps.chip.toNat s.straps.core.toNat

/-- Scale slot n as the clk began (R83). -/
def scaleBase (s : State) (n : Nat) : ScaleRec := mget ScaleRec.init s.scales n

/-- Scale slot n written. -/
def scaleSet (n : Nat) (r : ScaleRec) (s : State) : State := { s with scales := mset ScaleRec.init s.scales n r }

/-- One value taken into the largest finite magnitude and the non-finite flag of a fold (R84). -/
def foldOne (r : Word × Bool) (v : FVal) : Word × Bool :=
  let w := rneF32v v
  if w.nonfinite then (r.1, true) else if (f32 r.1).lt w.abs then (rneF32 w.abs, r.2) else r

/-- Event ev reaches scale slot n in this clk (R87). -/
def scaleEvent (n : Nat) (ev : ScaleEv) (s : State) : State := { s with scaleNow := s.scaleNow ++ [(n, ev)] }

/-- Values folded into slot n (R84). -/
def foldInto (n : Nat) (vs : List FVal) (s : State) : State :=
  if vs.isEmpty then s
  else
    let r := vs.foldl foldOne (0, false)
    scaleEvent n (.fold r.1 r.2) s

/-- Values folded into the slots that their entries name, those of one slot together. -/
def foldAll (l : List (Nat × FVal)) (s : State) : State :=
  ((l.map (·.1)).eraseDups).foldl (fun t n => foldInto n ((l.filter fun p => p.1 == n).map (·.2)) t) s

/-- fmt_max of R85. -/
def fmtMax (c : Nat) : FVal :=
  match fpOf c with
  | some f => f.decode f.maxCode
  | none => FVal.ofNat (if c = 9 then 127 else 7)

/-- The largest s with h × 2^s ≤ fmt_max, for positive finite h (R85). -/
def commitExp (h m : FVal) : Int :=
  match h, m with
  | .fin _ a d e, .fin _ b k f =>
    let s := floorLog2 (b * d) (k * a) (f - e)
    s
  | _, _ => 0

/-- The commit of a scale slot (R85). -/
def ScaleRec.commit (r : ScaleRec) : ScaleRec :=
  let hist := r.hist.set r.hptr r.curAmax
  let hptr := (r.hptr + 1) % 16
  let hcount := min 16 (r.hcount + 1)
  let recent := (List.range hcount).map fun i => f32 (hist.getD ((hptr + 15 - i) % 16) 0)
  let h := if r.policy then f32 r.curAmax else recent.foldl (fun a b => if a.lt b then b else a) (FVal.zero false)
  let ex := if h.isZero then r.scaleExp
    else max (-127) (min 127 (commitExp h (fmtMax r.fmt) - (r.margin : Int)))
  { r with hist := hist, hptr := hptr, hcount := hcount, scaleExp := ex, curAmax := 0, nf := false }

/-- What an event makes of a slot's record (R84, R85, R88, R126). -/
def ScaleRec.apply (r : ScaleRec) : ScaleEv → ScaleRec
  | .replace v => { r with curAmax := v }
  | .fold amax nf => { r with curAmax := if (f32 r.curAmax).lt (f32 amax) then amax else r.curAmax, nf := r.nf || nf }
  | .cfg sel v =>
    match sel with
    | 0 => { r with margin := wfld v 16 13, fmt := wfld v 12 9, policy := wbit v 8, hcount := 0, hptr := 0 }
    | 1 => { r with scaleExp := sext 8 (wfld v 7 0) }
    | _ => { r with curAmax := v }
  | .commit => r.commit

/-- The place of an event in its clk (R87): replacements, folds, tracker operations. -/
def ScaleEv.place : ScaleEv → Nat
  | .replace _ => 0
  | .fold _ _ => 1
  | .cfg _ _ => 2
  | .commit => 2

/-- A record after the events of one clk, in the order of R87. -/
def ScaleRec.applyAll (r : ScaleRec) (evs : List ScaleEv) : ScaleRec :=
  [0, 1, 2].foldl (fun r k => (evs.filter fun e => e.place == k).foldl ScaleRec.apply r) r

/-- Events of slot n in this clk, in the order of their coming. -/
def scaleEvs (s : State) (n : Nat) : List ScaleEv := (s.scaleNow.filter fun p => p.1 == n).map (·.2)

/-- Scale slot n with what has reached it in this clk (R83, R87). -/
def scaleGet (s : State) (n : Nat) : ScaleRec := (scaleBase s n).applyAll (scaleEvs s n)

/-- The clk's events written to their slots, each slot once. -/
def landScales (s : State) : State :=
  if s.scaleNow.isEmpty then s
  else
    let t := ((s.scaleNow.map (·.1)).eraseDups).foldl (fun u n => scaleSet n (scaleGet s n) u) s
    { t with scaleNow := [] }

/-- Word w of a scale record, 0 to 17 (R83). -/
def ScaleRec.word (r : ScaleRec) (w : Nat) : Word :=
  if w < 16 then r.hist.getD w 0
  else if w = 16 then r.curAmax
  else Sys2Proof.word ((b2n r.nf <<< 31) + (r.hcount <<< 21) + (r.hptr <<< 17) + (r.margin <<< 13) + (r.fmt <<< 9) +
    (b2n r.policy <<< 8) + toCode 8 r.scaleExp)

/-- A scale record from its 18 words (R83), for a restore. -/
def ScaleRec.ofWords (ws : List Word) : ScaleRec :=
  let w := (ws.getD 17 0)
  { hist := (List.range 16).map fun i => ws.getD i 0
    curAmax := ws.getD 16 0
    nf := wbit w 31
    hcount := wfld w 25 21
    hptr := wfld w 20 17
    margin := wfld w 16 13
    fmt := wfld w 12 9
    policy := wbit w 8
    scaleExp := sext 8 (wfld w 7 0) }

/-! ## Image in force -/

/-- Channel table entry of CHc in the image in force (R104). -/
def chEnt (s : State) (c : Nat) : ChanEntry := s.img.cur.chans.getD c ChanEntry.unused

/-- Format code c is enabled (R414). -/
def fmtOn (s : State) (c : Nat) : Bool := decide (c < 12) && s.img.cur.formats.testBit c

/-- Power domain d is on in the image in force (R453). -/
def pdOn (s : State) (d : Nat) : Bool := s.img.cur.power.testBit d

/-- Area x of the image in force. -/
def areaOf (s : State) (x : Nat) : Area := s.img.cur.areas.getD x ⟨0, 0, false⟩

/-- First and last-plus-one address of area x (R283). -/
def areaRange (s : State) (x : Nat) : Nat × Nat :=
  let a := areaOf s x
  (a.first * bankBytes s, (a.first + a.nb) * bankBytes s)

/-- Bytes lo to hi lie in area x. -/
def inArea (s : State) (x lo hi : Nat) : Bool :=
  let r := areaRange s x
  decide (r.1 ≤ lo) && decide (hi < r.2) && decide (lo ≤ hi)

/-- Bytes lo to hi lie in one area of the image in force (R357). -/
def inAnyArea (s : State) (lo hi : Nat) : Bool := (List.range 5).any fun x => inArea s x lo hi

/-- L of R461 for the image in force. -/
def ckptLen (s : State) : Nat := 256 + 32512 + (areaOf s 3).nb * bankBytes s + (areaOf s 4).nb * bankBytes s

/-- Bytes lo to hi touch the checkpoint area while ARM or RCV is 1 (R461). -/
def hitsCkpt (s : State) (lo hi : Nat) : Bool :=
  (s.ckpt.arm || s.ckpt.rcv) && decide (s.ckpt.area.toNat ≤ hi) &&
    decide (lo < s.ckpt.area.toNat + 2 * ckptLen s)

/-- Bytes lo to hi are reachable by an engine descriptor that names area x (R283, R461). -/
def engArea (s : State) (x lo hi : Nat) : Bool := inArea s x lo hi && !hitsCkpt s lo hi

/-! ## Channels (R104 to R110) -/

/-- Lines or entries a channel holds room for. -/
def chDepth (s : State) (c : Nat) : Nat := (chEnt s c).depth + 1

/-- Channel c. -/
def chan (s : State) (c : Nat) : Chan := s.chans.getD c Chan.empty

/-- Channel c replaced. -/
def setChan (c : Nat) (x : Chan) (s : State) : State := { s with chans := s.chans.set c x }

/-- Lines that one channel end moves in a clk at most (R109). -/
def endLimit (s : State) : Nat := if s.cfg.vw256 then 16 else 8

/-- Lines that the channel buffer takes, and lines that it gives, in a clk at most (R109). -/
def bufLimit (s : State) : Nat := if s.cfg.vw256 then 64 else 32

/-- Lines popped from a channel in this clk. -/
def popsNow (s : State) (x : Chan) : Nat := if x.stamp = s.clock.clk then x.pops else 0

/-- Lines pushed on a channel in this clk. -/
def pushesNow (s : State) (x : Chan) : Nat := if x.stamp = s.clock.clk then x.pushes else 0

/-- Lines for which channel c has room. -/
def chFree (s : State) (c : Nat) : Nat := chDepth s c - (chan s c).lines.length

/-- Lines that can still be pushed on channel c in this clk (R109). -/
def chRoom (s : State) (c : Nat) : Nat :=
  min (chFree s c) (min (endLimit s - pushesNow s (chan s c)) (bufLimit s - s.clock.pushes))

/-- Channel c forks (R108). -/
def isFork (s : State) (c : Nat) : Bool := (chEnt s c).cons1 != 15

/-- Endpoint ep is the second consumer of channel c. -/
def isSecond (s : State) (c ep : Nat) : Bool := (chEnt s c).cons0 != ep && (chEnt s c).cons1 == ep

/-- Lines of channel c that can be popped from this clk on: pushed two clk ago or earlier (R109). -/
def chRipe (s : State) (c : Nat) : Nat :=
  ((chan s c).lines.takeWhile fun l => decide (l.clk + 2 ≤ s.clock.clk)).length

/-- Lines that the totals of R109 let leave channel c in this clk. -/
def popBudget (s : State) (c : Nat) : Nat := min (endLimit s - popsNow s (chan s c)) (bufLimit s - s.clock.pops)

/-- The lines of a fork channel that endpoint ep has popped and not used. -/
def chHold (s : State) (c ep : Nat) : List Line := if isSecond s c ep then (chan s c).hold1 else (chan s c).hold0

/-- Lines that consumer endpoint ep can take from channel c in this clk: of a fork, those that both consumers have popped
(R108, R109). -/
def chAvail (s : State) (c ep : Nat) : Nat :=
  if isFork s c then (chHold s c ep).length else min (chRipe s c) (popBudget s c)

/-- n lines leave channel c in this clk. -/
def chLeave (c n : Nat) (s : State) : State :=
  let x := chan s c
  let t := setChan c { x with lines := x.lines.drop n, stamp := s.clock.clk, pops := popsNow s x + n, pushes := pushesNow s x } s
  touch { t with clock := { t.clock with pops := t.clock.pops + n } }

/-- Consumer endpoint ep takes n lines of channel c: of a fork, lines it holds. -/
def chPop (c ep n : Nat) (s : State) : State :=
  let x := chan s c
  if !isFork s c then chLeave c n s
  else if isSecond s c ep then touch (setChan c { x with hold1 := x.hold1.drop n } s)
  else touch (setChan c { x with hold0 := x.hold0.drop n } s)

/-- Both consumers of fork channel c pop its next n lines (R108). -/
def forkPop (c n : Nat) (s : State) : State :=
  let x := chan s c
  let t := chLeave c n s
  let y := chan t c
  setChan c { y with hold0 := y.hold0 ++ x.lines.take n, hold1 := y.hold1 ++ x.lines.take n } t

/-- The data of the next n lines that consumer endpoint ep would take. -/
def chPeek (s : State) (c ep n : Nat) : List Line :=
  if isFork s c then (chHold s c ep).take n else (chan s c).lines.take n

/-- n lines taken by ep from c, if they can be popped in this clk. -/
def chTake (c ep n : Nat) (s : State) : Option (List Line × State) :=
  if n = 0 then some ([], s)
  else if chAvail s c ep ≥ n then some (chPeek s c ep n, chPop c ep n s) else none

/-- Lines pushed on channel c in this clk. -/
def chPush (c : Nat) (ls : List (Nat × Bool × Bool)) (s : State) : State :=
  if ls.isEmpty then s
  else
    let x := chan s c
    let y := { x with
      lines := x.lines ++ ls.map fun l => ⟨l.1, l.2.1, l.2.2, s.clock.clk⟩
      stamp := s.clock.clk
      pops := popsNow s x
      pushes := pushesNow s x + ls.length }
    let t := setChan c y s
    touch { t with clock := { t.clock with pushes := t.clock.pushes + ls.length } }

/-- Data lines with END and NF 0 (R172). -/
def plainLines (ds : List Nat) : List (Nat × Bool × Bool) := ds.map fun d => (d, false, false)

/-- Full lines of a bit string, and the rest. -/
def fullLines : Nat → BitBuf → List Nat × BitBuf
  | 0, b => ([], b)
  | n + 1, b =>
    if b.len ≥ 512 then
      let r := fullLines n (b.drop 512)
      (b.take 512 :: r.1, r.2)
    else ([], b)

/-- All lines of a bit string, the last one padded with zeros. -/
def allLines (b : BitBuf) : List Nat :=
  (List.range (ceilDiv b.len 512)).map fun i => (b.val >>> (512 * i)) % 2 ^ 512

/-! ## The pool (R275 to R284) -/

/-- What a word with four or more wrong bits reads as, by a free value (R276, log 9): 0 well, 1 uncorrectable, 2 as another
valid word. -/
def eccWild (s : State) (w : Nat) : Nat := (Config.freeValue 2 (s.free + w)).toNat % 3

/-- What a read of an ECC word finds, its poison bit aside (R276): 0 no error, 1 correctable, 2 uncorrectable, 3 another valid
word. -/
def eccFinds (s : State) (w : Nat) : Nat :=
  let u := mget 0 s.pool.upset w
  if u = 0 then 0 else if u ≤ 2 then 1 else if u = 3 then 2
  else if eccWild s w = 0 then 0 else if eccWild s w = 1 then 2 else 3

/-- 0: the ECC word reads well, 1: it is corrected, 2: it is uncorrectable or poisoned (R277), 3: it is taken for another word
(R276). -/
def eccState (s : State) (w : Nat) : Nat := if mget false s.pool.poison w then 2 else eccFinds s w

/-- A word taken for another valid word (R276): from here on it is that word, a free value, with a correctable error. -/
def eccReplace (w : Nat) (s : State) : State :=
  let v := Config.freeValue 65 (s.free + w)
  { s with pool := { s.pool with
      mem := writeBytes s.pool.mem (8 * w) (leBytes 8 (v.toNat % 2 ^ 64))
      poison := mset false s.pool.poison w (decide (v.toNat ≥ 2 ^ 64))
      upset := mset 0 s.pool.upset w 1 } }

/-- The replacement, where the read finds another word. -/
def eccMistake (w : Nat) (s : State) : State := if eccFinds s w = 3 then eccReplace w s else s

/-- The words about to be read, those taken for others so replaced. -/
def eccMistakes (ws : List Nat) (s : State) : State :=
  if s.pool.upset.isEmpty then s else ws.foldl (fun u w => eccMistake w u) s

/-- The ECC words that bytes a to a + n − 1 touch. -/
def eccWords (a n : Nat) : List Nat := if n = 0 then [] else (List.range ((a + n - 1) / 8 + 1 - a / 8)).map (· + a / 8)

/-- The counts of a read that found c of word w: a corrected word waits for its write-back unless it has been written since
(R277). -/
def eccCount (c w : Nat) (s : State) : State :=
  if c = 1 then
    bump 0x029 1 { s with
      err := { s.err with poolCe := satCount 16 (s.err.poolCe + 1) }
      pool := { s.pool with writeback := if mget 0 s.pool.upset w = 0 then s.pool.writeback else s.pool.writeback ++ [w] } }
  else if c = 2 then { s with err := { s.err with poolUe := satCount 16 (s.err.poolUe + 1) } }
  else s

/-- A read of one ECC word: corrections and uncorrectable words are counted, a corrected word waits for its write-back. -/
def eccTouch (w : Nat) (s : State) : State := eccCount (eccState s w) w s

/-- What a read of a SEC-DED word with n wrong bits finds (R221, R322, R416; log 9): 0 nothing, 1 a corrected error, 2 an
uncorrectable one; with three or more, by a free value. -/
def secDed (s : State) (key n : Nat) : Nat :=
  if n ≤ 2 then n else (Config.freeValue 2 (s.free + key)).toNat % 3

/-- Bank of an address of area x (R283). -/
def bankOf (s : State) (x a : Nat) : Nat :=
  let ar := areaOf s x
  let w := (a - ar.first * bankBytes s) / 32
  ar.first + (w + w / (max ar.nb 1)) % (max ar.nb 1)

/-- Bank and row of an address (R283): none outside every area. -/
def locate (s : State) (a : Nat) : Option (Nat × Nat) :=
  ((List.range 5).find? fun x => inArea s x a a).map fun x =>
    (bankOf s x a, ((a - (areaOf s x).first * bankBytes s) / 32) / (max (areaOf s x).nb 1))

/-- An access of row address a is counted for its bank (R428 source 0x0C0 + b). -/
def bumpBank (a : Nat) (s : State) : State :=
  match locate s a with
  | some (b, _) => bump (0x0C0 + b) 1 s
  | none => s

/-- The accesses of the rows that bytes a to a + n − 1 touch are counted, one for each row. -/
def bumpRows (a n : Nat) (s : State) : State :=
  if n = 0 || !s.cnt.en then s
  else (List.range ((a + n - 1) / 32 + 1 - a / 32)).foldl (fun u i => bumpBank (32 * (a / 32 + i)) u) s

/-- Bytes read by a client (R277): the state after the ECC counts, the bytes, and the byte address of the first ECC word
that was uncorrectable or poisoned. -/
def poolRead (a n : Nat) (s : State) : State × List Byte × Option Nat :=
  let ws := eccWords a n
  let s := eccMistakes ws s
  let bad := ws.find? fun w => eccState s w == 2
  let t := ws.foldl (fun u w => eccTouch w u) s
  (touch (bumpRows a n t), readBytes s.pool.mem a n, bad.map (· * 8))

/-- Words of bytes a to a + n − 1 that hold wrong bits or poison. -/
def flawedIn (s : State) (a n : Nat) : List Nat :=
  ((s.pool.upset.map (·.1) ++ s.pool.poison.map (·.1)).filter fun w => decide (a / 8 ≤ w) && decide (8 * w < a + n)).eraseDups

/-- A long read of bytes a to a + n − 1 (R277): its counts, and the address of the first word that was bad. -/
def touchRange (a n : Nat) (s : State) : State × Option Nat :=
  let ws := flawedIn s a n
  let s := eccMistakes ws s
  let bad := (ws.filter fun w => eccState s w == 2).foldl (fun (m : Option Nat) w => some (match m with | some x => min x w | none => w)) none
  (bumpRows a n (ws.foldl (fun u w => eccTouch w u) s), bad.map (8 * ·))

/-- The part of a write that falls in one ECC word (R278): whole words take the new poison, partial words are merged, and
a partial write of an uncorrectable or poisoned word is dropped. -/
def poolWriteWord (poison : Bool) (a : Nat) (bs : List Byte) (w : Nat) (s : State) : State × Option Nat :=
  let lo := max a (8 * w)
  let hi := min (a + bs.length) (8 * w + 8)
  let part := (bs.drop (lo - a)).take (hi - lo)
  let whole := decide (hi - lo = 8)
  let s := if whole then s else eccTouch w (eccMistakes [w] s)
  if !whole && eccState s w == 2 then (s, some (8 * w))
  else
    ({ s with pool := { s.pool with
        mem := writeBytes s.pool.mem lo part
        poison := mset false s.pool.poison w poison
        upset := mset 0 s.pool.upset w 0
        writeback := s.pool.writeback.filter (· != w) } }, none)

/-- Bytes written by a client (R278): the state and the first ECC word that could not be written. -/
def poolWrite (poison : Bool) (a : Nat) (bs : List Byte) (s : State) : State × Option Nat :=
  let r := (eccWords a bs.length).foldl
    (fun (acc : State × Option Nat) w =>
      let (t, b) := poolWriteWord poison a bs w acc.1
      (t, acc.2.orElse fun _ => b)) (s, none)
  (touch (bumpRows a bs.length r.1), r.2)

/-- POOL_UE for a client endpoint (R460). -/
def poolUe (slot : Nat) (e : Entry) (addr ep : Nat) (s : State) : State :=
  raise 0x40 (FaultCtx.ofEntry slot e addr ep) s

/-! ## Queues, starts and completions -/

/-- The queue of a slot. -/
def getQ (s : State) (slot : Nat) : List Entry :=
  match slot with
  | 0 => s.q.mxa
  | 1 => s.q.mxb
  | 2 => s.q.vec
  | 3 => s.q.rsu
  | 4 => s.q.mov
  | 5 => s.q.syn
  | _ => s.q.scl

/-- The queue of a slot replaced. -/
def setQ (slot : Nat) (l : List Entry) (s : State) : State :=
  match slot with
  | 0 => { s with q := { s.q with mxa := l } }
  | 1 => { s with q := { s.q with mxb := l } }
  | 2 => { s with q := { s.q with vec := l } }
  | 3 => { s with q := { s.q with rsu := l } }
  | 4 => { s with q := { s.q with mov := l } }
  | 5 => { s with q := { s.q with syn := l } }
  | _ => { s with q := { s.q with scl := l } }

/-- A SYN instruction of an earlier bundle holds this slot (R328). -/
def gated (s : State) (slot : Nat) (e : Entry) : Bool :=
  s.gates.any fun g => g.slots.contains slot && decide (g.bseq < e.bseq)

/-- The head of a slot's queue, if it may start in this clk with opcode op (R100, R328): later than its issue, not gated. -/
def headFor (s : State) (slot op : Nat) : Option Entry :=
  match getQ s slot with
  | e :: _ => if engOk s slot && !s.started.contains slot && e.op == op && decide (e.clk < s.clock.clk) && !gated s slot e then some e else none
  | [] => none

/-- The head of a slot's queue leaves it: its instruction has started (R100). -/
def dequeue (slot : Nat) (s : State) : State :=
  let t := bump (0x010 + slot) 1 (setQ slot (getQ s slot).tail s)
  { t with started := t.started ++ [slot] }

/-- Instruction id of a slot completes in this clk (R330). -/
def complete (id : Nat) (s : State) : State :=
  { s with live := s.live.map fun l => if l.id == id then { l with done := true } else l }

/-- Several instructions complete. -/
def completeAll (ids : List Nat) (s : State) : State := ids.foldl (fun t i => complete i t) s

/-- No instruction issued and not completed, no queue entry (R447): engines idle. -/
def enginesIdle (s : State) : Bool :=
  s.live.all (·.done) && s.q.mxa.isEmpty && s.q.mxb.isEmpty && s.q.vec.isEmpty && s.q.rsu.isEmpty &&
    s.q.mov.isEmpty && s.q.syn.isEmpty && s.q.scl.isEmpty

/-- Every engine queue is empty. -/
def queuesEmpty (s : State) : Bool :=
  s.q.mxa.isEmpty && s.q.mxb.isEmpty && s.q.vec.isEmpty && s.q.rsu.isEmpty && s.q.mov.isEmpty && s.q.syn.isEmpty &&
    s.q.scl.isEmpty

/-- The lowest channel or link queue, 56 on, that holds a line (R421, R468). -/
def firstBusyChan (s : State) : Option Nat :=
  match (List.range 56).find? fun c => !(chan s c).lines.isEmpty with
  | some c => some c
  | none => ((List.range 8).find? fun l => !(s.vec.links.getD l []).isEmpty).map (56 + ·)

end Sys2Proof.Machine
end

