-- ==== Sys2Proof/Machine/Bundle.lean ====
section
/-! DEFINITION. Bundle and patch-entry encodings and the checks the receiver makes as it writes them into the replay
buffer (03_program R91 to R96, R121, R127 to R131, 04_loading R135, R145, 06_backward R193). -/

namespace Sys2Proof.Machine

/-! ## Opcodes (R96, R182, R205, R228, R259, R319, R363, R327, R122) -/

/-- An array opcode is allocated and its unit present. -/
def mxOpOk (c : Cfg) (slot op : Nat) : Bool :=
  op == 1 || op == 2 || (decide (0x08 ≤ op) && decide (op ≤ 0x0C) && c.cmpc) ||
    (slot == 0 && (op == 0x10 || op == 0x12)) || (slot == 1 && (op == 0x11 || op == 0x13)) ||
    (decide (0x18 ≤ op) && decide (op ≤ 0x1B))

/-- A VEC opcode is allocated. -/
def vecOpOk (op : Nat) : Bool :=
  (decide (1 ≤ op) && decide (op ≤ 0x15)) || (decide (0x18 ≤ op) && decide (op ≤ 0x20)) ||
    (decide (0x28 ≤ op) && decide (op ≤ 0x2B)) || (decide (0x30 ≤ op) && decide (op ≤ 0x38))

/-- An RSU opcode is allocated. -/
def rsuOpOk (op : Nat) : Bool :=
  (decide (1 ≤ op) && decide (op ≤ 6)) || op == 8 || op == 9 || (decide (0x10 ≤ op) && decide (op ≤ 0x12)) ||
    (decide (0x18 ≤ op) && decide (op ≤ 0x1C)) || (decide (0x28 ≤ op) && decide (op ≤ 0x2C))

/-- A MOV opcode is allocated and its unit present. -/
def movOpOk (c : Cfg) (op : Nat) : Bool :=
  (decide (1 ≤ op) && decide (op ≤ 5)) || op == 0x10 || op == 0x12 || op == 0x14 ||
    (c.tb1 && (op == 0x11 || op == 0x13 || op == 0x15)) || (decide (0x18 ≤ op) && decide (op ≤ 0x1A)) ||
    (c.acmp && (op == 0x20 || op == 0x21)) || (decide (0x28 ≤ op) && decide (op ≤ 0x2D))

/-- A SYN opcode is allocated. -/
def synOpOk (op : Nat) : Bool :=
  (decide (1 ≤ op) && decide (op ≤ 6)) || (decide (0x10 ≤ op) && decide (op ≤ 0x12)) || op == 0x18

/-- The form of an SCL opcode (R122): 1 REG, 2 IMM, 3 UPPER, 4 DESC, 5 CHAN, 6 TRK; 0 for a reserved opcode. -/
def sclForm (op : Nat) : Nat :=
  if (1 ≤ op ∧ op ≤ 0x0F) ∨ op = 0x17 ∨ op = 0x1A ∨ op = 0x1B then 1
  else if (0x10 ≤ op ∧ op ≤ 0x16) ∨ op = 0x38 then 2
  else if op = 0x18 ∨ op = 0x19 then 3
  else if op = 0x20 ∨ op = 0x21 then 4
  else if op = 0x28 ∨ op = 0x29 then 5
  else if op = 0x30 ∨ op = 0x31 ∨ op = 0x32 then 6
  else 0

/-! ## Slot words -/

/-- An array slot word uses only its opcode's fields (R95, R166, R182, R205). With LAST = 0 CH_OUT is unused and must be 0, as
R166 and R182 state; the worked example of 03_program names CH12 in such a word (0x04414C0E), which the numbered rules make an
illegal encoding. DEDUCED (log 82). -/
def mxWordOk (c : Cfg) (slot : Nat) (w : Word) : Bool :=
  let op := wfld w 31 26
  mxOpOk c slot op &&
    (if op == 0x18 then wfld w 25 14 == 0 && wfld w 1 0 == 0
     else if op ≥ 0x19 then wfld w 25 0 == 0
     else wbit w 0 || wfld w 13 8 == 0)

/-- An SCL slot word is a legal instruction (R118, R121, R122, R124, R126). -/
def sclWordOk (w : Word) : Bool :=
  let op := wfld w 31 26
  let dest := decide (wfld w 25 20 < 60)
  match sclForm op with
  | 1 => dest && wfld w 7 0 == 0
  | 2 =>
    dest && (if op == 0x38 then wfld w 19 14 == 0 && decide (wfld w 13 0 ≤ 1)
      else if op ≥ 0x14 then wfld w 13 5 == 0 else true)
  | 3 => dest
  | 4 =>
    let cls := wfld w 19 17
    decide (1 ≤ cls) && decide (cls ≤ 6) && wfld w 13 8 == 0 && wfld w 1 0 == 0 && (op == 0x21 || dest)
  | 5 => wfld w 19 14 == 0 && wfld w 7 0 == 0 && (op == 0x29 || dest)
  | 6 =>
    if op == 0x30 then wfld w 11 0 == 0 && wfld w 13 12 != 3
    else if op == 0x31 then wfld w 25 20 == 0 && wfld w 13 0 == 0
    else dest && decide (wfld w 13 9 ≤ 17) && wfld w 8 0 == 0
  | _ => false

/-- Mask operations, whose operands are masks: MAND, MOR, MNOT, CNT (R228). -/
def vecMaskOp (op : Nat) : Bool := op == 0x13 || op == 0x14 || op == 0x15 || op == 0x2A

/-- An opcode that uses CH_Y under no descriptor: no Y operand, element or mask (R228); EXPAND's descriptor decides (R238). -/
def vecNoY (op : Nat) : Bool :=
  op == 0x08 || op == 0x09 || op == 0x15 || op == 0x18 || op == 0x1A || op == 0x1C || op == 0x1D || op == 0x1F || op == 0x20 ||
    op == 0x28 || decide (0x2A ≤ op)

/-- A VEC slot word uses only its opcode's fields (R95, R228, R235, R243). -/
def vecWordOk (w : Word) : Bool :=
  let op := wfld w 31 26
  vecOpOk op && (op != 0x2B || wfld w 25 20 == 0) && (!vecNoY op || wfld w 19 14 == 0) && (op != 0x20 || wfld w 13 8 == 0) &&
    (!vecMaskOp op || !wbit w 1)

/-- An RSU slot word uses only its opcode's fields (R95, R259). -/
def rsuWordOk (w : Word) : Bool :=
  let op := wfld w 31 26
  let scan := decide (0x18 ≤ op) && decide (op ≤ 0x1C)
  rsuOpOk op && (op == 0x29 || decide (op < 0x28) || wfld w 25 20 == 0) && (op == 0x1C || wfld w 19 14 == 0) &&
    (op == 0x2A || decide (op < 0x28) || wfld w 13 8 == 0) && (scan || !wbit w 1) && (scan || decide (op ≤ 4) || !wbit w 0)

/-- A MOV slot word uses only its opcode's fields (R94, R95, R319, R363). -/
def movWordOk (c : Cfg) (w : Word) : Bool :=
  let op := wfld w 31 26
  let usesX := op == 2 || op == 4 || op == 0x10 || op == 0x11 || op == 0x19 || op == 0x1A || op == 0x20 || op == 0x28 ||
    op == 0x2B || op == 0x2C
  let usesY := decide (0x18 ≤ op) && decide (op ≤ 0x1A)
  let usesOut := op == 1 || op == 3 || op == 0x10 || op == 0x11 || op == 0x18 || op == 0x21 || op == 0x29
  movOpOk c op && (usesX || wfld w 25 20 == 0) && (usesY || wfld w 19 14 == 0) && (usesOut || wfld w 13 8 == 0) &&
    wfld w 1 0 == 0

/-- A SYN slot word uses only its opcode's fields (R94, R95, R327). -/
def synWordOk (w : Word) : Bool :=
  let op := wfld w 31 26
  synOpOk op && (op != 6 || wfld w 25 8 == 0) && wfld w 1 0 == 0

/-- A slot word that holds an instruction is a legal encoding: its opcode and the fields that the opcode does not use (R93, R95,
R96). Fields whose use the descriptor decides are checked at issue (R252, R274, R320, R345; log 13). -/
def slotWordOk (c : Cfg) (slot : Nat) (w : Word) : Bool :=
  match slot with
  | 0 => mxWordOk c 0 w
  | 1 => mxWordOk c 1 w
  | 2 => vecWordOk w
  | 3 => rsuWordOk w
  | 4 => movWordOk c w
  | 5 => synWordOk w
  | _ => sclWordOk w

/-! ## Bundles -/

/-- KIND of a header (R92). -/
def hdrKind (h : Word) : Nat := wfld h 31 30

/-- PRESENT bit of slot n (R92). -/
def hdrPresent (h : Word) (slot : Nat) : Bool := wbit h (29 - slot)

/-- The slot word of a full bundle (R91). -/
def slotWord (b : W8) (slot : Nat) : Word := b.get (slot + 1)

/-- The pair rule of R193: GPDX with GPDW, FWDX with ADZ. -/
def pairOk (b : W8) : Bool :=
  let opA := if hdrPresent b.w0 0 then wfld b.w1 31 26 else 0
  let opB := if hdrPresent b.w0 1 then wfld b.w2 31 26 else 0
  (opA == 0x10) == (opB == 0x11) && (opA == 0x12) == (opB == 0x13)

/-- A full bundle is legal (R92, R93, R95, R96, R193). -/
def fullOk (c : Cfg) (b : W8) : Bool :=
  wfld b.w0 22 16 == 0 && pairOk b &&
    (List.range 7).all fun i =>
      if hdrPresent b.w0 i then slotWordOk c i (slotWord b i) else slotWord b i == 0

/-- MARK_OP of a mark bundle (R127). -/
def markOp (b : W8) : Nat := wfld b.w0 29 24

/-- A mark bundle is legal (R127, R128). -/
def markOk (b : W8) : Bool :=
  let op := markOp b
  wfld b.w0 23 16 == 0 && decide (1 ≤ op) && decide (op ≤ 4) && wfld b.w2 30 1 == 0 &&
    (decide (op ≥ 3) || !wbit b.w2 0) && b.w3 == 0 && b.w4 == 0 && b.w5 == 0 && b.w6 == 0 && b.w7 == 0

/-- A bundle of the replay buffer is a legal encoding. -/
def bundleOk (c : Cfg) (b : W8) : Bool :=
  match hdrKind b.w0 with
  | 0 => fullOk c b
  | 2 => markOk b
  | _ => false

/-- A mark bundle whose CHK is 1. -/
def isChkMark (b : W8) : Bool := hdrKind b.w0 == 2 && wbit b.w2 31

/-- Words that a bundle takes in the stream of a load (R130, R135). -/
def bundleWords (h : Word) : Nat := if hdrKind h == 1 then 1 + popcount 7 (wfld h 29 23) else 8

/-- The slot words of a compressed bundle put in their places: slots n to 6 from the words that follow (R131). -/
def expandSlots (h : Word) : Nat → List Word → List Word
  | 0, _ => []
  | n + 1, ws =>
    if hdrPresent h (6 - n) then ws.headD 0 :: expandSlots h n (ws.drop 1) else 0 :: expandSlots h n ws

/-- The full form of a bundle as it arrived (R131). -/
def expandBundle (ws : List Word) : W8 :=
  let h := ws.headD 0
  if hdrKind h == 1 then W8.ofList (setWfld h 31 30 0 :: expandSlots h 7 (ws.drop 1)) else W8.ofList ws

/-! ## Patch entries (R145) -/

/-- The bounds LO and HI of a patch entry fit a field of width n. -/
def boundFits (sgn : Bool) (n v : Nat) : Bool :=
  if sgn then decide (-(2 ^ (n - 1) : Int) ≤ sext 32 v) && decide (sext 32 v < (2 ^ (n - 1) : Int)) else decide (v < 2 ^ n)

/-- A patch entry is a legal encoding. P0 to P3 are words 0 to 3. -/
def patchOk (p : W8) : Bool :=
  let pop := wfld p.w0 31 28
  let cls := wfld p.w0 25 23
  let lsb := wfld p.w0 13 9
  let wm1 := wfld p.w0 8 4
  let sgn := wbit p.w0 3
  decide (1 ≤ pop) && decide (pop ≤ 4) && wfld p.w0 27 26 != 3 && decide (1 ≤ cls) && decide (cls ≤ 6) &&
    wfld p.w0 16 14 != 0 && decide (lsb + wm1 ≤ 31) && wfld p.w0 2 0 == 0 &&
    (pop != 4 || wfld p.w1 20 0 == 0) &&
    (if sgn then decide (sext 32 p.w2.toNat ≤ sext 32 p.w3.toNat) else decide (p.w2.toNat ≤ p.w3.toNat)) &&
    boundFits sgn (wm1 + 1) p.w2.toNat && boundFits sgn (wm1 + 1) p.w3.toNat

/-- The outcome of a patch entry (R146). -/
inductive PatchRes where
  | ok (v : Nat)
  | bound (v : Int)
  deriving DecidableEq, Repr

/-- The new field value of a patch entry, or the exact value that leaves its bounds (R146). old is the field, sv the S
register that a FROMS names. An ADDMOD whose field starts outside its bounds computes no new value; what is reported is the
field (DESIGN CHOICE, log 83). -/
def patchValue (p : W8) (old : Nat) (sv : Word) : PatchRes :=
  let n := wfld p.w0 8 4 + 1
  let sgn := wbit p.w0 3
  let rd (bits v : Nat) : Int := if sgn then sext bits v else (v : Int)
  let o := rd n old
  let lo := rd 32 p.w2.toNat
  let hi := rd 32 p.w3.toNat
  let inc := sext 32 p.w1.toNat
  let outside := o < lo ∨ o > hi
  let new : Int := match wfld p.w0 31 28 with
    | 1 => rd 32 p.w1.toNat
    | 2 => o + inc
    | 3 => lo + (o - lo + inc) % (hi - lo + 1)
    | _ => rd 32 sv.toNat * 2 ^ (wfld p.w1 25 21)
  if wfld p.w0 31 28 = 3 ∧ outside then .bound o
  else if new < lo ∨ new > hi then .bound new
  else .ok (toCode n new)

end Sys2Proof.Machine
end

