-- ==== Sys2Proof/Machine/Checks.lean ====
section
/-! DEFINITION. The checks made at issue: descriptors (R116, R186, R206, R252, R274, R320, R345, R384), channel ends and
widths (R104, R107, R110), formats (R414), power domains (R454) and chains (R231, R232). Each answers the fault codes it
finds. -/

namespace Sys2Proof.Machine

/-- A fault code where a condition is broken. -/
def need (ok : Bool) (code : Nat) : List Nat := if ok then [] else [code]

/-- ILLEGAL_ENC where a condition is broken. -/
def legal (ok : Bool) : List Nat := need ok 0x01

/-- DESC_CLASS where a condition is broken. -/
def classed (ok : Bool) : List Nat := need ok 0x06

/-- WIDTH code of a channel for elements of n bits (R105). -/
def widthCode (n : Nat) : Nat :=
  match n with
  | 4 => 0
  | 6 => 1
  | 8 => 2
  | 16 => 3
  | _ => 4

/-- Channel c is a declared channel of a kind whose consumer is endpoint ep (R104). -/
def inChan (s : State) (ep kind c : Nat) : Bool :=
  let en := chEnt s c
  decide (c < 56) && en.kind == kind && (en.cons0 == ep || en.cons1 == ep)

/-- Channel c is a declared channel of a kind whose producer is endpoint ep (R104). -/
def outChan (s : State) (ep kind c : Nat) : Bool :=
  decide (c < 56) && (chEnt s c).kind == kind && (chEnt s c).prod == ep

/-- Channel c carries elements of n bits (R110). -/
def chWidth (s : State) (c n : Nat) : Bool := (chEnt s c).width == widthCode n

/-- Format f is enabled (R414) and of the width of channel c (R110). -/
def fmtChan (s : State) (c f : Nat) : Bool := fmtOn s f && chWidth s c (fmtBits f)

/-- DCLASS and DVER of a descriptor (R116). -/
def classOk (cls : Nat) (d : W8) : Bool := d.fld 0 31 28 == cls && d.fld 0 27 24 == 1

/-- The CONV of a conversion tail is not reserved (R71). -/
def convOk (d : W8) : Bool := !wbit d.w0 23 || d.fld 4 1 0 != 3

/-- Bit 24 of a conversion tail, which R114 reserves, is 0. DEDUCED (log 13). -/
def tailBitOk (d : W8) : Bool := !wbit d.w0 23 || d.fld 4 24 24 == 0

/-- The format that leaves an instruction: FMT_OUT with CVT, else f. -/
def outFmt (d : W8) (f : Nat) : Nat := if wbit d.w0 23 then d.fld 4 23 20 else f

/-- W4 to W7 are 0. -/
def tailZero (d : W8) : Bool := d.w4 == 0 && d.w5 == 0 && d.w6 == 0 && d.w7 == 0

/-- The channel of an array pair (R194): kind data, CONS0 MXA, CONS1 MXB. -/
def isPairFork (s : State) (c : Nat) : Bool :=
  let en := chEnt s c
  decide (c < 56) && en.kind == 1 && en.cons0 == 1 && en.cons1 == 2

/-- A fork channel whose consumers are MXA and MXB, in either order: only a pair instruction may name it (R194). -/
def isArrayFork (s : State) (c : Nat) : Bool :=
  let en := chEnt s c
  decide (c < 56) && ((en.cons0 == 1 && en.cons1 == 2) || (en.cons0 == 2 && en.cons1 == 1))

/-! ## Arrays (R186, R194 to R196, R206) -/

/-- The pair class of two operand formats (R61): 0 H, 1 F8, 2 F4, 3 F8 with F4, 4 I8, 5 I4; 7 for no legal pair. -/
def pairClass (a b : Nat) : Nat :=
  let h (x : Nat) := x == 1 || x == 2
  let f8 (x : Nat) := x == 3 || x == 4 || x == 5
  let f4 (x : Nat) := x == 6 || x == 7 || x == 8 || x == 11
  if h a && h b then 0
  else if f8 a && f8 b then 1
  else if f4 a && f4 b then 2
  else if (f8 a && f4 b) || (f4 a && f8 b) then 3
  else if (a == 9 && b == 9) || (a == 9 && b == 10) || (a == 10 && b == 9) then 4
  else if a == 10 && b == 10 then 5
  else 7

/-- k-steps per clk of a pair class (R61). -/
def classKps (c : Nat) : Nat :=
  match c with
  | 0 => 1
  | 2 => 4
  | 5 => 4
  | _ => 2

/-- The comparison modes accept a pair (R177). -/
def cmpPairOk (a b : Nat) : Bool :=
  ((a == 1 || a == 2) && (b == 1 || b == 2)) || ((a == 3 || a == 4) && (b == 3 || b == 4)) || (a == 9 && b == 9)

/-- Power domains of the quadrants of array slot a (R158, R453). -/
def arrayPds (s : State) (slot : Nat) : List Nat :=
  let q (a : Nat) := [64 + 4 * a, 65 + 4 * a, 66 + 4 * a, 67 + 4 * a]
  if !s.cfg.wide then q slot
  else if s.img.cur.fuse then q 0 ++ q 1 ++ q 2 ++ q 3
  else q slot ++ q (slot + 2)

/-- The descriptor of an array instruction and its tail (R185). -/
def mxTailOk (d : W8) : Bool := if wbit d.w0 23 then d.fld 4 19 3 == 0 else tailZero d

/-- The reserved bits of W0 to W3 of an array descriptor are 0 (R13, R155, R184, R185). DRAIN uses only W2 and the tail. DEDUCED (log 13). -/
def mxReservedOk (op : Nat) (d : W8) : Bool :=
  (op == 0x18 || (d.fld 0 16 0 == 0 && d.fld 1 12 0 == 0 && d.w3 == 0)) && d.fld 2 10 0 == 0 && tailBitOk d

/-- Faults of a product or comparison at issue (R186). -/
def productFaults (s : State) (slot : Nat) (w : Word) (d : W8) : List Nat :=
  let op := wfld w 31 26
  let a := d.fld 1 31 28
  let b := d.fld 1 27 24
  let k := d.fld 1 23 13
  let chA := wfld w 25 20
  let chB := wfld w 19 14
  let isCmp := decide (8 ≤ op) && decide (op ≤ 0x0C)
  let isPair := decide (0x10 ≤ op) && decide (op ≤ 0x13)
  let ep := slot + 1
  classed (classOk 1 d && mxTailOk d) ++ need (decide (1 ≤ k) && decide (k ≤ 1024)) 0x07 ++
    legal (mxReservedOk op d && d.fld 0 22 20 ≤ 5 && pairClass a b == d.fld 0 22 20 && (!isCmp || cmpPairOk a b) &&
      (!(fmtBlock a || fmtBlock b) || k % 32 == 0) && (op != 0x0C || d.fld 0 19 17 ≤ 5) &&
      inChan s ep 1 chA && inChan s ep 1 chB && fmtChan s chA a && fmtChan s chB b && chA != chB && convOk d &&
      fmtOn s (outFmt d 0) &&
      (!wbit w 0 || (outChan s ep 1 (wfld w 13 8) && fmtChan s (wfld w 13 8) (outFmt d 0))) &&
      (if isPair then isPairFork s chB && decide (1 ≤ b) && decide (b ≤ 4) else !isArrayFork s chA && !isArrayFork s chB)) ++
    (if isPair then need (k == tileN s) 0x07 else [])

/-- Faults of an array slot word at issue (R160, R186, R454). -/
def mxFaults (s : State) (slot : Nat) (w : Word) (d : W8) : List Nat :=
  let op := wfld w 31 26
  (if slot == 1 && s.img.cur.fuse then [0x0A] else []) ++
    legal ((arrayPds s slot).all (pdOn s)) ++
    (if op == 0x18 then
      classed (classOk 1 d && mxTailOk d) ++
        legal (mxReservedOk op d && convOk d && outChan s (slot + 1) 1 (wfld w 13 8) && fmtChan s (wfld w 13 8) (outFmt d 0))
     else if op ≥ 0x19 then []
     else productFaults s slot w d)

/-- Faults of a pair as a whole (R194, R196): the shared channel, FMT_B and the k-step rate are the same. -/
def pairFaults (wa wb : Word) (da db : W8) : List Nat :=
  let op := wfld wa 31 26
  if op == 0x10 || op == 0x12 then
    legal (wfld wa 19 14 == wfld wb 19 14 && da.fld 1 27 24 == db.fld 1 27 24 &&
      classKps (da.fld 0 22 20) == classKps (db.fld 0 22 20))
  else []

/-! ## Vector engine (R252) -/

/-- X is an element operand of the opcode (R228). -/
def vecUsesX (op : Nat) : Bool := !vecMaskOp op && op != 0x2B

/-- Y is an element operand (R228, R238). -/
def vecUsesY (op mpol : Nat) : Bool :=
  (1 ≤ op && op ≤ 7) || (0xA ≤ op && op ≤ 0x12) || op == 0x19 || op == 0x1B || op == 0x1E || (op == 0x29 && mpol == 1)

/-- Z is an element operand (R228). -/
def vecUsesZ (op : Nat) : Bool := (4 ≤ op && op ≤ 7) || op == 0x0C

/-- The instruction produces a mask. -/
def vecMakesMask (op opt : Nat) : Bool :=
  op == 0x13 || op == 0x14 || op == 0x15 || (op == 0x0E && opt / 8 % 2 == 0) || (op == 0x2B && opt % 4 == 2)

/-- The reserved bits of OPT are 0 and its codes are defined (R228, R230, R240, R241, R242, R244). -/
def vecOptOk (op opt : Nat) : Bool :=
  match op with
  | 0x0E => decide (opt < 16) && decide (opt % 8 ≤ 5)
  | 0x19 => decide (opt < 7)
  | 0x1A => decide (opt / 16 ≤ 1) && decide (opt % 16 < 7)
  | 0x1F => decide (opt < 2)
  | 0x2B => decide (opt < 3)
  | 0x38 => decide (opt < 8)
  | _ => opt == 0

/-- Format class of an opcode (R228): 0 A, 1 B, 2 C, 3 P, 4 M, 5 F, 6 R. -/
def vecClass (op : Nat) : Nat :=
  if op ≤ 0x0F then 0 else if op ≤ 0x12 then 1 else if op ≤ 0x15 then 4 else if op == 0x18 || op == 0x20 then 2
  else if op == 0x2A then 4 else if op == 0x2B then 6 else if op ≥ 0x30 then 5 else 3

/-- A float code of classes A and F. -/
def floatCode (f : Nat) : Bool := f ≤ 2

/-- The element format of the result (R226, R229, R240 to R242, R244). -/
def vecResFmt (op : Nat) (d : W8) : Nat :=
  if op == 0x1E || op == 0x1F then d.fld 0 14 11 else outFmt d (d.fld 0 22 19)

/-- A used operand's source, format and channel (R219, R220, R229, R252). -/
def vecOperandOk (s : State) (src f c : Nat) (blockOk : Bool) : Bool :=
  decide (src ≤ 4) && fmtOn s f && (blockOk || !fmtBlock f) &&
    (if src ≤ 1 then decide (56 ≤ c) || (inChan s 3 1 c && chWidth s c (fmtBits f))
     else c == 0 && !fmtBlock f && (fmtBits f == 8 || fmtBits f == 16 || fmtBits f == 32))

/-- The format class rule of R229. Class P asks for CVT = 0, while R237 takes the result of CMPRS, of class P, through the
conversion of R227 and speaks of stochastic rounding: the model lets CMPRS alone have CVT = 1, and gives it no block-scaled
result, which R229 keeps to classes A, C and F (DEDUCED, log 84). -/
def vecClassOk (op fx fy fz : Nat) (d : W8) : Bool :=
  let cvt := wbit d.w0 23
  let mpol := d.fld 0 1 0
  let opt := d.fld 3 7 0
  let res := vecResFmt op d
  let uy := vecUsesY op mpol
  let uz := vecUsesZ op
  match vecClass op with
  | 0 => (floatCode fx && (!uy || floatCode fy) && (!uz || floatCode fz)) ||
      (fx == 9 && (!uy || fy == 9) && (!uz || fz == 9))
  | 1 => !cvt && fmtBits fx == fmtBits fy && !fmtBlock fx && !fmtBlock fy
  | 2 => op != 0x20 || !fmtBlock res
  | 3 =>
    (!cvt || op == 0x28) &&
      (if op == 0x19 then fy == 9
       else if op == 0x1B then fx == fy
       else if op == 0x1E then fmtBits fx == fmtBits fy && (fmtBits fx == 8 || fmtBits fx == 16) &&
         fmtBits fz == 2 * fmtBits fx
       else if op == 0x1F then (fmtBits fx == 16 || fmtBits fx == 32) && 2 * fmtBits fz == fmtBits fx
       else if op == 0x29 && uy then fmtBits fy == fmtBits fx
       else true)
  | 4 => true
  | 5 => floatCode fx
  | _ => if opt % 4 == 0 then res == 0 else true

/-- SREG_A, SREG_B and OC_BASE are 0 where no operand uses them, and the reserved bits of W2 and W3 are 0 (R13, R219, R225, R244, R252).
The scalars are the SCALAR operands; cache says that an operand reads the operand cache. DEDUCED (log 13). -/
def vecScalarFieldsOk (op opt scalars : Nat) (cache : Bool) (d : W8) : Bool :=
  (decide (1 ≤ scalars) || (op == 0x2B && opt % 4 == 2) || d.fld 3 31 26 == 0) && (decide (2 ≤ scalars) || d.fld 3 25 20 == 0) &&
    (cache || op == 0x20 || d.fld 3 19 9 == 0) && d.fld 2 3 0 == 0 && d.fld 3 8 8 == 0

/-- Faults of one VEC instruction at issue (R252), its chain rules apart. -/
def vecFaults (s : State) (w : Word) (d : W8) : List Nat :=
  let op := wfld w 31 26
  let cx := wfld w 25 20
  let cy := wfld w 19 14
  let co := wfld w 13 8
  let mask := wbit w 1
  let fx := d.fld 0 22 19
  let fy := d.fld 0 18 15
  let fz := d.fld 0 14 11
  let sx := d.fld 0 10 8
  let sy := d.fld 0 7 5
  let sz := d.fld 0 4 2
  let mpol := d.fld 0 1 0
  let opt := d.fld 3 7 0
  let cz := d.fld 2 9 4
  let mch := d.fld 2 15 10
  let ux := vecUsesX op
  let uy := vecUsesY op mpol
  let uz := vecUsesZ op
  let mo := vecMaskOp op
  let cvt := wbit d.w0 23
  let mkMask := vecMakesMask op opt
  let res := vecResFmt op d
  let maskIn (c : Nat) : Bool := decide (56 ≤ c) || inChan s 3 1 c
  let scalars := b2n (ux && sx == 2) + b2n (uy && sy == 2) + b2n (uz && sz == 2)
  let elems := !mkMask && op != 0x2A
  let inCache (src : Nat) : Bool := src == 3 || src == 4
  let cached := (ux && inCache sx) || (uy && inCache sy) || (uz && inCache sz)
  classed (classOk 2 d && (cvt || (tailZero d && op != 0x2B))) ++
    legal (decide (mpol ≤ 1) && vecOptOk op opt && (mpol == 0 || !(op == 0x2B || mkMask || op == 0x2A)) &&
      decide (scalars ≤ 2) && vecScalarFieldsOk op opt scalars cached d && convOk d && tailBitOk d && (!cvt || d.fld 4 5 3 == 0) &&
      (if ux then vecOperandOk s sx fx cx (op == 0x18 || op == 0x20)
       else sx == 0 && fx == 0 && (if mo then maskIn cx else cx == 0)) &&
      (if uy then vecOperandOk s sy fy cy false && (op != 0x19 || sy == 0 || sy == 3)
       else sy == 0 && fy == 0 && (if op == 0x13 || op == 0x14 then maskIn cy else cy == 0)) &&
      (if uz then vecOperandOk s sz fz cz false
       else sz == 0 && (if op == 0x1E || op == 0x1F then fmtOn s fz else fz == 0) &&
         (if op == 0x28 then outChan s 3 2 cz else cz == 0)) &&
      vecClassOk op fx fy fz d && (!cvt || fmtOn s (d.fld 4 23 20)) &&
      (if mask then maskIn mch else mch == 0) &&
      (if wbit d.w1 31 then inChan s 3 2 (d.fld 1 30 25) else d.fld 1 30 25 == 0) &&
      (!elems || (fmtOn s res && (vecClass op == 0 || vecClass op == 2 || vecClass op == 5 || !fmtBlock res))) &&
      (if op == 0x20 then co == 0
       else if op == 0x2A then outChan s 3 2 co
       else decide (56 ≤ co) || (outChan s 3 1 co && (mkMask || chWidth s co (fmtBits res)))) &&
      (op != 0x38 || (s.img.cur.ftables.getD (opt % 8) none).isSome) &&
      (decide (op < 0x30) || pdOn s 112))

/-- The MASK bit is as R235 requires. -/
def vecMaskBitOk (e : Entry) : Bool :=
  if e.op == 0x0F || e.op == 0x28 || e.op == 0x29 then e.b1 else if vecMaskOp e.op then !e.b1 else true

/-- The link queues that a member pops, each with whether it takes a mask there. -/
def linkReads (e : Entry) : List (Nat × Bool) :=
  let mo := vecMaskOp e.op
  let src (hi lo : Nat) := e.d.fld 0 hi lo
  let x := if e.chX ≥ 56 && (mo || src 10 8 ≤ 1) then [(e.chX, mo)] else []
  let y := if e.chY ≥ 56 && (mo || src 7 5 ≤ 1) then [(e.chY, mo)] else []
  let z := if vecUsesZ e.op && e.d.fld 2 9 4 ≥ 56 then [(e.d.fld 2 9 4, false)] else []
  let m := if e.b1 && e.d.fld 2 15 10 ≥ 56 then [(e.d.fld 2 15 10, true)] else []
  x ++ y ++ z ++ m

/-- The link queue that a member pushes, with whether it pushes a mask. -/
def linkWrite (e : Entry) : Option (Nat × Bool) :=
  if e.op != 0x20 && e.chOut ≥ 56 then some (e.chOut, vecMakesMask e.op (e.d.fld 3 7 0)) else none

/-- The chain rules of R232 and R235 over the members in order. -/
def chainOk (ms : List Entry) : Bool :=
  let n := ms.length
  let idx := ms.zipIdx
  let writes := idx.filterMap fun p => (linkWrite p.1).map fun l => (l.1, l.2, p.2)
  let reads := idx.flatMap fun p => (linkReads p.1).map fun l => (l.1, l.2, p.2)
  decide (n ≤ 8) && ms.all vecMaskBitOk &&
    idx.all (fun p =>
      (n == 1 || !(p.1.op == 0x1B || p.1.op == 0x1C || p.1.op == 0x1D || p.1.op == 0x2A)) &&
        (p.1.op != 0x29 || (p.2 == 0 && p.1.chX < 56 && p.1.d.fld 0 10 8 == 0)) && (p.1.op != 0x28 || (p.2 + 1 == n && p.1.chOut < 56))) &&
    (n ≥ 2 || (writes.isEmpty && reads.isEmpty)) &&
    writes.all (fun wr => (writes.filter fun v => v.1 == wr.1).length == 1 &&
      (reads.filter fun r => r.1 == wr.1).length == 1) &&
    reads.all (fun r => writes.any fun wr => wr.1 == r.1 && wr.2.1 == r.2.1 && decide (wr.2.2 < r.2.2))

/-! ## RSU (R274) -/

/-- A carry opcode. -/
def rsuCarryOp (op : Nat) : Bool := op ≥ 0x28
/-- A scan opcode. -/
def rsuScan (op : Nat) : Bool := 0x18 ≤ op && op ≤ 0x1C
/-- A row-statistics opcode. -/
def rsuStat (op : Nat) : Bool := 0x10 ≤ op && op ≤ 0x12
/-- RSUM, RSUMSQ, RMAX, RMIN. -/
def rsuReduce (op : Nat) : Bool := 1 ≤ op && op ≤ 4
/-- The opcode has a CH_AUX output. -/
def rsuAux (op : Nat) : Bool := op == 5 || op == 6 || op == 8 || op == 9 || op == 0x10 || op == 0x12 || op == 0x1C

/-- W4 to W7 of an RSU descriptor follow R271. -/
def rsuTailOk (op : Nat) (d : W8) : Bool :=
  if wbit d.w0 23 then !(rsuStat op || rsuCarryOp op) && d.fld 4 19 3 == 0 && tailBitOk d
  else
    (if rsuStat op then d.fld 4 30 24 == 0 && (wbit d.w4 31 || d.w4 == 0) else d.w4 == 0) &&
      (if op == 0x2C then d.fld 5 1 0 == 0 && d.fld 6 31 13 == 0 else d.w5 == 0 && d.w6 == 0) && d.w7 == 0

/-- W3 of an RSU descriptor names only what the opcode uses (R267, R268, R271). -/
def rsuCarryFieldsOk (op : Nat) (carry : Bool) (d : W8) : Bool :=
  if rsuCarryOp op then
    d.fld 3 31 29 == 0 && d.fld 3 10 0 == 0 &&
      (op == 0x2A || op == 0x2B || op == 0x2C || d.fld 3 28 23 == 0) && (op == 0x2B || d.fld 3 22 17 == 0) &&
      (op == 0x28 || op == 0x29 || op == 0x2B || d.fld 3 16 11 == 0)
  else if carry then
    d.fld 3 30 29 != 3 && d.fld 3 22 17 == 0 && (wbit d.w3 31 || d.fld 3 28 23 == 0) &&
      (d.fld 3 30 29 == 1 || d.fld 3 16 11 == 0) && (d.fld 3 30 29 == 2 || d.fld 3 10 5 == 0) && d.fld 3 4 0 == 0
  else d.w3 == 0

/-- Faults of an RSU instruction at issue (R274). -/
def rsuFaults (s : State) (w : Word) (d : W8) : List Nat :=
  let op := wfld w 31 26
  let cx := wfld w 25 20
  let cy := wfld w 19 14
  let co := wfld w 13 8
  let seg := wbit w 1
  let carry := wbit w 0
  let fx := d.fld 0 22 19
  let fy := d.fld 0 18 15
  let axis := wbit d.w0 14
  let aux := d.fld 2 9 4
  let men := wbit d.w2 3
  let mch := d.fld 2 15 10
  let cop := rsuCarryOp op
  let elemFmt (f : Nat) : Bool := (f ≤ 2 || f == 9) && fmtOn s f
  let of := outFmt d 0
  let xs := !(op == 0x28 || op == 0x2A || op == 0x2B || op == 0x2C)
  let statEn := rsuStat op && wbit d.w4 31
  classed (classOk 3 d && rsuTailOk op d) ++
    legal (pdOn s 121 && convOk d &&
      (!seg || rsuScan op) && (!men || (!rsuScan op && !cop)) && (!wbit d.w0 13 || rsuScan op) &&
      (!axis || rsuReduce op) && (!carry || rsuScan op || (rsuReduce op && !axis)) &&
      (op == 8 || op == 9 || d.fld 0 12 7 == 0) && (op == 0x2A || !wbit d.w0 3) &&
      (if op == 0x28 || op == 0x2B then d.fld 0 6 4 ≤ 4 else d.fld 0 6 4 == 0) && d.fld 0 2 0 == 0 &&
      d.fld 2 2 0 == 0 && (!cop || d.fld 2 31 16 == 0) &&
      rsuCarryFieldsOk op carry d &&
      (if cop then fx == 0 else elemFmt fx && chWidth s cx (fmtBits fx)) &&
      (if op == 0x1C then elemFmt fy && inChan s 4 1 cy && chWidth s cy (fmtBits fy) else fy == 0 && cy == 0) &&
      (if xs then inChan s 4 1 cx && (op != 0x29 || chWidth s cx 32) else cx == 0) &&
      (if men || seg then inChan s 4 1 mch else mch == 0) &&
      (if wbit d.w1 31 then inChan s 4 2 (d.fld 1 30 25) else d.fld 1 30 25 == 0) &&
      (if op == 0x28 || op == 0x29 || op == 0x2B || op == 0x2C then co == 0
       else if op == 0x2A then outChan s 4 1 co && chWidth s co 32
       else if rsuStat op then (co == 0 && statEn) || (outChan s 4 1 co && chWidth s co 32)
       else outChan s 4 1 co && fmtChan s co of) &&
      (aux == 0 || (rsuAux op && outChan s 4 1 aux &&
        (if op == 0x1C then fmtChan s aux of else chWidth s aux 32))) &&
      (!(carry && d.fld 3 30 29 == 2) || (outChan s 4 1 (d.fld 3 10 5) && chWidth s (d.fld 3 10 5) 32)))

/-! ## MOV (R320, R384) -/

/-- The MOV instruction names a second descriptor (R292, R302). -/
def movTwo (op : Nat) (d : W8) : Bool :=
  op == 0x12 || op == 0x13 || ((op == 1 || op == 2) && fmtBlock (d.fld 0 22 19))

/-- W0 and W6 of a stream descriptor hold no reserved value (R287, R288). -/
def streamDescOk (s : State) (d : W8) : Bool :=
  fmtOn s (d.fld 0 22 19) && d.fld 0 18 16 ≤ 4 && d.fld 0 14 12 ≤ 5 && d.fld 6 23 20 == 0

/-- The channel fields that a MOV opcode does not use are 0 (R319, R363). uX, uY, uO: the fields it uses. -/
def movUnused (w : Word) (uX uY uO : Bool) : Bool :=
  (uX || wfld w 25 20 == 0) && (uY || wfld w 19 14 == 0) && (uO || wfld w 13 8 == 0) && wfld w 1 0 == 0

/-- A count channel field under its enable bit, for a consumer endpoint. -/
def cntField (s : State) (en : Bool) (ep c : Nat) : Bool := if en then inChan s ep 2 c else c == 0

/-- Faults of a stream generator or copy instruction (R287 to R295, R302, R303). -/
def streamFaults (s : State) (op : Nat) (w : Word) (d d1 : W8) : List Nat :=
  let f := d.fld 0 22 19
  let cx := wfld w 25 20
  let co := wfld w 13 8
  let two := movTwo op d
  let last := wfld w 7 2 == 63
  let next := two && !last
  let copy := 0x12 ≤ op && op ≤ 0x15
  let isMask := op == 3 || op == 4
  classed (classOk 4 d && !wbit d.w0 23 && (!next || (classOk 4 d1 && !wbit d1.w0 23))) ++
    legal (streamDescOk s d && !(two && last) && (!next || streamDescOk s d1) &&
      (!isMask || (f == 0 && !wbit d.w0 15 && d.fld 0 14 12 == 0)) &&
      (!(op == 5 || copy) || !fmtBlock f) &&
      (!copy || (!wbit d.w0 15 && d.fld 0 14 12 == 0)) &&
      (!next || (d1.fld 0 22 19 == f && !wbit d1.w0 15 && d1.fld 0 14 12 == 0)) &&
      (if op == 1 || op == 3 then movUnused w false false true && outChan s 5 1 co &&
          (isMask || chWidth s co (fmtBits f))
       else if op == 2 || op == 4 then movUnused w true false false && inChan s 6 1 cx &&
          (isMask || chWidth s cx (fmtBits f))
       else movUnused w false false false) &&
      (!copy || pdOn s (if op % 2 == 0 then 117 else 118)))

/-- Faults of TIN (R299, R300). -/
def tinFaults (s : State) (op : Nat) (w : Word) (d : W8) : List Nat :=
  let b := op % 2
  let f := d.fld 0 22 19
  classed (classOk 4 d && !wbit d.w0 23) ++
    legal (movUnused w true false true && d.fld 0 17 0 == 0 && d.fld 1 31 25 == 0 && d.w2 == 0 && d.w3 == 0 &&
      tailZero d && pdOn s (117 + b) && inChan s (7 + b) 1 (wfld w 25 20) && outChan s (7 + b) 1 (wfld w 13 8) &&
      fmtChan s (wfld w 25 20) f && chWidth s (wfld w 13 8) (fmtBits f))

/-- Faults of GATH, SCST and SCADD (R306 to R311). -/
def gatherFaults (s : State) (op : Nat) (w : Word) (d : W8) : List Nat :=
  let f := d.fld 0 22 19
  let ext := wbit d.w0 18
  let men := wbit d.w0 15
  let cnto := d.fld 2 13 8
  classed (classOk 4 d && !wbit d.w0 23) ++
    legal (pdOn s 119 && fmtOn s f && !fmtBlock f && d.fld 0 17 16 != 3 && d.fld 0 11 0 == 0 &&
      (!ext || op == 0x18) && (if ext then d.fld 0 14 12 == 0 else d.fld 0 14 12 ≤ 4 && d.fld 3 31 24 == 0 && d.w4 == 0) && d.fld 4 19 8 == 0 &&
      d.fld 2 7 0 == 0 && !wbit d.w6 31 && d.fld 7 1 0 == 0 &&
      (op != 0x1A || f ≤ 2 || f == 9) &&
      cntField s (wbit d.w1 31) 9 (d.fld 1 30 25) && (if men then inChan s 9 1 (d.fld 2 19 14) else d.fld 2 19 14 == 0) &&
      (cnto == 0 || outChan s 9 2 cnto) && inChan s 9 1 (wfld w 19 14) &&
      (if op == 0x18 then movUnused w false true true && outChan s 9 1 (wfld w 13 8) && chWidth s (wfld w 13 8) (fmtBits f)
       else movUnused w true true false && inChan s 9 1 (wfld w 25 20) && chWidth s (wfld w 25 20) (fmtBits f)))

/-- Faults of ACSV and ACRS (R313). -/
def acmpFaults (s : State) (op : Nat) (w : Word) (d : W8) : List Nat :=
  let f := d.fld 0 22 19
  let mode := d.fld 0 18 17
  let lossy := mode == 1 || mode == 2
  let code := if mode == 1 then 11 else 5
  let rf := d.fld 0 16 13
  let save := op == 0x20
  classed (classOk 4 d && wbit d.w0 23 == (save && lossy)) ++
    legal (pdOn s 120 && f ≤ 2 && fmtOn s f && mode != 3 && d.fld 0 12 0 == 0 && d.fld 1 31 25 == 0 &&
      d.fld 3 19 8 == 0 && convOk d && tailBitOk d &&
      (if save && lossy then d.fld 4 23 20 == code && d.fld 4 31 24 == 0 && d.fld 4 19 3 == 0 && fmtOn s code else tailZero d) &&
      (if save then rf == 0 else if lossy then (rf == 0 || rf == code) && fmtOn s rf else rf == f) &&
      (if save then movUnused w true false false && inChan s 10 1 (wfld w 25 20) && chWidth s (wfld w 25 20) (fmtBits f)
       else movUnused w false false true && outChan s 10 1 (wfld w 13 8) && chWidth s (wfld w 13 8) (fmtBits rf)))

/-- Faults of PUT, GET, GETP and RACC (R364, R384). -/
def fabFaults (s : State) (op : Nat) (w : Word) (d : W8) : List Nat :=
  let f := d.fld 0 22 19
  let sp := d.fld 0 18 16
  let push := op == 0x28 || op == 0x2B
  classed (classOk 4 d && !wbit d.w0 23 && d.w6 == 0 && d.w7 == 0) ++
    legal (pdOn s 126 && sp ≤ 1 && d.fld 0 15 15 == 0 && d.fld 0 11 0 == 0 && d.fld 4 5 0 == 0 && d.fld 5 31 24 == 0 &&
      (op == 0x2A || fmtOn s f) && !fmtBlock f && (op != 0x2B || f ≤ 1) && (op != 0x2A || f == 0) &&
      (if op == 0x2A then d.fld 0 14 12 ≤ 4 else d.fld 0 14 12 == 0 && d.w5 == 0) &&
      (sp == 1 || d.fld 1 19 8 == 0) && (sp == 0 || d.fld 1 7 0 == 0) &&
      (!wbit d.w4 31 || (sp == 1 && push)) && (wbit d.w4 31 || d.fld 4 30 19 == 0) && (wbit d.w4 18 || d.fld 4 17 6 == 0) &&
      cntField s (wbit d.w3 31) 11 (d.fld 3 30 25) &&
      (if push then movUnused w true false false && inChan s 11 1 (wfld w 25 20) && chWidth s (wfld w 25 20) (fmtBits f)
       else if op == 0x29 then
         movUnused w false false true && outChan s 12 1 (wfld w 13 8) && chWidth s (wfld w 13 8) (fmtBits f)
       else movUnused w false false false))

/-- Faults of RSEND and RMAXS (R373, R374, R384). -/
def reduceFaults (s : State) (op : Nat) (w : Word) (d : W8) : List Nat :=
  let f := d.fld 0 22 19
  let enc := wbit d.w0 18
  let c := wfld w 25 20
  classed (classOk 4 d && !wbit d.w0 23) ++
    legal (pdOn s 126 && d.fld 0 17 16 != 3 && d.fld 0 15 12 ≤ 1 && d.fld 0 11 9 ≤ 4 && d.fld 0 8 0 == 0 &&
      d.fld 1 19 16 == 0 && d.fld 3 7 0 == 0 && d.fld 4 15 12 == 0 && d.fld 5 31 24 == 0 && d.fld 6 31 24 == 0 &&
      d.fld 7 31 6 == 0 &&
      (if op == 0x2C then f == (if enc then 0 else 1) && fmtOn s f && movUnused w true false false &&
          inChan s 11 1 c && (chEnt s c).cons0 == 11 && ((chEnt s c).prod == 1 || (chEnt s c).prod == 2) &&
          chWidth s c (fmtBits f) && d.fld 7 5 0 == 0 && (enc || d.fld 6 23 0 == 0)
       else f == 0 && !enc && d.fld 0 17 16 == 0 && d.fld 5 23 0 == 0 && d.fld 6 23 0 == 0 && movUnused w false false false && pdOn s 122))

/-- Faults of a MOV instruction at issue. -/
def movFaults (s : State) (w : Word) (d d1 : W8) : List Nat :=
  let op := wfld w 31 26
  if op ≤ 5 ∨ (0x12 ≤ op ∧ op ≤ 0x15) then streamFaults s op w d d1
  else if op ≤ 0x11 then tinFaults s op w d
  else if op ≤ 0x1A then gatherFaults s op w d
  else if op ≤ 0x21 then acmpFaults s op w d
  else if op ≤ 0x2B then fabFaults s op w d
  else reduceFaults s op w d

/-! ## SYN (R345) and SCL (R104, R125, R454) -/

/-- A SYN opcode names a flag and an S register (R327). -/
def synUsesFlag (op : Nat) : Bool := op != 6
/-- A timed wait. -/
def synTimed (op : Nat) : Bool := 0x10 ≤ op && op ≤ 0x12

/-- Faults of a SYN instruction at issue. -/
def synFaults (w : Word) (d : W8) : List Nat :=
  let op := wfld w 31 26
  classed (classOk 5 d && !wbit d.w0 23 && tailZero d) ++
    legal ((synUsesFlag op || wfld w 25 8 == 0) && wfld w 1 0 == 0 && d.fld 0 22 0 == 0 && d.fld 1 18 16 == 0 &&
      (!wbit d.w1 19 || wfld w 13 8 == 0) && (if synTimed op then d.fld 2 31 30 ≤ 1 else d.w2 == 0) &&
      (if op == 0x18 then d.fld 3 7 0 == 0 else d.w3 == 0))

/-- Faults of an SCL instruction at issue: its count channel, and for TCFG, TCOMMIT and TRD the scale tracker's domain (R104, R125,
R453, R454). -/
def sclFaults (s : State) (w : Word) : List Nat :=
  let op := wfld w 31 26
  let c := wfld w 13 8
  legal ((op != 0x28 || inChan s 13 2 c) && (op != 0x29 || outChan s 13 2 c) && (sclForm op != 6 || pdOn s 122))

/-- Fault codes of the instruction in a slot at issue; d and d1 are the descriptors it copies. -/
def slotFaults (s : State) (slot : Nat) (w : Word) (d d1 : W8) : List Nat :=
  match slot with
  | 0 => mxFaults s 0 w d
  | 1 => mxFaults s 1 w d
  | 2 => vecFaults s w d
  | 3 => rsuFaults s w d
  | 4 => movFaults s w d d1
  | 5 => synFaults w d
  | _ => sclFaults s w

end Sys2Proof.Machine
end

