-- ==== Sys2Proof/Machine/Crc.lean ====
section
/-! DEFINITION. CRC-32C (01_boundary R37, side-band frames, packets, loads), the CRC-64 of 11_fabric_and_reduction R382,
and SHA-256 (12_management R411, R416). Both CRCs are computed reflected, least significant bit first (log 10). -/

namespace Sys2Proof.Machine

/-- n bits of a reflected CRC. -/
def crcBits (poly : Nat) : Nat → Nat → Nat
  | 0, c => c
  | n + 1, c => crcBits poly n (if c % 2 = 1 then (c / 2) ^^^ poly else c / 2)

/-- A reflected CRC over bytes, without the initial value and the final inversion. -/
def crcRun (poly : Nat) (c : Nat) (bs : List Byte) : Nat :=
  bs.foldl (fun c b => crcBits poly 8 (c ^^^ b.toNat)) c

/-- The running CRC-32C after more bytes; 0xFFFF_FFFF starts it. -/
def crc32cRun (c : Nat) (bs : List Byte) : Nat := crcRun 0x82F63B78 c bs

/-- The CRC-32C that a running value stands for. -/
def crc32cEnd (c : Nat) : Word := word (c ^^^ 0xFFFFFFFF)

/-- CRC-32C of a byte list. -/
def crc32c (bs : List Byte) : Word := crc32cEnd (crc32cRun 0xFFFFFFFF bs)

/-- The CRC-64 of R382. -/
def crc64 (bs : List Byte) : Nat := (crcRun 0xC96C5795D7870F42 (2 ^ 64 - 1) bs) ^^^ (2 ^ 64 - 1)

/-! ## SHA-256 -/

/-- The first n primes, found by trial division from c on; fuel bounds the search. -/
def primesFrom : Nat → Nat → Nat → List Nat
  | 0, _, _ => []
  | fuel + 1, n, c =>
    if n = 0 then []
    else if (List.range c).all fun d => decide (d < 2) || c % d != 0 then c :: primesFrom fuel (n - 1) (c + 1)
    else primesFrom fuel n (c + 1)

/-- The largest r of n bits with r ^ k ≤ x, bit by bit from acc. -/
def rootBits (k x : Nat) : Nat → Nat → Nat
  | 0, acc => acc
  | n + 1, acc => rootBits k x n (if (acc + 2 ^ n) ^ k ≤ x then acc + 2 ^ n else acc)

/-- The first 32 bits of the fraction of the k-th root of p: SHA-256 takes its round constants (k = 3, the first 64 primes) and
its initial words (k = 2, the first 8 primes) so. -/
def rootFraction (k p : Nat) : Word := word (rootBits k (p * 2 ^ (32 * k)) 38 0)

/-- The 64 round constants. -/
def shaConsts : List Word := (primesFrom 320 64 2).map (rootFraction 3)

/-- The initial chaining value, words 0 to 7. -/
def shaStart : List Word := (primesFrom 20 8 2).map (rootFraction 2)

/-- The exclusive or of a word rotated to the right by each of the amounts. -/
def rots (l : List Nat) (x : Word) : Word := (l.map x.rotateRight).foldl (· ^^^ ·) 0

/-- A round as a step of an eight-word shift register: the words move up by one place, a new word enters below, and the word
that reaches place 4 takes the first sum. kw is the round constant plus the schedule word. -/
def shaRound (v : List Word) (kw : Word) : List Word :=
  let w (i : Nat) : Word := v.getD i 0
  let pick := (w 6) ^^^ ((w 4) &&& (w 5 ^^^ w 6))
  let most := (w 0 &&& (w 1 ||| w 2)) ||| (w 1 &&& w 2)
  let t := w 7 + kw + pick + rots [6, 11, 25] (w 4)
  [t + most + rots [2, 13, 22] (w 0), w 0, w 1, w 2, w 3 + t, w 4, w 5, w 6]

/-- The message schedule: a window of the last sixteen words gives its oldest word and slides on. -/
def shaSchedule : Nat → List Word → List Word
  | 0, _ => []
  | n + 1, win =>
    let lo := win.getD 1 0
    let hi := win.getD 14 0
    let small := rots [7, 18] lo ^^^ (lo >>> 3)
    let large := rots [17, 19] hi ^^^ (hi >>> 10)
    win.headD 0 :: shaSchedule n (win.tail ++ [win.headD 0 + small + win.getD 9 0 + large])

/-- A big-endian word. -/
def beWord (bs : List Byte) : Word := word (leNat bs.reverse)

/-- The chaining value after one block of 64 bytes. -/
def shaBlock (v : List Word) (bs : List Byte) : List Word :=
  let win := (List.range 16).map fun i => beWord ((bs.drop (4 * i)).take 4)
  let kws := List.zipWith (· + ·) shaConsts (shaSchedule 64 win)
  List.zipWith (· + ·) v (kws.foldl shaRound v)

/-- n blocks. -/
def shaBlocks : Nat → List Word → List Byte → List Word
  | 0, v, _ => v
  | n + 1, v, bs => shaBlocks n (shaBlock v (bs.take 64)) (bs.drop 64)

/-- The 32 bytes of SHA-256 (R411, R416): the message, a byte 0x80, zeros up to 8 bytes before a block's end, its length in bits. -/
def sha256 (bs : List Byte) : List Byte :=
  let n := bs.length
  let blocks := (n + 72) / 64
  let msg := bs ++ 0x80 :: List.replicate (64 * blocks - 9 - n) (0 : Byte) ++ (leBytes 8 (8 * n)).reverse
  (shaBlocks blocks shaStart msg).flatMap fun w => (wordBytes w).reverse

end Sys2Proof.Machine
end

