-- ==== Sys2Proof/Machine/Packet.lean ====
section
/-! DEFINITION. Forming Galold packets (11_fabric R347 to R353) and handing them to a transmit channel (01_boundary R28,
R355, R366). -/

namespace Sys2Proof.Machine

/-- A fabric address (R347). -/
def fabAddr (chip space offset : Nat) : Nat := (chip <<< 52) + (space <<< 48) + offset

/-- The offset of a core in spaces 1, 2, 3 and 5 (R347). -/
def coreOffset (core low : Nat) : Nat := (core <<< 24) + low

/-- The route entry of a chip in one copy of the table (R351). -/
def routeIn (s : State) (copy : Bool) (chip : Nat) : Word := mget 0 (if copy then s.fab.routes1 else s.fab.routes0) chip

/-- The active route entry of a chip; the core's own chip is always reachable (R351). -/
def activeRoute (s : State) (chip : Nat) : Option Word :=
  let e := routeIn s s.fab.active chip
  if wbit e 31 then some e
  else if chip = s.straps.chip.toNat then some 0x80000000
  else none

/-- Path index of packet j under an entry (R353). -/
def pathIndex (e : Word) (j : Nat) : Nat := j % (wfld e 30 29 + 1)

/-- Egress id of a path. -/
def pathEgress (e : Word) (p : Nat) : Nat := wfld e (6 * p + 5) (6 * p)

/-- What the core puts into a packet (R348, R350): type, poison, destination, TAGX, path number j, EXT, JOB, W4 [21:0], W5,
W6, payload. -/
structure PktSpec where
  typ : Nat
  poison : Bool
  chip : Nat
  addr : Nat
  tagx : Nat
  j : Nat
  ext : Nat
  job : Nat
  w4 : Nat
  w5 : Word
  w6 : Word
  payload : List Byte
  deriving DecidableEq, Repr

/-- A packet of a type to an address of a chip, other fields 0, path 0, the core's job. -/
def PktSpec.to (s : State) (typ chip addr : Nat) : PktSpec :=
  ⟨typ, false, chip, addr, 0, 0, 0, s.job.id.toNat, 0, 0, 0, []⟩

/-- CRC of a packet: header bytes 0 to 27, then the payload (R348). -/
def packetCrc (h : W8) (payload : List Byte) : Word :=
  crc32c (wordsBytes [h.w0, h.w1, h.w2, h.w3, h.w4, h.w5, h.w6] ++ payload)

/-- The header of a packet that leaves by an egress id (R348, R350). -/
def mkHdr (s : State) (p : PktSpec) (egress : Nat) : W8 :=
  let w0 := word ((p.typ <<< 27) + (b2n p.poison <<< 26) + (egress <<< 20) + (p.payload.length <<< 8) + p.tagx % 256)
  let w3 := word ((s.straps.chip.toNat <<< 20) + (s.straps.core.toNat <<< 8) + p.ext % 256)
  let h : W8 := ⟨w0, word p.addr, word (p.addr >>> 32), w3, word ((p.job <<< 22) + p.w4 % 2 ^ 22), p.w5, p.w6, 0⟩
  { h with w7 := packetCrc h p.payload }

/-- Flits of a packet (R348). -/
def flitsOf (plen : Nat) : Nat := ceilDiv (32 + plen) 64

/-- A packet formed and queued to its transmit channel, no earlier than engine clk due; none where its chip has no route (R352,
R353). live: the instruction that completes at the hand-off. -/
def queuePacket (p : PktSpec) (due : Nat) (req : Option Outst) (live : Option Nat) (s : State) : Option State :=
  match activeRoute s p.chip with
  | none => none
  | some e =>
    let path := pathIndex e p.j
    let t : TxPkt := ⟨mkHdr s p (pathEgress e path), p.payload, path % 2, due, req, live⟩
    some { s with fab := { s.fab with txq := s.fab.txq ++ [t] } }

/-- The packet of an instruction, or FAB_NOROUTE (R353, R460). -/
def queueInst (slot : Nat) (e : Entry) (p : PktSpec) (due : Nat) (req : Option Outst) (live : Option Nat) (s : State) : State :=
  match queuePacket p due req live s with
  | some t => t
  | none => raise 0x60 (FaultCtx.ofEntry slot e p.chip p.typ) s

/-- FAB_DROP counts a discarded packet (R356, R362). -/
def fabDrop (s : State) : State :=
  bump 0x142 1 { s with fab := { s.fab with fabDrop := satCount 16 (s.fab.fabDrop + 1) } }

/-- A reply or probe answer; without a route it is discarded and counted (R353). -/
def queueReply (p : PktSpec) (s : State) : State :=
  match queuePacket p s.clock.ek none none s with
  | some t => t
  | none => fabDrop s

/-- Tags of the requests outstanding or queued. -/
def usedTags (s : State) : List Nat :=
  s.fab.outst.map (·.tagx) ++ s.fab.txq.filterMap fun p => p.req.map (·.tagx)

/-- A TAGX that no outstanding request has (R350); which one is open (log 41). -/
def freshTag (s : State) : Nat × State :=
  let start := Config.freeNat s.free % 256
  let used := usedTags s
  let tag := match (List.range 256).find? fun i => !used.contains ((start + i) % 256) with
    | some i => (start + i) % 256
    | none => start
  (tag, { s with free := s.free + 1 })

/-- Requests of GET kind, or of the other kinds, outstanding or queued (R355). -/
def requests (s : State) (get : Bool) : Nat :=
  ((s.fab.outst ++ s.fab.txq.filterMap (·.req)).filter fun o => (o.typ == 2) == get).length

/-- One more request of a kind is within R355. -/
def requestRoom (s : State) (get : Bool) : Bool := decide (requests s get < if get then 64 else 128)

/-- Credits of a transmit channel. -/
def txCredit (s : State) (ch : Nat) : Nat := if ch = 0 then s.fab.txCred0 else s.fab.txCred1

/-- The first packet of a channel that may be handed over in this clk (R28, R366). -/
def readyPacket (s : State) (ch : Nat) : Option TxPkt :=
  match s.fab.txq.find? fun p => p.ch == ch with
  | some p =>
    if portOk s && decide (p.due ≤ s.clock.ek) && decide ((if ch = 0 then s.fab.busy0 else s.fab.busy1) ≤ s.clock.clk) &&
        decide (flitsOf p.payload.length ≤ txCredit s ch) then some p else none
  | none => none

/-- The packet that ends instruction id has been handed off: it completes, a CSEND in its turn among the RSU's instructions
(R330, R335). -/
def handedOff (id : Nat) (s : State) : State :=
  if s.rsu.push.any fun p => p.e.id == id then
    { s with rsu := { s.rsu with push := s.rsu.push.map fun p => if p.e.id == id then { p with handed := true } else p } }
  else complete id s

/-- A packet handed to its channel: credits spent, the request outstanding, the packet on the wire (R28, R355, R366). -/
def handOver (p : TxPkt) (s : State) : State :=
  let n := flitsOf p.payload.length
  let f := s.fab
  let f := { f with
    txq := f.txq.erase p
    wire := p :: f.wire
    outst := match p.req with
      | some o => f.outst ++ [o]
      | none => f.outst }
  let f := if p.ch = 0 then { f with txCred0 := f.txCred0 - n, busy0 := s.clock.clk + n }
    else { f with txCred1 := f.txCred1 - n, busy1 := s.clock.clk + n }
  let s := bump 0x140 n (bump (0x100 + 2 * wfld p.hdr.w0 31 27) 1 { s with fab := f })
  match p.liveId with
  | some i => handedOff i s
  | none => s

end Sys2Proof.Machine
end

