-- ==== Sys2Proof/Machine/Operands.lean ====
section
/-! DEFINITION. Element streams: how they are popped and pushed line by line (02_numbers R56, R57, 05_arrays R172, 07_vector
R217, R219, R234), and how values become codes with their rounding keys (02_numbers R71 to R80). -/

namespace Sys2Proof.Machine

/-! ## Streams being pushed -/

/-- A stream of elements of format f (none: w-bit words with no scale). -/
def LineOut.ofFmt (f rowlen total : Nat) : LineOut :=
  ⟨fmtBits f, 8 * fmtScaleBytes f, rowlen, total, BitBuf.empty, BitBuf.empty, 0, [], 0⟩

/-- A stream of w-bit elements. -/
def LineOut.ofBits (w total : Nat) : LineOut := ⟨w, 0, 1, total, BitBuf.empty, BitBuf.empty, 0, [], 0⟩

/-- The open line and the scales of the segment become lines, padded with zeros (R172, R217). -/
def LineOut.close (o : LineOut) : LineOut :=
  { o with bits := BitBuf.empty, scales := BitBuf.empty, lineq := o.lineq ++ (allLines o.bits ++ allLines o.scales).map fun l => (l, o.pos) }

/-- One element code with its block scale. -/
def LineOut.put1 (o : LineOut) (x : Nat × Nat) : LineOut :=
  let b := o.bits.push o.w x.1
  let seg := o.pos % max o.rowlen 1
  let sc := if o.sw > 0 ∧ seg % 32 = 0 then o.scales.push o.sw x.2 else o.scales
  let p := o.pos + 1
  let o1 := { o with bits := b, scales := sc, pos := p }
  if o.sw > 0 ∧ (p % max o.rowlen 1 = 0 ∨ p = o.total) then o1.close
  else if b.len ≥ 512 then { o1 with bits := b.drop 512, lineq := o.lineq ++ [(b.take 512, if b.len = 512 then p else o.pos)] }
  else o1

/-- A list of element codes. -/
def LineOut.put (o : LineOut) (xs : List (Nat × Nat)) : LineOut := xs.foldl LineOut.put1 o

/-- The end of the stream: what is left is padded into lines. -/
def LineOut.finish (o : LineOut) : LineOut := if o.bits.len > 0 ∨ o.scales.len > 0 then o.close else o

/-- The stream after its first n formed lines have left. -/
def LineOut.leave (o : LineOut) (n : Nat) : LineOut :=
  { o with lineq := o.lineq.drop n, sent := match (o.lineq.take n).getLast? with | some l => l.2 | none => o.sent }

/-- The lines formed leave for channel c, as many as it takes in this clk and at most m. -/
def LineOut.drainUpTo (m c : Nat) (o : LineOut) (s : State) : LineOut × State :=
  let n := min m (min (chRoom s c) o.lineq.length)
  (o.leave n, chPush c (plainLines ((o.lineq.take n).map (·.1))) s)

/-- The lines formed leave for channel c, as many as it takes in this clk. -/
def LineOut.drain (c : Nat) (o : LineOut) (s : State) : LineOut × State := LineOut.drainUpTo o.lineq.length c o s

/-! ## Streams being popped -/

/-- Lines still to pop for n elements of width w in all. -/
def linesFor (w n : Nat) (st : InStream) : Nat :=
  let bits := (n - st.ready.length) * w
  if bits ≤ st.bits.len then 0 else ceilDiv (bits - st.bits.len) 512

/-- Lines of an operand that takes more of them than one channel end moves in a clk are popped ahead of the step until the rest
fits in one clk (R109, log 81). -/
def fetchAhead (ep c w n : Nat) (st : InStream) (s : State) : InStream × State :=
  let lines := linesFor w n st
  if lines ≤ endLimit s then (st, s)
  else
    match chTake c ep (min (lines - endLimit s) (chAvail s c ep)) s with
    | none => (st, s)
    | some (ls, t) => ({ st with bits := ls.foldl (fun (acc : BitBuf) l => acc.push 512 l.data) st.bits }, t)

/-- n elements of width w ready at the consumer ep of channel c, popping the lines that takes; none where those lines
cannot all be popped in this clk (R109). -/
def fetchElems (ep c w n : Nat) (st : InStream) (s : State) : Option (InStream × State) :=
  let have_ := st.ready.length
  if n ≤ have_ then some (st, s)
  else
    let lines := linesFor w n st
    match chTake c ep lines s with
    | none => none
    | some (ls, t) =>
      let b := ls.foldl (fun (acc : BitBuf) l => acc.push 512 l.data) st.bits
      let k := n - have_
      let codes := (unpackElems w k (b.take (w * k))).map fun x => (x, 0)
      some ({ st with bits := b.drop (w * k), ready := st.ready ++ codes }, t)

/-- Element and scale lines of one segment of n elements of a block-scaled format (R217). -/
def segLines (f n : Nat) : Nat × Nat := (ceilDiv (n * fmtBits f) 512, ceilDiv (ceilDiv n 32 * 8 * fmtScaleBytes f) 512)

/-- The codes of a whole segment with their block scales. -/
def decodeSeg (f n : Nat) (lines : List Nat) : List (Nat × Nat) :=
  let el := (segLines f n).1
  let bits := (lines.take el).foldl (fun (acc : BitBuf) l => acc.push 512 l) BitBuf.empty
  let sc := (lines.drop el).foldl (fun (acc : BitBuf) l => acc.push 512 l) BitBuf.empty
  (List.range n).map fun i => (packedElem (fmtBits f) bits.val i, packedElem (8 * fmtScaleBytes f) sc.val (i / 32))

/-- Lines of a block-scaled stream taken as they come, until n elements are ready (R217): at most k segments. The elements
of a segment are ready when its last line has been popped. -/
def pullBlocks (ep c f rowlen len n : Nat) : Nat → InStream → State → InStream × State
  | 0, st, s => (st, s)
  | k + 1, st, s =>
    let done := st.taken + st.ready.length
    if st.ready.length ≥ n ∨ done ≥ len then (st, s)
    else
      let seg := min rowlen (len - done)
      let need := (segLines f seg).1 + (segLines f seg).2
      let m := min (need - st.lines.length) (chAvail s c ep)
      match chTake c ep m s with
      | none => (st, s)
      | some (ls, t) =>
        let lines := st.lines ++ ls.map (·.data)
        if lines.length = need then
          pullBlocks ep c f rowlen len n k { st with lines := [], ready := st.ready ++ decodeSeg f seg lines } t
        else ({ st with lines := lines }, t)

/-- The stream after the elements below index i have been used. -/
def InStream.dropTo (st : InStream) (i : Nat) : InStream :=
  let k := min st.ready.length (i - st.taken)
  { st with ready := st.ready.drop k, taken := st.taken + k }

/-- Element i of a stream, code and block scale. -/
def InStream.at (st : InStream) (i : Nat) : Nat × Nat := st.ready.getD (i - st.taken) (0, 0)

/-! ## Values and codes -/

/-- The value of an element code of format f under its block scale code (R52, R58 to R60). -/
def elemVal (f : Nat) (x : Nat × Nat) : FVal := if fmtBlock f then decodeBlockElem f x.2 x.1 else decodeElem f x.1

/-- The generator word of an element where CONV selects stochastic rounding (R71, R79). -/
def srFor (conv : Nat) (seed : BitVec 64) (k : SrKey) (i : Nat) : Word := if conv % 4 = 2 then srWord seed k i else 0

/-- Lists of at most 32 values. -/
def chunks32 {α : Type} : Nat → List α → List (List α)
  | 0, _ => []
  | n + 1, l => if l.isEmpty then [] else l.take 32 :: chunks32 n (l.drop 32)

/-- Values converted to format f under CONV, the first one with element index i0 (R72 to R77): codes with block scales. -/
def convVals (f conv : Nat) (seed : BitVec 64) (k : SrKey) (i0 : Nat) (vs : List FVal) : List (Nat × Nat) :=
  if fmtBlock f then
    ((chunks32 (vs.length + 1) vs).zipIdx).flatMap fun p =>
      let rs := (List.range p.1.length).map fun j => srFor conv seed k (i0 + 32 * p.2 + j)
      let r := convertBlock f conv rs p.1
      r.2.map fun c => (c, r.1)
  else vs.mapIdx fun j v => (convertElem f conv (srFor conv seed k (i0 + j)) v, 0)

/-- Values converted by the tail of a descriptor; FP32 without one (R114, R226, R262). -/
def tailConv (e : Entry) (seed : BitVec 64) (i0 : Nat) (vs : List FVal) : List (Nat × Nat) :=
  if e.cvt then convVals e.fmtOut e.conv seed e.srKey i0 vs else convVals 0 0 seed e.srKey i0 vs

/-- The format that an instruction with an optional tail pushes; FP32 without one. -/
def tailFmt (e : Entry) : Nat := if e.cvt then e.fmtOut else 0

/-- floor of a finite value. -/
def FVal.floorInt (v : FVal) : Int :=
  match v with
  | .fin neg num den e =>
    let r := shiftFrac num den e
    if neg then -((ceilDiv r.1 r.2 : Nat) : Int) else ((r.1 / r.2 : Nat) : Int)
  | _ => 0

/-- floor of a value between 0 and m, 0 below and m above, at +infinity too (R246). -/
def FVal.floorUpTo (m : Nat) (v : FVal) : Nat :=
  match v with
  | .inf false => m
  | _ => min m v.floorInt.toNat

/-- floor(sqrt n) from bit k − 1 down. -/
def isqrtBits : Nat → Nat → Nat → Nat
  | 0, _, r => r
  | k + 1, n, r =>
    let t := r + 2 ^ k
    isqrtBits k n (if t * t ≤ n then t else r)

/-- A value that rounds as the exact square root does (R81): its integer part carries 160 bits more than any format and a
sticky half. -/
def FVal.sqrt (v : FVal) : FVal :=
  match v with
  | .nan => .nan
  | .inf neg => if neg then .nan else .inf false
  | .fin neg num den e =>
    if num = 0 then .fin neg 0 1 0
    else if neg then .nan
    else
      let odd := e % 2 != 0
      let num := if odd then num * 2 else num
      let e := if odd then e - 1 else e
      let n := (num <<< 640) / den
      let r := isqrtBits (Nat.log2 n / 2 + 1) n 0
      let exact := decide (r * r = n) && (num <<< 640) % den == 0
      .fin false (if exact then 2 * r else 2 * r + 1) 1 (e / 2 - 321)

end Sys2Proof.Machine
end

