-- ==== Sys2Proof/Machine/Walk.lean ====
section
/-! DEFINITION. Walks over the pool and the line layouts of stream generators (09_pool_and_movement R287 to R295), and pool
accesses element by element (R277, R278). -/

namespace Sys2Proof.Machine

/-! ## Walks (R287 to R289, R293, R294) -/

/-- A walk: origin, extents, strides in bytes, element bits, whether dimension 0 is packed bit by bit, clipping. -/
structure Walk where
  base : Nat
  ext : List Nat
  str : List Int
  w : Nat
  packed : Bool
  group : Bool
  cut0 : Nat
  cut1 : Nat

/-- SH_d of W0 as a factor (R287). -/
def strideUnit (d : W8) (n : Nat) : Int := 4 ^ d.fld 0 (2 * n + 1) (2 * n)

/-- The extents of a stream descriptor (R288). -/
def walkExt (d : W8) : List Nat :=
  [d.fld 2 31 20 + 1, d.fld 3 31 20 + 1, d.fld 4 31 20 + 1, d.fld 5 31 20 + 1, d.fld 1 31 24 + 1, d.fld 6 31 24 + 1]

/-- The strides of a stream descriptor in bytes (R288, R289). -/
def walkStr (d : W8) : List Int :=
  ([d.fld 2 19 0, d.fld 3 19 0, d.fld 4 19 0, d.fld 5 19 0, d.fld 6 19 0, d.fld 7 19 0]).mapIdx fun n v =>
    sext 20 v * strideUnit d n

/-- The walk of a descriptor with elements of w bits. -/
def walkOf (d : W8) (w : Nat) : Walk :=
  ⟨d.fld 1 23 0, walkExt d, walkStr d, w, decide (w < 8), wbit d.w0 15, d.fld 7 31 26, d.fld 7 25 20⟩

/-- The indices i0, i1, … of position p of a walk (R289). -/
def walkIdx : List Nat → Nat → List Nat
  | [], _ => []
  | e :: es, p => p % max e 1 :: walkIdx es (p / max e 1)

/-- The bit address of a position (R289, R294). -/
def walkBit (k : Walk) (idx : List Nat) : Nat :=
  let off := (List.zipWith (fun (i : Nat) (st : Int) => (i : Int) * st) idx k.str).foldl (· + ·) (0 : Int)
  ((k.base : Int) + off).toNat * 8 + (if k.packed then idx.headD 0 * k.w else 0)

/-- A position is clipped (R293). -/
def walkClipped (k : Walk) (idx : List Nat) : Bool :=
  let i0 := idx.getD 0 0
  let i1 := idx.getD 1 0
  let e0 := k.ext.getD 0 1
  let e1 := k.ext.getD 1 1
  if k.group then decide (i0 + 32 * i1 + k.cut0 ≥ 32 * e1)
  else decide (i0 + k.cut0 ≥ e0) || decide (i1 + k.cut1 ≥ e1)

/-- Positions of a walk. -/
def walkSize (k : Walk) : Nat := k.ext.foldl (· * ·) 1

/-- lo and hi of R289, as integers. -/
def walkRange (k : Walk) : Int × Int :=
  let spans := List.zipWith (fun (e : Nat) (st : Int) => ((e : Int) - 1) * st) k.ext k.str
  let neg := spans.foldl (fun a x => if x < 0 then a + x else a) (0 : Int)
  let pos := spans.foldl (fun a x => if x > 0 then a + x else a) (0 : Int)
  let unit : Nat := if k.packed then ceilDiv (k.ext.headD 1 * k.w) 8 else k.w / 8
  ((k.base : Int) + neg, (k.base : Int) + pos + unit - 1)

/-- Every byte of a walk lies in area x (R289). -/
def walkInArea (s : State) (x : Nat) (k : Walk) : Bool :=
  let r := walkRange k
  decide (0 ≤ r.1) && engArea s x r.1.toNat r.2.toNat

/-- Alignment and packed-dimension rules (R289, R294). q: the multiple that EXT0 must have in a packed walk. -/
def walkAligned (k : Walk) (sh0 q : Nat) : Bool :=
  if k.packed then k.str.headD 0 == 0 && sh0 == 0 && k.ext.headD 1 % q == 0
  else
    let b := k.w / 8
    k.base % b == 0 && (List.zip k.ext k.str).all fun p => p.1 == 1 || p.2 % (b : Int) == 0

/-- Multiple of EXT0 for packed elements of w bits (R289, R294). -/
def packUnit (w : Nat) : Nat := if w = 1 then 8 else if w = 4 then 2 else if w = 6 then 4 else 1

/-- Each CUT lies below the extent it cuts; CUT1 is 0 in group mode (R293). -/
def walkCuts (k : Walk) : Bool :=
  if k.group then decide (k.cut0 < 32 * k.ext.getD 1 1) && k.cut1 == 0
  else decide (k.cut0 < k.ext.getD 0 1) && decide (k.cut1 < k.ext.getD 1 1)

/-! ## Pool accesses bit by bit (R277, R278) -/

/-- The bytes that bits b to b + w − 1 touch, each with the bit offset in the byte, the number of bits and the place of the
first of them in the element. -/
def bitPieces (b w : Nat) : List (Nat × Nat × Nat × Nat) :=
  (List.range ((b % 8 + w + 7) / 8)).map fun i =>
    let lo := max b (8 * (b / 8 + i))
    let hi := min (b + w) (8 * (b / 8 + i) + 8)
    (b / 8 + i, lo % 8, hi - lo, lo - b)

/-- w bits of the pool from bit address b. -/
def readBits (m : List Host.Cell) (b w : Nat) : Nat :=
  let bytes := readBytes m (b / 8) ((b % 8 + w + 7) / 8)
  (leNat bytes >>> (b % 8)) % 2 ^ w

/-- ECC words in order of first use. -/
def wordsOf (bits : List (Nat × Nat)) : List Nat :=
  (bits.flatMap fun x => (bitPieces x.1 x.2).map fun p => p.1 / 8).eraseDups

/-- Every word read by a client once: counts, and the byte address of the first uncorrectable one (R277). -/
def touchWords (ws : List Nat) (s : State) : State × Option Nat :=
  let s := eccMistakes ws s
  let bad := ws.find? fun w => eccState s w == 2
  let rows := (ws.map (· / 4)).eraseDups
  let t := ws.foldl (fun u w => eccTouch w u) s
  let t := rows.foldl (fun u r => bumpBank (32 * r) u) t
  (if ws.isEmpty then t else touch t, bad.map (· * 8))

/-- The elements at bit addresses read by a client: the state, the codes, the first bad word's address. -/
def readElems (bits : List (Nat × Nat)) (s : State) : State × List Nat × Option Nat :=
  let (t, bad) := touchWords (wordsOf bits) s
  (t, bits.map fun x => readBits t.pool.mem x.1 x.2, bad)

/-- What one access writes of an ECC word: the pieces (byte, bit offset, bits, value) that fall in it (R278). A word not
covered in full is read first, and not written where that read is uncorrectable or poisoned. -/
def writeWordBits (ps : List (Nat × Nat × Nat × Nat)) (w : Nat) (s : State) : State × Option Nat :=
  let mine := ps.filter fun p => p.1 / 8 == w
  let cover := mine.foldl (fun (a : Nat) p => a ||| ((2 ^ p.2.2.1 - 1) <<< (8 * (p.1 % 8) + p.2.1))) 0
  let whole := cover == 2 ^ 64 - 1
  let s := if whole then s else eccTouch w (eccMistakes [w] s)
  if !whole && eccState s w == 2 then (s, some (8 * w))
  else
    let old := leNat (readBytes s.pool.mem (8 * w) 8)
    let new_ := mine.foldl (fun (a : Nat) p =>
      let lo := 8 * (p.1 % 8) + p.2.1
      setFld a (lo + p.2.2.1 - 1) lo p.2.2.2) old
    ({ s with pool := { s.pool with
        mem := writeBytes s.pool.mem (8 * w) (leBytes 8 new_)
        poison := mset false s.pool.poison w false
        upset := mset 0 s.pool.upset w 0
        writeback := s.pool.writeback.filter (· != w) } }, none)

/-- Elements (bit address, bits, code) written in order by a client: the state and the first word that could not be. -/
def writeElems (els : List (Nat × Nat × Nat)) (s : State) : State × Option Nat :=
  let ps := els.flatMap fun x => (bitPieces x.1 x.2.1).map fun p => (p.1, p.2.1, p.2.2.1, x.2.2 >>> p.2.2.2)
  let ws := (ps.map fun p => p.1 / 8).eraseDups
  let rows := (ws.map (· / 4)).eraseDups
  let r := ws.foldl (fun (acc : State × Option Nat) w =>
    let (t, b) := writeWordBits ps w acc.1
    (t, acc.2.orElse fun _ => b)) (s, none)
  let t := rows.foldl (fun u x => bumpBank (32 * x) u) r.1
  (if ws.isEmpty then t else touch t, r.2)

/-- The rows that bits b to b + n − 1 lie in. -/
def bitRows (b n : Nat) : List Nat := if b / 256 = (b + n - 1) / 256 then [b / 256] else [b / 256, (b + n - 1) / 256]

/-- Elements from the front of a list whose rows need no more than the row accesses left in a clk. -/
def rowSpan : List (Nat × Nat) → List Nat → Nat → Nat
  | [], _, _ => 0
  | x :: t, rows, left =>
    let need := (bitRows x.1 x.2).filter fun r => !rows.contains r
    if need.length > left then 0 else 1 + rowSpan t (rows ++ need) (left - need.length)

/-! ## Lines of a stream (R162, R163, R290 to R292, R294) -/

/-- What bits of a line are: pieces of elements of the main walk or of the scale walk, from bit 0 on; each piece gives the
plane (true: scales), the position of the walk, the first bit of the element that the line carries and the number of bits. -/
abbrev LineMap := List (Bool × Nat × Nat × Nat)

/-- The pieces of elements of w bits that bits lo to hi − 1 of a packed run hold; element j is position base + j, for
j < n. -/
def runPieces (scale : Bool) (w base n lo hi : Nat) : LineMap :=
  let hi := min hi (n * w)
  if lo ≥ hi then []
  else
    (List.range ((hi - 1) / w + 1 - lo / w)).map fun i =>
      let j := lo / w + i
      let a := max lo (j * w)
      let b := min hi ((j + 1) * w)
      (scale, base + j, a - j * w, b - a)

/-- Lines of n packed elements of w bits. -/
def runLines (w n : Nat) : Nat := ceilDiv (n * w) 512

/-- Line l of a plain stream (R290): segments of n elements, each with its scale lines. -/
def plainLine (w sw n l : Nat) : LineMap :=
  let le := runLines w n
  let ls := if sw = 0 then 0 else runLines sw (n / 32)
  let seg := l / (le + ls)
  let r := l % (le + ls)
  if r < le then runPieces false w (seg * n) n (512 * r) (512 * r + 512)
  else runPieces true sw (seg * (n / 32)) (n / 32) (512 * (r - le)) (512 * (r - le) + 512)

/-- Lines that a group of 32 elements of w bits takes, or groups that a line takes: lines of m groups (R162, R299). -/
def groupLines (w m : Nat) : Nat := if w = 32 then 2 * m else ceilDiv m (if w = 16 then 1 else if w = 4 then 4 else 2)

/-- Line l of m groups whose first element is position base (R162). -/
def groupLine (w base m l : Nat) : LineMap :=
  if w = 32 then runPieces false w (base + 32 * (l / 2)) 32 (512 * (l % 2)) (512 * (l % 2) + 512)
  else
    let g := if w = 16 then 1 else if w = 4 then 4 else 2
    (List.range (min g (m - g * l))).flatMap fun i => runPieces false w (base + 32 * (g * l + i)) 32 0 (32 * w)

/-- Scale lines of a k-block (R163). -/
def blockScaleLines (sw h : Nat) : Nat := if sw = 0 then 0 else if sw = 16 then h else 1

/-- Line l of one sweep of a group-mode stream: kk k-steps of h groups, a k-block of 32 k-steps after its scale lines
(R163, R291). base and sbase: first positions of the sweep in the element and scale walks. -/
def sweepLine (w sw h kk base sbase l : Nat) : LineMap :=
  if sw = 0 then groupLine w base (kk * h) l
  else
    let ls := blockScaleLines sw h
    let per := ls + groupLines w (32 * h)
    let b := l / per
    let r := l % per
    if r < ls then runPieces true sw (sbase + b * 32 * h) (32 * h) (512 * r) (512 * r + 512)
    else groupLine w (base + b * 32 * 32 * h) (min 32 (kk - 32 * b) * h) (r - ls)

/-- Lines of one sweep. -/
def sweepLines (w sw h kk : Nat) : Nat :=
  if sw = 0 then groupLines w (kk * h)
  else
    let full := kk / 32
    let rest := kk % 32
    full * (blockScaleLines sw h + groupLines w (32 * h)) +
      (if rest = 0 then 0 else blockScaleLines sw h + groupLines w (rest * h))

/-- The stream of a generator's instruction: element and scale widths, walks, and how lines are laid out. -/
structure GenStream where
  k : Walk
  ks : Walk
  w : Nat
  sw : Nat
  segn : Nat

/-- Product of the extents 0 to n. -/
def extProd (l : List Nat) (n : Nat) : Nat := (l.take (n + 1)).foldl (· * ·) 1

/-- The stream of a RD, WR, RDM or WRM entry. -/
def genStream (e : Entry) : GenStream :=
  let mask := e.op == 3 || e.op == 4
  let f := e.d.fld 0 22 19
  let w := if mask then 1 else fmtBits f
  let sw := if mask then 0 else 8 * fmtScaleBytes f
  let k := walkOf e.d w
  ⟨k, walkOf e.d1 sw, w, sw, if mask then walkSize k else extProd k.ext (e.d.fld 0 14 12)⟩

/-- k-steps of a group-mode sweep and its groups per k-step. -/
def GenStream.sweep (g : GenStream) : Nat × Nat := (g.k.ext.getD 2 1, g.k.ext.getD 1 1)

/-- Lines of the whole stream. -/
def genLines (g : GenStream) : Nat :=
  if g.k.group then
    let (kk, h) := g.sweep
    sweepLines g.w g.sw h kk * (walkSize g.k / max 1 (32 * h * kk))
  else
    (walkSize g.k / max 1 g.segn) * (runLines g.w g.segn + (if g.sw = 0 then 0 else runLines g.sw (g.segn / 32)))

/-- Scales that the stream needs (R292). -/
def genScales (g : GenStream) : Nat :=
  if g.sw = 0 then 0
  else if g.k.group then
    let (kk, h) := g.sweep
    ceilDiv kk 32 * 32 * h * (walkSize g.k / max 1 (32 * h * kk))
  else walkSize g.k / max 1 g.segn * (g.segn / 32)

/-- Line l of the stream. -/
def genLine (g : GenStream) (l : Nat) : LineMap :=
  if g.k.group then
    let (kk, h) := g.sweep
    let per := max 1 (sweepLines g.w g.sw h kk)
    let sw := l / per
    sweepLine g.w g.sw h kk (sw * 32 * h * kk) (sw * ceilDiv kk 32 * 32 * h) (l % per)
  else plainLine g.w g.sw g.segn l

/-- The bit address of a piece of a line; none where the position is clipped (R293). -/
def pieceBit (g : GenStream) (p : Bool × Nat × Nat × Nat) : Option (Nat × Nat) :=
  let k := if p.1 then g.ks else g.k
  let idx := walkIdx k.ext p.2.1
  if !p.1 && walkClipped k idx then none else some (walkBit k idx + p.2.2.1, p.2.2.2)

/-- Where each piece of group-mode lines starts in the line: groups of 6-bit elements stand at 24-byte places, so pieces
follow each other without gaps. -/
def packPieces : List (Nat × Nat) → Nat
  | [] => 0
  | (v, n) :: t => v % 2 ^ n + (packPieces t <<< n)

/-- A line read from the pool: the state, the line, the first bad word (R277, R293). -/
def readLine (g : GenStream) (l : Nat) (s : State) : State × Nat × Option Nat :=
  let ps := genLine g l
  let at_ := ps.map (pieceBit g)
  let (t, bad) := touchWords (wordsOf (at_.filterMap id)) s
  let vals := List.zipWith (fun (p : Bool × Nat × Nat × Nat) (o : Option (Nat × Nat)) =>
    (match o with
      | some b => readBits t.pool.mem b.1 b.2
      | none => 0, p.2.2.2)) ps at_
  (t, packPieces vals, bad)

/-- The elements that a popped line writes, clipped ones left out (R293, R296). -/
def lineElems (g : GenStream) : LineMap → Nat → List (Nat × Nat × Nat)
  | [], _ => []
  | p :: t, v =>
    let rest := lineElems g t (v >>> p.2.2.2)
    match pieceBit g p with
    | some b => (b.1, b.2, v % 2 ^ b.2) :: rest
    | none => rest

/-- A popped line written to the pool. -/
def writeLine (g : GenStream) (l v : Nat) (s : State) : State × Option Nat := writeElems (lineElems g (genLine g l) v) s

/-- The start checks of a generator's instruction (R289 to R294). -/
def genOk (s : State) (e : Entry) : Bool :=
  let g := genStream e
  let k := g.k
  walkAligned k (e.d.fld 0 1 0) (packUnit g.w) && walkInArea s (e.d.fld 0 18 16) k && walkCuts k &&
    (!k.group || (k.ext.getD 0 1 == 32 && decide (k.ext.getD 1 1 ≤ 2) && e.d.fld 0 14 12 == 2)) &&
    (g.sw == 0 || ((k.group || g.segn % 32 == 0) && g.ks.cut0 == 0 && g.ks.cut1 == 0 && walkSize g.ks == genScales g &&
      walkAligned g.ks 0 1 && walkInArea s (e.d1.fld 0 18 16) g.ks))

end Sys2Proof.Machine
end

