-- ==== Sys2Proof/Machine/Gather.lean ====
section
/-! DEFINITION. The gather engine (09_pool_and_movement R306 to R312): GATH, SCST, SCADD and their entries. -/

namespace Sys2Proof.Machine

/-! ## Fields (R307) -/

/-- Element bits of a gather descriptor. -/
def gBits (e : Entry) : Nat := fmtBits (e.d.fld 0 22 19)
/-- TSPACE = 1: the table is in external memory (R307). -/
def gExt (e : Entry) : Bool := wbit e.d.w0 18
/-- OOB (R307). -/
def gOob (e : Entry) : Nat := e.d.fld 0 17 16
/-- MASK_EN (R307). -/
def gMask (e : Entry) : Bool := wbit e.d.w0 15
/-- BLEN (R307). -/
def gLen (e : Entry) : Nat := e.d.fld 2 31 20 + 1
/-- CNTO_CH (R307). -/
def gCnto (e : Entry) : Nat := e.d.fld 2 13 8
/-- TBASE (R307). -/
def gBase (e : Entry) : Nat := if gExt e then e.d.w3.toNat + (e.d.fld 4 7 0 <<< 32) else e.d.fld 3 23 0
/-- Extents E0 to E3 (R307). -/
def gDims (e : Entry) : List Nat := [e.d.fld 6 30 0 + 1, e.d.fld 7 31 22 + 1, e.d.fld 7 21 12 + 1, e.d.fld 7 11 2 + 1]
/-- Bytes of a block. -/
def gBytes (e : Entry) : Nat := gLen e * gBits e / 8

/-- The start checks of R308 and R320. -/
def gatherOk (s : State) (e : Entry) : Bool :=
  let n := e.d.fld 1 24 0
  let w := gBits e
  let blocks := (gDims e).foldl (· * ·) 1
  let b := max 1 (w / 8)
  decide (1 ≤ n) && decide (n ≤ 2 ^ 24) && gLen e % packUnit w == 0 && gBase e % b == 0 &&
    (blocks == 1 || e.d.w5.toNat % b == 0) &&
    (!gExt e || decide (gBase e + e.d.w5.toNat * (blocks - 1) + gBytes e ≤ 2 ^ 40)) &&
    (gExt e || engArea s (e.d.fld 0 14 12) (gBase e) (gBase e + e.d.w5.toNat * (blocks - 1) + gBytes e - 1))

/-- The engine at the start of an instruction. -/
def mkGath (e : Entry) (len : Nat) : Gath :=
  ⟨e, len, 0, .init, .init, .init, { LineOut.ofFmt (e.d.fld 0 22 19) 1 (len * gLen e) with sw := 0 }, 0, none, [], [], none, none, 0⟩

/-- A gather instruction starts if the engine is idle; with LSRC = 1 once its count can be popped (R236, R312). -/
def startGather (op : Nat) (s : State) : State :=
  match headFor s 4 op with
  | none => s
  | some e =>
    if s.mov.gath.isSome then s
    else
      let go (len : Nat) (s : State) : State :=
        let t := dequeue 4 s
        if len > e.d.fld 1 24 0 || !gatherOk s e then descBound 4 e t
        else { t with mov := { t.mov with gath := some (mkGath e len) } }
      if wbit e.d.w1 31 then
        match chTake (e.d.fld 1 30 25) 9 1 s with
        | some (ls, t) => go ((ls.map (·.data)).headD 0 % 2 ^ 32) t
        | none => s
      else go (e.d.fld 1 24 0) s

/-- GATH (R309). -/
def execGath (s : State) : Host.Outcome State Fault Refusal := .next (startGather 0x18 s)
/-- SCST (R310). -/
def execScst (s : State) : Host.Outcome State Fault Refusal := .next (startGather 0x19 s)
/-- SCADD (R310). -/
def execMovScadd (s : State) : Host.Outcome State Fault Refusal := .next (startGather 0x1A s)

/-! ## Entries (R308 to R312) -/

/-- What an entry does (R308). -/
inductive EntryPlan where
  | skip
  | at (block : Nat)
  | bound (coord : Int)
  deriving DecidableEq, Repr

/-- The four coordinates of an entry of 128 bits (R306). -/
def entryCoords (v : Nat) : List Int := (List.range 4).map fun d => sext 32 (v >>> (32 * d))

/-- The block number of coordinates (R308). -/
def blockNo (dims : List Nat) (cs : List Int) : Nat :=
  (List.zip dims cs).foldr (fun p a => p.2.toNat + p.1 * a) 0

/-- The plan of an entry under its mask bit and OOB (R308). -/
def planEntry (e : Entry) (masked : Bool) (v : Nat) : EntryPlan :=
  let dims := gDims e
  let cs := entryCoords v
  if masked then .skip
  else
    match (List.zip dims cs).find? fun p => decide (p.2 < 0) || decide (p.2 ≥ (p.1 : Int)) with
    | none => .at (blockNo dims cs)
    | some p =>
      match gOob e with
      | 0 => .bound p.2
      | 2 => .at (blockNo dims (List.zipWith (fun (d : Nat) (c : Int) => max 0 (min c ((d : Int) - 1))) dims cs))
      | _ => .skip

/-- Address of a block (R308). -/
def blockAddr (e : Entry) (n : Nat) : Nat := gBase e + e.d.w5.toNat * n

/-- The bit addresses of a block's elements. -/
def blockBits (e : Entry) (n : Nat) : List (Nat × Nat) :=
  (List.range (gLen e)).map fun i => (8 * blockAddr e n + i * gBits e, gBits e)

/-- Lines of a plain stream popped as they come until n elements of w bits are ready. -/
def pullPlain (ep c w n : Nat) (st : InStream) (s : State) : InStream × State :=
  let have_ := st.ready.length
  if n ≤ have_ then (st, s)
  else
    let bits := (n - have_) * w
    let lines := if bits ≤ st.bits.len then 0 else ceilDiv (bits - st.bits.len) 512
    match chTake c ep (min lines (chAvail s c ep)) s with
    | none => (st, s)
    | some (ls, t) =>
      let b := ls.foldl (fun (acc : BitBuf) l => acc.push 512 l.data) st.bits
      let k := min (n - have_) (b.len / w)
      ({ st with bits := b.drop (w * k), ready := st.ready ++ (unpackElems w k b.val).map fun x => (x, 0) }, t)

/-- The engine replaced. -/
def setGath (g : Option Gath) (s : State) : State := { s with mov := { s.mov with gath := g } }

/-- Packets of 256 bytes that a range takes, from its first 4-byte boundary to its last. -/
def gPieces (a n : Nat) : Nat := ceilDiv ((a + n + 3) / 4 * 4 - a / 4 * 4) 256

/-- Codes that join the stream of a GATH; the last entry's end it (R309). -/
def Gath.emit (g : Gath) (cs : List (Nat × Nat)) (fin : Bool) : Gath :=
  let o := g.out.put cs
  { g with out := if fin then o.finish else o }

/-- One clk of the entry at work on a pool table: at most 16 row accesses, of SCADD at most 64 elements (R309, R310, R312). -/
def gatherWork (g : Gath) (w : GWork) (s : State) : State :=
  let e := g.e
  let f := e.d.fld 0 22 19
  let rest := (blockBits e w.block).drop w.pos
  let n := min (if e.op = 0x1A then 64 else rest.length) (rowSpan rest [] 16)
  let bits := rest.take n
  let fin := decide (rest.length ≤ n)
  let mine := (w.codes.drop w.pos).take n
  let put (codes : List Nat) (t : State) : State × Option Nat :=
    writeElems (List.zipWith (fun (b : Nat × Nat) c => (b.1, b.2, c)) bits codes) t
  let g := { g with workClk := some s.clock.ek }
  if e.op = 0x18 then
    match readElems bits s with
    | (t, _, some b) => poolUe 4 e b 9 t
    | (t, cs, none) =>
      let codes := w.codes ++ cs
      if fin then
        setGath (some { g.emit (codes.map fun x => (x, 0)) (decide (g.next ≥ g.len)) with last := some (w.block, codes), work := none }) t
      else setGath (some { g with work := some { w with codes := codes, pos := w.pos + n } }) t
  else
    let (t, bad) :=
      if e.op = 0x19 then put mine s
      else
        match readElems bits s with
        | (t, _, some b) => (t, some b)
        | (t, old, none) => put (List.zipWith (fun a b => convertElem f 0 0 ((decodeElem f a).add (decodeElem f b))) old mine) t
    match bad with
    | some b => poolUe 4 e b 9 t
    | none => setGath (some { g with lastClk := s.clock.ek, work := if fin then none else some { w with pos := w.pos + n } }) t

/-- An entry begins with its popped codes (R308 to R310): a block of zeros, the block before it once more, or a block of the
table. -/
def beginEntry (g : Gath) (p : EntryPlan) (codes : List Nat) (s : State) : State :=
  let e := g.e
  let g1 := { g with next := g.next + 1, workClk := some s.clock.ek }
  let fin := decide (g1.next ≥ g1.len)
  match p with
  | .bound _ => s
  | .skip =>
    if e.op != 0x18 then setGath (some { g1 with lastClk := s.clock.ek }) s
    else if gExt e then setGath (some { g1 with last := none, blocks := g.blocks ++ [⟨g.next, 0, 0, 0, [], true, false⟩] }) s
    else setGath (some { g1.emit (List.replicate (gLen e) (0, 0)) fin with last := none }) s
  | .at n =>
    let g2 := { g1 with count := g.count + 1 }
    let again := e.op == 0x18 && g.last.any fun x => x.1 == n
    if gExt e then
      let a := blockAddr e n
      let b : GBlock := if again then ⟨g.next, a, 0, 0, [], false, true⟩ else ⟨g.next, a, gPieces a (gBytes e), 0, [], false, false⟩
      setGath (some { g2 with last := some (n, []), blocks := g.blocks ++ [b] }) s
    else if again then
      setGath (some (g2.emit (((g.last.map (·.2)).getD []).map fun x => (x, 0)) fin)) s
    else gatherWork g2 ⟨n, if e.op = 0x18 then [] else codes, 0⟩ s

/-- GATHER_ENTRY_START: the next list entry, once its coordinates, mask bit and elements can be popped; one in a clk (R312). An
entry that faults waits until the entries before it have completed (R308). -/
def execGatherEntryStart (s : State) : Host.Outcome State Fault Refusal :=
  match s.mov.gath with
  | none => .next s
  | some g =>
    let e := g.e
    if !engOk s 4 || decide (g.next ≥ g.len) || !g.out.lineq.isEmpty || g.work.isSome || g.workClk == some s.clock.ek then .next s
    else
      let (list, s) := pullPlain 9 e.chY 128 1 g.list s
      let (mask, s) := if gMask e then pullPlain 9 (e.d.fld 2 19 14) 1 1 g.mask s else (g.mask, s)
      let (data, s) := if e.op = 0x18 then (g.data, s) else pullPlain 9 e.chX (gBits e) (gLen e) g.data s
      let ready := !list.ready.isEmpty && (!gMask e || !mask.ready.isEmpty) &&
        (e.op == 0x18 || decide (data.ready.length ≥ gLen e))
      let g1 := { g with list := list, mask := mask, data := data }
      if !ready then .next (setGath (some g1) s)
      else
        let v := (list.ready.headD (0, 0)).1
        let masked := gMask e && (mask.ready.headD (0, 0)).1 == 0
        let codes := (data.ready.take (gLen e)).map (·.1)
        let g2 := { g1 with
          list := { list with ready := list.ready.tail }
          mask := { mask with ready := mask.ready.tail }
          data := { data with ready := data.ready.drop (gLen e) } }
        match planEntry e masked v with
        | .bound c =>
          if !g.blocks.isEmpty then .next (setGath (some g1) s)
          else .next (raise 0x0E (FaultCtx.ofEntry 4 e g.next (toCode 32 c)) s)
        | p => .next (beginEntry g2 p codes s)

/-! ## External blocks (R309, R355) -/

/-- Byte range of piece k of an external block: offset and length. -/
def gPieceRange (e : Entry) (b : GBlock) (k : Nat) : Nat × Nat :=
  let a := b.addr / 4 * 4
  let stop := (b.addr + gBytes e + 3) / 4 * 4
  (a + 256 * k, min 256 (stop - (a + 256 * k)))

/-- Piece k of the first block that has one to ask, as a GET; none where there is none or no room (R309, R355). -/
def gatherAsk (s : State) : Option State :=
  match s.mov.gath with
  | none => none
  | some g =>
    match g.blocks.find? fun b => decide (b.asked < b.pieces) with
    | none => none
    | some b =>
      if !requestRoom s true then none
      else
        let r := gPieceRange g.e b b.asked
        let chip := g.e.d.fld 4 31 20
        let (tag, s) := freshTag s
        let p := { PktSpec.to s 2 chip (fabAddr chip 0 r.1) with tagx := tag, w5 := word r.2 }
        let blocks := g.blocks.map fun x => if x.idx = b.idx then { x with asked := x.asked + 1 } else x
        let t := setGath (some { g with blocks := blocks }) s
        some (queueInst 4 g.e p s.clock.ek (some ⟨tag, 2, 1, b.idx, b.asked, r.2⟩) none t)

/-- The bytes of piece k of block idx have arrived. -/
def gatherReply (idx k : Nat) (bs : List Byte) (s : State) : State :=
  match s.mov.gath with
  | none => s
  | some g =>
    setGath (some { g with blocks := g.blocks.map fun b => if b.idx = idx then { b with got := b.got ++ [(k, bs)] } else b }) s

/-- The codes of an external block that is whole; prev: those of the block before it. -/
def gBlockCodes (e : Entry) (prev : List (Nat × Nat)) (b : GBlock) : Option (List (Nat × Nat)) :=
  if b.zero then some (List.replicate (gLen e) (0, 0))
  else if b.dup then some prev
  else if b.got.length < b.pieces then none
  else
    let bytes := (List.range b.pieces).flatMap fun k => (b.got.lookup k).getD []
    some ((unpackElems (gBits e) (gLen e) (leNat (bytes.drop (b.addr % 4)))).map fun c => (c, 0))

/-- A whole external block joins the stream in list order (R309). -/
def joinBlock (g : Gath) : Gath :=
  match g.blocks with
  | b :: rest =>
    if g.out.lineq.isEmpty then
      match gBlockCodes g.e g.prev b with
      | some cs => { g.emit cs (decide (b.idx + 1 ≥ g.len)) with blocks := rest, prev := cs }
      | none => g
    else g
  | [] => g

/-- One clk of the engine's outputs: a whole external block joins the stream, lines are pushed as the channel has room, the count
follows, the instruction completes (R309, R311, R330). -/
def gatherOut (g : Gath) (s : State) : State :=
  let e := g.e
  let g := joinBlock g
  let had := !g.out.lineq.isEmpty
  let (out, s) := g.out.drain e.chOut s
  let g := { g with out := out, lastClk := if had then s.clock.ek else g.lastClk }
  let all := decide (g.next ≥ g.len) && g.blocks.isEmpty && out.lineq.isEmpty && g.work.isNone
  if !all then setGath (some g) s
  else if gCnto e = 0 then complete e.id (setGath none s)
  else if decide (g.lastClk < s.clock.ek) && decide (chRoom s (gCnto e) ≥ 1) then
    complete e.id (setGath none (chPush (gCnto e) [(g.count, false, false)] s))
  else setGath (some g) s

/-- One clk of the gather engine: the entry at work, and its outputs; part of the tick (log 2). -/
def gatherTick (s : State) : State :=
  match s.mov.gath with
  | none => s
  | some g =>
    if !engOk s 4 then s
    else
      match g.work with
      | some w => gatherWork g w s
      | none => gatherOut g s

end Sys2Proof.Machine
end

