-- ==== Sys2Proof/Machine/Compress.lean ====
section
/-! DEFINITION. The activation compressor (09_pool_and_movement R313 to R318): saves, restores and their records. -/

namespace Sys2Proof.Machine

/-! ## Fields (R313) -/

/-- FMT of an ACSV or ACRS descriptor. -/
def aFmt (e : Entry) : Nat := e.d.fld 0 22 19
/-- CMODE (R313). -/
def aMode (e : Entry) : Nat := e.d.fld 0 18 17
/-- RFMT (R313). -/
def aRfmt (e : Entry) : Nat := e.d.fld 0 16 13
/-- LEN (R313). -/
def aLen (e : Entry) : Nat := e.d.fld 1 24 0
/-- XOFF (R313). -/
def aOff (e : Entry) : Nat := e.d.w2.toNat + (e.d.fld 3 7 0 <<< 32)
/-- XCHIP (R313). -/
def aChip (e : Entry) : Nat := e.d.fld 3 31 20
/-- Format code that a lossy mode stores (R313). -/
def aCode (e : Entry) : Nat := if aMode e = 1 then 11 else 5
/-- Mantissa bits of the activation format (R315). -/
def aMant (e : Entry) : Nat := if aFmt e = 1 then 7 else if aFmt e = 2 then 10 else 23

/-- ACT_FORMAT and ACT_CRC (R317, R460). -/
def actFault (code : Byte) (e : Entry) (s : State) : State :=
  raise code (FaultCtx.ofEntry 4 e (aOff e % 2 ^ 32) (aChip e <<< 20)) s

/-! ## Records (R315, R316) -/

/-- Bytes padded with zeros to a multiple of 8 (R314). -/
def pad8 (bs : List Byte) : List Byte := bs ++ List.replicate ((8 - bs.length % 8) % 8) 0

/-- Bit fields packed least significant bit first into whole bytes (R315). -/
def packBytes (fields : List (Nat × Nat)) : List Byte :=
  let b := fields.foldl (fun (acc : BitBuf) x => acc.push x.2 x.1) BitBuf.empty
  leBytes (ceilDiv b.len 8) b.val

/-- Maximal runs of zero and nonzero codes: kind and length (R315). -/
def runsOf : List Nat → List (Bool × Nat)
  | [] => []
  | c :: cs =>
    let k := c != 0
    match runsOf cs with
    | (j, n) :: t => if j = k then (k, n + 1) :: t else (k, 1) :: (j, n) :: t
    | [] => [(k, 1)]

/-- A run's bytes: pieces of 128, kind in bit 7, length minus 1 in bits 6 to 0 (R315). -/
def runBytes (k : Bool) : Nat → Nat → List Byte
  | 0, _ => []
  | f + 1, n =>
    if n = 0 then []
    else
      let m := min n 128
      byte ((b2n k <<< 7) + (m - 1)) :: runBytes k f (n - m)

/-- Smallest width that holds a number (R315). -/
def bitWidth (n : Nat) : Nat := if n = 0 then 0 else Nat.log2 n + 1

/-- The encoded lossless chunk of codes of w bits with m mantissa bits; emin0 is EMIN where no element is nonzero (R315). -/
def encodeRuns (w m emin0 : Nat) (codes : List Nat) : List Byte :=
  let runs := (runsOf codes).flatMap fun r => runBytes r.1 3 r.2
  let nz := codes.filter (· != 0)
  let exps := nz.map fun c => (c >>> m) % 2 ^ (w - 1 - m)
  let emin := if nz.isEmpty then emin0 else exps.foldl min (2 ^ 30)
  let eb := bitWidth ((exps.map (· - emin)).foldl max 0)
  let h := runs.length + (nz.length <<< 9) + (emin <<< 19) + (eb <<< 27)
  leBytes 8 h ++ runs ++ packBytes (exps.map fun x => (x - emin, eb)) ++
    packBytes (nz.map fun c => (((c >>> (w - 1)) <<< m) + c % 2 ^ m, 1 + m))

/-- A raw chunk (R315). -/
def encodeRaw (w : Nat) (codes : List Nat) : List Byte :=
  leBytes 8 (1 <<< 18) ++ leBytes (ceilDiv (w * codes.length) 8) (packElems w codes)

/-- A lossless chunk: RAW exactly where the encoded chunk is longer than 8 bytes plus the raw bytes rounded up to 8
(R315). -/
def encodeChunk (w m emin0 : Nat) (codes : List Nat) : List Byte :=
  let a := encodeRuns w m emin0 codes
  let limit := 8 + (pad8 (List.replicate (ceilDiv (w * codes.length) 8) 0)).length
  pad8 (if a.length > limit then encodeRaw w codes else a)

/-- A lossy chunk from blocks of codes with their scales (R316). -/
def encodeLossy (f : Nat) (xs : List (Nat × Nat)) : List Byte :=
  let scales := (xs.zipIdx.filter fun p => p.2 % 32 == 0).map fun p => p.1.2
  let sb := fmtScaleBytes f
  pad8 (scales.flatMap fun v => leBytes sb v) ++ leBytes (ceilDiv (fmtBits f * xs.length) 8) (packElems (fmtBits f) (xs.map (·.1))) |> pad8

/-- The chunk record of saved element codes, the first with index i0 (R314 to R316). -/
def saveChunk (s : State) (e : Entry) (i0 : Nat) (codes : List Nat) (emin0 : Nat) : List Byte :=
  if aMode e = 0 then encodeChunk (fmtBits (aFmt e)) (aMant e) emin0 codes
  else encodeLossy (aCode e) (convVals (aCode e) e.conv s.job.seed e.srKey i0 (codes.map (decodeElem (aFmt e))))

/-- Element codes that run bytes spell: true for a nonzero element. -/
def spreadRuns (bs : List Byte) : List Bool :=
  bs.flatMap fun b => List.replicate (b.toNat % 128 + 1) (b.toNat.testBit 7)

/-- Nonzero codes put back at their places. -/
def placeCodes : List Bool → List Nat → List Nat
  | [], _ => []
  | true :: t, c :: cs => c :: placeCodes t cs
  | true :: t, [] => 0 :: placeCodes t []
  | false :: t, cs => 0 :: placeCodes t cs

/-- What the bytes at hand say of the next record: more bytes needed, malformed, or codes with the record's length. -/
inductive ChunkRes where
  | more
  | bad
  | ok (codes : List (Nat × Nat)) (used : Nat)
  deriving DecidableEq, Repr

/-- The next lossless record of n elements. It is well formed where encoding its elements gives its bytes (R315, R317). -/
def decodeChunk (w m n : Nat) (bs : List Byte) : ChunkRes :=
  if bs.length < 8 then .more
  else
    let h := leNat (bs.take 8)
    let nrun := fld h 8 0
    let nnz := fld h 17 9
    let emin := fld h 26 19
    let eb := fld h 30 27
    let raw := h.testBit 18
    let body := bs.drop 8
    let el := ceilDiv (nnz * eb) 8
    let ml := ceilDiv (nnz * (1 + m)) 8
    let len := 8 + (if raw then ceilDiv (w * n) 8 else nrun + el + ml)
    let total := (len + 7) / 8 * 8
    if bs.length < total then .more
    else
      let codes :=
        if raw then unpackElems w n (leNat (body.take (ceilDiv (w * n) 8)))
        else
          let exps := unpackElems eb nnz (leNat ((body.drop nrun).take el))
          let sms := unpackElems (1 + m) nnz (leNat ((body.drop (nrun + el)).take ml))
          placeCodes (spreadRuns (body.take nrun)) (List.zipWith (fun x sm =>
            ((sm >>> m) <<< (w - 1)) + ((x + emin) % 2 ^ (w - 1 - m) <<< m) + sm % 2 ^ m) exps sms)
      if codes.length = n ∧ encodeChunk w m emin codes = bs.take total then .ok (codes.map fun c => (c, 0)) total
      else .bad

/-- Bytes of a lossy record of n elements (R316). -/
def lossyBytes (f n : Nat) : Nat := (ceilDiv n 32 * fmtScaleBytes f + 7) / 8 * 8 + (fmtBits f * n / 8 + 7) / 8 * 8

/-- The next lossy record of n elements (R316). -/
def decodeLossy (f n : Nat) (bs : List Byte) : ChunkRes :=
  let total := lossyBytes f n
  if bs.length < total then .more
  else
    let sb := fmtScaleBytes f
    let scales := unpackElems (8 * sb) (ceilDiv n 32) (leNat bs)
    let codes := unpackElems (fmtBits f) n (leNat (bs.drop ((ceilDiv n 32 * sb + 7) / 8 * 8)))
    let xs := codes.mapIdx fun i c => (c, scales.getD (i / 32) 0)
    if encodeLossy f xs = bs.take total then .ok xs total else .bad

/-! ## Headers (R314) -/

/-- The largest body of a save (R314), and for a lossy one its length (R316). -/
def bodyBound (e : Entry) : Nat :=
  let n := aLen e
  let full := n / 256
  let rest := n % 256
  if aMode e = 0 then
    let raw (k : Nat) := (fmtBits (aFmt e) * k / 8 + 7) / 8 * 8
    full * (8 + raw 256) + (if rest = 0 then 0 else 8 + raw rest)
  else full * lossyBytes (aCode e) 256 + (if rest = 0 then 0 else lossyBytes (aCode e) rest)

/-- The header of a save (R314). -/
def saveHeader (e : Entry) (bodyLen : Nat) (crc : Word) : List Byte :=
  [0x50, 0x44, 0x41, 0x43, 1, 0, byte (aMode e), byte (aFmt e)] ++ leBytes 4 (aLen e) ++ leBytes 4 0 ++ leBytes 8 bodyLen ++
    wordBytes crc ++ List.replicate 36 0

/-- A fetched header agrees with the descriptor: BODY_BYTES and BODY_CRC (R317). -/
def checkHeader (e : Entry) (bs : List Byte) : Option (Nat × Nat) :=
  let len := leNat ((bs.drop 16).take 8)
  let crc := leNat ((bs.drop 24).take 4)
  if bs.take 12 = (saveHeader e 0 0).take 12 ∧ len ≤ bodyBound e ∧ len % 8 = 0 then some (len, crc) else none

/-! ## Starts -/

/-- The compressor replaced. -/
def setAcmp (a : Option Acmp) (s : State) : State := { s with mov := { s.mov with acmp := a } }

/-- The start checks (R313, R320). -/
def acmpOk (e : Entry) : Bool :=
  decide (1 ≤ aLen e) && decide (aLen e ≤ 2 ^ 24) && (aMode e == 0 || aLen e % 32 == 0) && aOff e % 64 == 0

/-- The stream that a restore pushes (R317). -/
def restoreOut (e : Entry) : LineOut := LineOut.ofFmt (aRfmt e) 256 (aLen e)

/-- A save or restore starts where the compressor is idle (R313). -/
def startAcmp (op : Nat) (save : Bool) (s : State) : State :=
  match headFor s 4 op with
  | none => s
  | some e =>
    if s.mov.acmp.isSome then s
    else
      let t := dequeue 4 s
      if acmpOk e then
        setAcmp (some ⟨e, save, 0, 0, [], .init, [], 0, 0xFFFFFFFF, 0, 0, 0, [], restoreOut e⟩) t
      else descBound 4 e t

/-- ACSV (R313, R314). -/
def execAcsv (s : State) : Host.Outcome State Fault Refusal := .next (startAcmp 0x20 true s)
/-- ACRS (R313, R317). -/
def execAcrs (s : State) : Host.Outcome State Fault Refusal := .next (startAcmp 0x21 false s)

/-! ## Packets -/

/-- The index of a header's packet among a save's or restore's. -/
def hdrIndex : Nat := 0x10000000

/-- A PUT of bytes at an offset of the save's chip. -/
def acmpPut (a : Acmp) (off : Nat) (bs : List Byte) (index : Nat) (s : State) : State :=
  let (tag, s) := freshTag s
  let chip := aChip a.e
  let p := { PktSpec.to s 1 chip (fabAddr chip 0 off) with tagx := tag, payload := bs }
  queueInst 4 a.e p s.clock.ek (some ⟨tag, 1, 2, a.e.id, index, bs.length⟩) none s

/-- A GET of n bytes at an offset of the save's chip. -/
def acmpGet (a : Acmp) (off n index : Nat) (s : State) : State :=
  let (tag, s) := freshTag s
  let chip := aChip a.e
  let p := { PktSpec.to s 2 chip (fabAddr chip 0 off) with tagx := tag, w5 := word n }
  queueInst 4 a.e p s.clock.ek (some ⟨tag, 2, 2, a.e.id, index, n⟩) none s

/-- The next packet of the compressor, where one can be formed: the body, then the header of a save; the header, then the
body of a restore (R314, R317, R355). -/
def acmpAsk (s : State) : Option State :=
  match s.mov.acmp with
  | none => none
  | some a =>
    if a.save then
      let left := a.body.length - 256 * a.sent
      if !requestRoom s false then none
      else if left ≥ 256 ∨ (a.stage = 1 ∧ left > 0) then
        some (acmpPut a (aOff a.e + 64 + 256 * a.sent) ((a.body.drop (256 * a.sent)).take 256) a.sent
          (setAcmp (some { a with sent := a.sent + 1 }) s))
      else if a.stage = 1 ∧ left = 0 ∧ a.acked = a.sent then
        some (acmpPut a (aOff a.e) (saveHeader a.e a.body.length (crc32c a.body)) hdrIndex (setAcmp (some { a with stage := 2 }) s))
      else none
    else if !requestRoom s true then none
    else if a.stage = 0 ∧ a.asked = 0 then
      some (acmpGet a (aOff a.e) 64 hdrIndex (setAcmp (some { a with asked := 1 }) s))
    else if a.stage = 1 ∧ 256 * a.sent < a.bodyLen then
      some (acmpGet a (aOff a.e + 64 + 256 * a.sent) (min 256 (a.bodyLen - 256 * a.sent)) a.sent
        (setAcmp (some { a with sent := a.sent + 1 }) s))
    else none

/-- A packet of a save has landed; with its header the save completes (R318). -/
def acmpAck (index : Nat) (s : State) : State :=
  match s.mov.acmp with
  | none => s
  | some a =>
    if index = hdrIndex then complete a.e.id (setAcmp none s)
    else setAcmp (some { a with acked := a.acked + 1 }) s

/-- Bytes of a restore have arrived (R317). acked holds the CRC that the header gives. -/
def acmpReply (index : Nat) (bs : List Byte) (s : State) : State :=
  match s.mov.acmp with
  | none => s
  | some a =>
    if index = hdrIndex then
      match checkHeader a.e bs with
      | some (len, crc) => setAcmp (some { a with stage := 1, bodyLen := len, acked := crc }) s
      | none => actFault 0x42 a.e s
    else setAcmp (some { a with got := a.got ++ [(index, bs)] }) s

/-! ## One clk of the compressor (R318); part of the tick, since the table has no row for it (log 2) -/

/-- A save takes up to 64 elements and writes a record for each 256. -/
def saveTick (a : Acmp) (s : State) : State :=
  let e := a.e
  if a.stage ≠ 0 then s
  else
    let n := min 256 (aLen e - a.elem)
    let want := min n (a.inp.ready.length + 64)
    let (inp, s) := pullPlain 10 e.chX (fmtBits (aFmt e)) want a.inp s
    if inp.ready.length < n then setAcmp (some { a with inp := inp }) s
    else
      let codes := (inp.ready.take n).map (·.1)
      let (emin0, s) := if aMode e = 0 && codes.all (· == 0) then freshBits 8 s else (0, s)
      let bs := saveChunk s e a.elem codes emin0.toNat
      let elem := a.elem + n
      setAcmp (some { a with
        inp := { inp with ready := inp.ready.drop n }
        body := a.body ++ bs, elem := elem, stage := if elem ≥ aLen e then 1 else 0 }) s

/-- The output codes of restored elements (R317). -/
def restoreCodes (e : Entry) (xs : List (Nat × Nat)) : List (Nat × Nat) :=
  if aMode e = 0 || aRfmt e != 0 then xs
  else xs.map fun x => ((rneF32 (elemVal (aCode e) x)).toNat, 0)

/-- A restore takes in its next piece (R317). -/
def takePiece (a : Acmp) : Acmp :=
  match a.got.lookup (a.asked - 1) with
  | some bs => { a with got := a.got.filter (fun g => g.1 != (a.asked - 1)), body := a.body ++ bs,
                        crcRun := crc32cRun a.crcRun bs, asked := a.asked + 1 }
  | none => a

/-- At most 64 restored elements join the stream, once its lines have left (R318). -/
def emitRestored (a : Acmp) : Acmp :=
  if a.pend.isEmpty || !a.out.lineq.isEmpty then a
  else
    let o := a.out.put (a.pend.take 64)
    let rest := a.pend.drop 64
    { a with pend := rest, out := if rest.isEmpty && decide (a.elem ≥ aLen a.e) then o.finish else o }

/-- The next record restored; none where it is malformed, or the body ends inside it (R317). -/
def nextRecord (a : Acmp) (received : Bool) : Option Acmp :=
  let e := a.e
  let n := min 256 (aLen e - a.elem)
  match if aMode e = 0 then decodeChunk (fmtBits (aFmt e)) (aMant e) n a.body else decodeLossy (aCode e) n a.body with
  | .bad => none
  | .more => if received then none else some a
  | .ok xs used => some { a with body := a.body.drop used, elem := a.elem + n, pend := restoreCodes e xs }

/-- One clk of a restore: its next piece taken in, elements pushed, its next record restored, the checks after the last one. -/
def restoreTick (a : Acmp) (s : State) : State :=
  let e := a.e
  let a := emitRestored (takePiece a)
  let (out, s) := a.out.drain e.chOut s
  let a := { a with out := out }
  let received := decide (256 * (a.asked - 1) ≥ a.bodyLen) && a.stage == 1
  if !a.pend.isEmpty then setAcmp (some a) s
  else if a.elem < aLen e then
    match nextRecord a received with
    | none => actFault 0x42 e s
    | some b => setAcmp (some b) s
  else if !received then setAcmp (some a) s
  else if !a.body.isEmpty then actFault 0x42 e s
  else if crc32cEnd a.crcRun ≠ word a.acked then actFault 0x43 e s
  else if out.lineq.isEmpty then complete e.id (setAcmp none s)
  else setAcmp (some a) s

/-- One clk of the compressor. -/
def acmpTick (s : State) : State :=
  match s.mov.acmp with
  | none => s
  | some a => if !engOk s 4 then s else if a.save then saveTick a s else restoreTick a s

end Sys2Proof.Machine
end

