-- ==== Sys2Proof/Machine/Arrays.lean ====
section
/-! DEFINITION. The matrix arrays (05_arrays R158 to R192) and the pairs (06_backward R193 to R202): starts, k-steps, the
pair turn, the swap, the drain and the activity ramp. -/

namespace Sys2Proof.Machine

/-! ## An array slot -/

/-- Slot number of an array. -/
def Arr.slot : Arr → Nat
  | .mxa => 0
  | .mxb => 1

/-- Endpoint code of an array (R106). -/
def Arr.ep (a : Arr) : Nat := Arr.slot a + 1

/-- The logical array of a slot. -/
def getArr (s : State) (a : Arr) : ArrState :=
  match a with
  | .mxa => s.mxa
  | .mxb => s.mxb

/-- The logical array of a slot replaced. -/
def setArr (a : Arr) (x : ArrState) (s : State) : State :=
  match a with
  | .mxa => { s with mxa := x }
  | .mxb => { s with mxb := x }

/-- An opcode that broadcasts k-steps (R179). -/
def arrBroadcasts (op : Nat) : Bool := decide (1 ≤ op) && decide (op ≤ 0x13)

/-- A comparison opcode (R176). -/
def arrIsCmp (op : Nat) : Bool := decide (8 ≤ op) && decide (op ≤ 0x0C)

/-- FMT_A, FMT_B and K of an array instruction (R185). -/
def Entry.fmtA (e : Entry) : Nat := e.d.fld 1 31 28
/-- FMT_B (R185). -/
def Entry.fmtB (e : Entry) : Nat := e.d.fld 1 27 24
/-- K (R185). -/
def Entry.kTotal (e : Entry) : Nat := e.d.fld 1 23 13
/-- k-steps per clk of an array instruction (R161, R184). -/
def Entry.kps (e : Entry) : Nat := classKps (e.d.fld 0 22 20)

/-! ## Operand groups (R162 to R164) -/

/-- Groups of 32 elements in a line, for elements of w bits (R162). -/
def lineGroups (w : Nat) : Nat := if w = 16 then 1 else if w = 4 then 4 else 2

/-- The groups of a line. -/
def groupsOf (w line : Nat) : List Nat :=
  (List.range (lineGroups w)).map fun i => (line >>> (32 * w * i)) % 2 ^ (32 * w)

/-- Scale lines before a k-block (R163). -/
def scaleLines (f h : Nat) : Nat := if f == 11 then h else if fmtBlock f then 1 else 0

/-- The 32 × h scales of a k-block, from its scale lines (R163). -/
def scalesOf (f h : Nat) (ls : List Nat) : List Nat :=
  let b := ls.foldl (fun (acc : BitBuf) l => acc.push 512 l) BitBuf.empty
  unpackElems (8 * fmtScaleBytes f) (32 * h) b.val

/-- What one clk takes of one operand: the element codes of n k-steps of 32 × h elements, the groups left over and the
scales of the k-block in progress. None where a line cannot be popped (R164). k is the number of k-steps broadcast. -/
def fetchGroups (ep c f h n k : Nat) (buf scales : List Nat) (s : State) :
    Option (List (List Nat) × List Nat × List Nat × State) :=
  let w := fmtBits f
  let sl := if k % 32 = 0 then scaleLines f h else 0
  let gl := ceilDiv (n * h - buf.length) (lineGroups w)
  match chTake c ep (sl + gl) s with
  | none => none
  | some (ls, t) =>
    let ds := ls.map (·.data)
    let groups := buf ++ (ds.drop sl).flatMap (groupsOf w)
    let steps := (List.range n).map fun i => ((groups.drop (i * h)).take h).flatMap (unpackElems w 32)
    some (steps, groups.drop (n * h), if sl = 0 then scales else scalesOf f h (ds.take sl), t)

/-- The clk of one array's k-steps as popped: codes of A and B, and the run that goes on. -/
structure ArrFetch where
  a : List (List Nat)
  b : List (List Nat)
  run : ArrRun

/-- The slot of the pair turn that GPDW reads next, if its block is complete in this clk (R197). -/
def turnReady (s : State) : Option (List Nat) :=
  match (if s.turn.read then s.turn.full1 else s.turn.full0) with
  | some c => if c ≤ s.clock.clk then some (if s.turn.read then s.turn.slot1 else s.turn.slot0) else none
  | none => none

/-- The turned group of token t: one element of each of P output features (R197). -/
def turnedRow (p t : Nat) (slot : List Nat) : List Nat := (List.range p).map fun j => slot.getD (j * p + t) 0

/-- MXB is ready to pop a line of the shared channel into the turn (R197). -/
def turnFree (s : State) : Bool :=
  (if s.turn.fill then s.turn.full1 else s.turn.full0).isNone &&
    !(s.turn.freed == some s.clock.clk && s.turn.fill != s.turn.read)

/-- The lines of one clk of a run's k-steps are popped (R164, R197, R202): none where they cannot all be. -/
def fetchClk (a : Arr) (r : ArrRun) (s : State) : Option (ArrFetch × State) :=
  let e := r.e
  let n := min e.kps (e.kTotal - r.k)
  let ha := tileM s / 32
  let hb := tileN s / 32
  match fetchGroups (Arr.ep a) e.chX e.fmtA ha n r.k r.bufA r.scaleA s with
  | none => none
  | some (as, ga, sa, s) =>
    if e.op == 0x11 then
      match turnReady s with
      | none => none
      | some slot =>
        let bs := (List.range n).map fun i => turnedRow (tileN s) (r.k + i) slot
        some (⟨as, bs, { r with bufA := ga, scaleA := sa }⟩, s)
    else if e.op == 0x10 && !turnFree s then none
    else
      match fetchGroups (Arr.ep a) e.chY e.fmtB hb n r.k r.bufB r.scaleB s with
      | none => none
      | some (bs, gb, sb, t) => some (⟨as, bs, { r with bufA := ga, scaleA := sa, bufB := gb, scaleB := sb }⟩, t)

/-- Lines of the shared channel that a clk of GPDX popped go into the turn (R197): MXB's end pops them too. -/
def fillTurn (e : Entry) (popped : Nat) (codes : List Nat) (s : State) : State :=
  let p := tileN s
  let s := chPop e.chY 2 popped s
  let t := s.turn
  let old := if t.fill then t.slot1 else t.slot0
  let new_ := old ++ codes
  let done := decide (new_.length ≥ p * p)
  let t := if t.fill then { t with slot1 := new_ } else { t with slot0 := new_ }
  let t := if done then
      (if t.fill then { t with full1 := some (s.clock.clk + 1), fill := false }
       else { t with full0 := some (s.clock.clk + 1), fill := true })
    else t
  { s with turn := t }

/-- The slot that GPDW has read to its end is freed (R197). -/
def freeTurn (s : State) : State :=
  let t := s.turn
  let t := if t.read then { t with slot1 := [], full1 := none } else { t with slot0 := [], full0 := none }
  { s with turn := { t with read := !t.read, freed := some s.clock.clk } }

/-! ## Accumulation (R63 to R68, R176 to R178) -/

/-- The initial value of an opcode's accumulators (R166, R176). -/
def accInit (op : Nat) : Word := if op = 0x0A then 0x7F800000 else if op = 0x0B then 0xFF800000 else 0

/-- One cell's k-step under a comparison opcode (R176, R178). -/
def cmpStep (op pred : Nat) (acc : Word) (a b : FVal) : Word :=
  match op with
  | 0x08 => accStep acc (a.sub b).abs
  | 0x09 => accStep acc ((a.sub b).mul (a.sub b))
  | 0x0A => rneF32 (fminv (f32 acc) (rneF32v (a.add b)))
  | 0x0B => rneF32 (fmaxv (f32 acc) (rneF32v (a.add b)))
  | _ => if cmpVal pred a b then accStep acc (FVal.ofNat 1) else acc

/-- Every cell of an M × N tile updated from its row and column. -/
def mapCells (n : Nat) (acc : List Word) (f : Nat → Nat → Word → Word) : List Word :=
  acc.mapIdx fun p x => f (p / n) (p % n) x

/-- One k-step of class H or of a comparison opcode over the whole tile (R63, R176). -/
def stepCells (e : Entry) (n : Nat) (acc : List Word) (ac bc : List Nat) : List Word :=
  let av := ac.map (decodeElem e.fmtA)
  let bv := bc.map (decodeElem e.fmtB)
  mapCells n acc fun i j x =>
    let a := av.getD i (FVal.zero false)
    let b := bv.getD j (FVal.zero false)
    if arrIsCmp e.op then cmpStep e.op (e.d.fld 0 19 17) x a b
    else accStep x (if e.op = 2 then (a.mul b).neg else a.mul b)

/-- The block scale of a row or column: 1 without block scales (R58, R59, R64). -/
def cellScale (f : Nat) (scales : List Nat) (i : Nat) : Option FVal :=
  if fmtBlock f then blockScale f (scales.getD i 0) else some (FVal.ofNat 1)

/-- One k-block of the classes other than H over the whole tile (R64, R65). -/
def blockCells (e : Entry) (n : Nat) (acc : List Word) (r : ArrRun) : List Word :=
  let av := r.blkA.map fun l => l.map (decodeElem e.fmtA)
  let bv := r.blkB.map fun l => l.map (decodeElem e.fmtB)
  mapCells n acc fun i j x =>
    let ps := List.zipWith (fun a b =>
      let p := (a.getD i (FVal.zero false)).mul (b.getD j (FVal.zero false))
      if e.op = 2 then p.neg else p) av bv
    accBlock x ps (cellScale e.fmtA r.scaleA i) (cellScale e.fmtB r.scaleB j)

/-- The k-steps of one clk accumulated: one by one for class H and the comparisons, else into the open k-block, which is
added where it has 32 k-steps or the instruction ends (R63, R64). -/
def accumulate (n : Nat) (acc : List Word) (f : ArrFetch) : List Word × ArrRun :=
  let e := f.run.e
  let k := f.run.k + f.a.length
  if arrIsCmp e.op || e.d.fld 0 22 20 == 0 then
    ((f.a.zip f.b).foldl (fun x p => stepCells e n x p.1 p.2) acc, { f.run with k := k })
  else
    let r := { f.run with k := k, blkA := f.run.blkA ++ f.a, blkB := f.run.blkB ++ f.b }
    if k % 32 = 0 ∨ k ≥ e.kTotal then (blockCells e n acc r, { r with blkA := [], blkB := [] })
    else (acc, r)

/-! ## k-steps -/

/-- The array may broadcast a k-step in this clk (R164, R168, R179). -/
def mayBroadcast (s : State) (a : Arr) : Bool :=
  let x := getArr s a
  engOk s (Arr.slot a) && x.level == 8 && !x.broadcastNow && x.swap.isNone

/-- The tile that an instruction's first k-step acts on (R166). -/
def openTile (s : State) (x : ArrState) (r : ArrRun) : List Word :=
  if r.k = 0 ∧ !(r.e.b1 && x.isOpen) then List.replicate (tileM s * tileN s) (accInit r.e.op) else x.acc

/-- The broadcast of one clk: accumulators, the end of the instruction, armed (R164 to R167, R181, R330). -/
def broadcastWith (a : Arr) (f : ArrFetch) (s : State) : State :=
  let x := getArr s a
  let e := f.run.e
  let (acc, r) := accumulate (tileN s) (openTile s x f.run) f
  let done := decide (r.k ≥ e.kTotal)
  let last := e.b0
  let y := { x with
    run := if done then none else some r
    acc := acc
    isOpen := true
    armed := false
    lastStep := some s.clock.clk
    broadcastNow := true
    swap := if done && last then some (s.clock.clk, e) else x.swap }
  let s := touch (bump (0x018 + Arr.slot a) 1 (setArr a y s))
  let s := if done && e.op == 0x11 then freeTurn s else s
  if done && !last then complete e.id s else s

/-- The other array of a frozen-weight pair runs the partner of r at the same k-step and may broadcast (R202). -/
def adzPartner (s : State) (a : Arr) (r : ArrRun) : Option ArrRun :=
  let b : Arr := match a with
    | .mxa => .mxb
    | .mxb => .mxa
  match (getArr s b).run with
  | some q => if q.e.bseq = r.e.bseq ∧ q.k = r.k ∧ mayBroadcast s b then some q else none
  | none => none

/-- KSTEP_BROADCAST (R164). A frozen-weight pair broadcasts on both arrays at once (R202, log 15). -/
def execKstepBroadcast (a : Arr) (s : State) : Host.Outcome State Fault Refusal :=
  match (getArr s a).run with
  | none => .next s
  | some r =>
    if !mayBroadcast s a then .next s
    else if r.e.op == 0x12 || r.e.op == 0x13 then
      match adzPartner s a r with
      | none => .next s
      | some q =>
        let b : Arr := match a with
          | .mxa => .mxb
          | .mxb => .mxa
        match fetchClk a r s with
        | none => .next s
        | some (f, t) =>
          match fetchClk b q t with
          | none => .next s
          | some (g, u) => .next (broadcastWith b g (broadcastWith a f u))
    else
      match fetchClk a r s with
      | none => .next s
      | some (f, t) =>
        let popped := (chHold s r.e.chY 1).length - (chHold t r.e.chY 1).length
        let t := if r.e.op == 0x10 then fillTurn r.e popped (f.b.flatMap id) t else t
        .next (broadcastWith a f t)

/-! ## Starts (R166, R181, R183) -/

/-- Earlier instructions of the array have broadcast their last k-steps in earlier clks (R183). -/
def arrFree (s : State) (a : Arr) : Bool :=
  let x := getArr s a
  x.run.isNone && x.lastStep != some s.clock.clk

/-- An instruction that broadcasts k-steps starts in the clk of its first k-step (R183, R199). -/
def startProduct (a : Arr) (op : Nat) (s : State) : State :=
  match headFor s (Arr.slot a) op with
  | none => s
  | some e =>
    let r : ArrRun := ⟨e, 0, [], [], [], [], [], []⟩
    if arrFree s a && mayBroadcast s a && (fetchClk a r s).isSome then
      let t := dequeue (Arr.slot a) s
      setArr a { getArr t a with run := some r } t
    else s

/-- MMA (R63 to R68, R182). -/
def execMma (a : Arr) (s : State) : Host.Outcome State Fault Refusal := .next (startProduct a 0x01 s)
/-- MMAN: the products are negated exactly (R182). -/
def execMman (a : Arr) (s : State) : Host.Outcome State Fault Refusal := .next (startProduct a 0x02 s)
/-- CDL1 (R176). -/
def execCdl1 (a : Arr) (s : State) : Host.Outcome State Fault Refusal := .next (startProduct a 0x08 s)
/-- CDL2 (R176). -/
def execCdl2 (a : Arr) (s : State) : Host.Outcome State Fault Refusal := .next (startProduct a 0x09 s)
/-- CMINP (R176). -/
def execCminp (a : Arr) (s : State) : Host.Outcome State Fault Refusal := .next (startProduct a 0x0A s)
/-- CMAXP (R176). -/
def execCmaxp (a : Arr) (s : State) : Host.Outcome State Fault Refusal := .next (startProduct a 0x0B s)
/-- CCNT (R176). -/
def execCcnt (a : Arr) (s : State) : Host.Outcome State Fault Refusal := .next (startProduct a 0x0C s)
/-- GPDX (R198, R205). -/
def execGpdx (s : State) : Host.Outcome State Fault Refusal := .next (startProduct .mxa 0x10 s)
/-- GPDW: no earlier than the clk in which its block is complete (R198, R199). -/
def execGpdw (s : State) : Host.Outcome State Fault Refusal := .next (startProduct .mxb 0x11 s)
/-- FWDX (R202). -/
def execFwdx (s : State) : Host.Outcome State Fault Refusal := .next (startProduct .mxa 0x12 s)
/-- ADZ (R202). -/
def execAdz (s : State) : Host.Outcome State Fault Refusal := .next (startProduct .mxb 0x13 s)

/-- A tile on its way out under the descriptor of its closing instruction (R168, R170, R172). -/
def mkTile (s : State) (e : Entry) (acc : List Word) : Tile :=
  let total := tileM s * tileN s
  ⟨e, acc, 0, 0, LineOut.ofFmt (tailFmt e) total total, false⟩

/-- The active accumulators go into the empty shadow (R168). -/
def swapTile (a : Arr) (e : Entry) (acc : List Word) (s : State) : State :=
  let x := getArr s a
  touch (setArr a { x with swap := none, shadow := some (mkTile s e acc), acc := [], isOpen := false } s)

/-- DRAIN starts in the clk of its swap; with no tile open it drains a tile of +0 (R182, R183). -/
def execDrain (a : Arr) (s : State) : Host.Outcome State Fault Refusal :=
  match headFor s (Arr.slot a) 0x18 with
  | none => .next s
  | some e =>
    let x := getArr s a
    if arrFree s a && x.swap.isNone && x.shadow.isNone then
      let acc := if x.isOpen then x.acc else List.replicate (tileM s * tileN s) 0
      .next (swapTile a e acc (dequeue (Arr.slot a) s))
    else .next s

/-- An instruction that takes no k-step and no swap starts and completes (R183, R330). -/
def startQuick (a : Arr) (op : Nat) (f : ArrState → ArrState) (s : State) : State :=
  match headFor s (Arr.slot a) op with
  | none => s
  | some e =>
    if arrFree s a then
      let t := dequeue (Arr.slot a) s
      complete e.id (setArr a (f (getArr t a)) t)
    else s

/-- DISCARD: a tile that a closing instruction has closed waits for its swap and stays (R166, R182). -/
def execDiscard (a : Arr) (s : State) : Host.Outcome State Fault Refusal :=
  .next (startQuick a 0x19 (fun x => if x.swap.isSome then x else { x with acc := [], isOpen := false }) s)

/-- ARM (R181). -/
def execArm (a : Arr) (s : State) : Host.Outcome State Fault Refusal :=
  .next (startQuick a 0x1A (fun x => { x with armed := true }) s)

/-- QUIET (R181). -/
def execQuiet (a : Arr) (s : State) : Host.Outcome State Fault Refusal :=
  .next (startQuick a 0x1B (fun x => { x with quiet := true, armed := false }) s)

/-! ## Swap and drain (R168 to R173) -/

/-- TILE_SWAP: no earlier than the clk after the last k-step, into an empty shadow (R168). -/
def execTileSwap (a : Arr) (s : State) : Host.Outcome State Fault Refusal :=
  let x := getArr s a
  match x.swap with
  | some (c, e) =>
    if engOk s (Arr.slot a) && decide (c < s.clock.clk) && x.shadow.isNone then .next (swapTile a e x.acc s) else .next s
  | none => .next s

/-- Row i of a tile after step 2 of R170. -/
def rowScaled (n : Nat) (t : Tile) : List FVal :=
  ((t.acc.drop (t.row * n)).take n).map fun x => scaleR86 (t.e.e2 - t.e.e0 - t.e.e1) (f32 x)

/-- The next row of a tile converted into its stream, its values folded, its flag set (R170, R172). -/
def drainRow (seed : BitVec 64) (n : Nat) (t : Tile) : Tile × List FVal :=
  let xs := ((t.acc.drop (t.row * n)).take n).map f32
  let i0 := if fmtBlock (tailFmt t.e) then 0 else t.row * n
  let out := t.out.put (tailConv t.e seed i0 (rowScaled n t))
  ({ t with row := t.row + 1, out := out, nf := t.nf || xs.any FVal.nonfinite }, xs)

/-- Scale lines at the end of a drained tile's stream (R172). -/
def tileScaleLines (t : Tile) : Nat := if t.out.sw > 0 then ceilDiv (t.out.total / 32 * t.out.sw) 512 else 0

/-- Lines of a tile pushed, END and NF on its last one (R172). -/
def pushTile (t : Tile) (m room : Nat) (s : State) : Tile × Bool × State :=
  let n := min room t.out.lineq.length
  let out := t.out.leave n
  let fin := decide (t.row = m) && out.lineq.isEmpty
  let ls := (t.out.lineq.take n).mapIdx fun i l =>
    let isEnd := fin && decide (i + 1 = n)
    (l.1, isEnd, isEnd && t.nf)
  ({ t with out := out }, fin, chPush t.e.chOut ls s)

/-- The tile with its next row formed, the row's values, and the lines of room that the row's push needs (R169, R173). -/
def nextRow (s : State) (t : Tile) : Tile × List FVal × Nat :=
  let m := tileM s
  let (t1, vs) := if t.row < m then drainRow s.job.seed (tileN s) t else (t, [])
  (t1, vs, if t1.row = m then max 1 (t1.out.lineq.length - tileScaleLines t1) else t1.out.lineq.length)

/-- DRAIN_ROW_PUSH: one row in a clk, while CH_OUT has room for it (R169, R170, R173). -/
def execDrainRowPush (a : Arr) (s : State) : Host.Outcome State Fault Refusal :=
  let x := getArr s a
  match x.corner with
  | t :: rest =>
    if !engOk s (Arr.slot a) || x.lastRow == some s.clock.clk then .next s
    else
      let m := tileM s
      let room := chRoom s t.e.chOut
      let (t1, vs, need) := nextRow s t
      if room < need then .next s
      else
        let s := match t.e.foldSlot with
          | some sl => foldInto sl vs s
          | none => s
        let (t2, fin, s) := pushTile t1 m room s
        let y := { getArr s a with corner := if fin then rest else t2 :: rest, lastRow := some s.clock.clk }
        let s := touch (setArr a y s)
        .next (if fin then complete t.e.id (if t2.nf then bump (0x01C + Arr.slot a) 1 s else s) else s)
  | [] => .next s

/-! ## Activity ramp (R179 to R181) -/

/-- The queue head, from the clk after its issue, broadcasts k-steps (R100); an instruction that has started and not broadcast its last one counts (log 16). -/
def headBroadcasts (s : State) (a : Arr) : Bool :=
  (getArr s a).run.isSome ||
    (match getQ s (Arr.slot a) with
      | e :: _ => arrBroadcasts e.op && decide (e.clk < s.clock.clk)
      | [] => false)

/-- The clk update of R179 but for the level's move, which ACTIVITY_LEVEL_STEP makes, and the column shift of the shadow
(R169, R173). An array that a reset holds goes down to level 0 (R192). -/
def arrTick (a : Arr) (s : State) : State :=
  let x := getArr s a
  let held := s.rst.engHeld.contains (Arr.slot a) || !stepDone s 9
  let hb := headBroadcasts s a && !halted s && !held
  let idle := if x.broadcastNow then 0 else min (x.idle + 1) 64
  let quiet := x.quiet && !hb
  let target := if held then 0 else if x.armed || hb then 8 else if quiet || idle == 64 || halted s then 0 else x.target
  let cnt := if x.level = target then 0 else min 4 (x.cnt + 1)
  let x := { x with idle := idle, quiet := quiet, target := target, cnt := cnt, broadcastNow := false }
  let d := if s.cfg.wide && s.img.cur.fuse then 64 else 32
  let x := match x.shadow with
    | some t =>
      if x.corner.length ≥ 2 then x
      else if t.cols + 1 ≥ d then { x with shadow := none, corner := x.corner ++ [{ t with cols := d }] }
      else { x with shadow := some { t with cols := t.cols + 1 } }
    | none => x
  setArr a x s

/-- ACTIVITY_LEVEL_STEP: after 4 counted clk the level moves one step toward its target (R179). -/
def execActivityLevelStep (a : Arr) (s : State) : Host.Outcome State Fault Refusal :=
  let x := getArr s a
  if x.cnt = 4 ∧ !s.clock.skip ∧ x.level ≠ x.target then
    .next (setArr a { x with level := if x.level < x.target then x.level + 1 else x.level - 1, cnt := 0 } s)
  else .next s

end Sys2Proof.Machine
end

