-- ==== Sys2Proof/Machine/ResetCore.lean ====
section
/-! DEFINITION. What a reset sets (13_reset_and_power R430 to R437, and the reset rule of each engine chapter), and how
a source asserts and releases. The commands that assert a source stand in Reset.lean. -/

namespace Sys2Proof.Machine

/-- First release step that a reach holds (R431); 10 where it holds none whole. -/
def reachFirst (reach : Nat) : Nat :=
  match reach with
  | 1 => 1
  | 2 => 4
  | 3 => 8
  | _ => 10


/-- Gap before step k in ref_clk cycles (R433). -/
def stepGap (k : Nat) : Nat := [0, 16, 16, 16, 8, 8, 8, 4, 4].getD (k - 1) 0

/-- Widest asserted reach as RST_STATUS.REACH codes it (R440); 0 none. -/
def widestReach (s : State) : Nat :=
  s.rst.srcs.foldl (fun r x => if r = 0 ∨ x.reach < r then x.reach else r) 0

/-- The safe defaults of R437 are in use: no frame has been committed, or three loads have failed. While a warm reset loads the frame
anew, the values of the frame committed before it stay in use (DEDUCED, log 97). -/
def safeTrim (s : State) : Bool := !s.trim.committed || s.trim.state == 3

/-- Fused maximum level, or PL1 on safe defaults (R27, R437). -/
def fusedLevel (s : State) : Nat := if safeTrim s then 1 else s.trim.fusedMax.toNat

/-- The limit of the regulator's current in mA on safe defaults, 75 % of the full-mode rating (R437); a trimmed core's follows its
code, which the spec gives no value for. -/
def currentLimit (s : State) : Option Nat := if safeTrim s then some (if s.cfg.wide then 3000 else 1650) else none

/-- pl_limit (R27): PL1 while the trim and option load has not committed in the present release, and where it has failed for
good. -/
def plLimit (s : State) : Nat :=
  if safeTrim s || !stepDone s 4 then 1 else min s.trim.fusedMax.toNat s.img.cur.plimit

/-- Voltage of a level in 5 mV (00_scope: 0.55, 0.65, 0.75, 0.85 V). -/
def levelVolt (l : Nat) : Nat := 0x6E + 20 * l

/-- The voltage the regulator targets in full mode: the higher of the level in force and of pl_target (R24). -/
def voltTarget (s : State) : Nat := max (levelVolt s.pwr.level.toNat) (levelVolt s.pwr.target.toNat)

/-- The pool with the bytes of every address that keep refuses at zero, unpoisoned and with valid check bits (R284). -/
def poolKeep (keep : Nat → Bool) (s : State) : State :=
  { s with pool := { s.pool with
      mem := s.pool.mem.filter fun c => keep c.1
      poison := s.pool.poison.filter fun c => keep (8 * c.1)
      upset := s.pool.upset.filter fun c => keep (8 * c.1)
      writeback := s.pool.writeback.filter fun w => keep (8 * w) } }

/-- An array that a reset empties: its level goes down under R188 before the domain is held (R192). -/
def ArrState.clear (a : ArrState) : ArrState := { ArrState.init with level := a.level, cnt := a.cnt }

/-- What every reset of data reach or wider sets (R83, R111, R117, R118, R144, R192, R200, R223, R253, R266, R273, R321,
R322, R346, R385, R457, R489): the engines, the receiver, the issue point, the program's registers and the port's request
state. Pool, images, routes, trim and link stay. -/
def clearData (s : State) : State :=
  { s with
    out := { s.out with sprRdy := false, coreLate := false, coreFault := false }
    err := { s.err with fresh := s.err.fresh.map fun f => { f with halt := false } }
    rcv := Rcv.init
    issue := { Issue.init with lastEdge := s.issue.lastEdge, lastDue := s.issue.lastDue, beatLen := s.issue.beatLen
                               nextId := s.issue.nextId, nextBundle := s.issue.nextBundle }
    q := Queues.empty
    live := []
    gates := []
    mxa := s.mxa.clear
    mxb := s.mxb.clear
    turn := Turn.init
    vec := VecState.init
    ocache := []
    ocUpset := []
    rsu := RsuState.init
    crs := []
    mov := MovState.init
    syn := SynState.init
    scl := SclState.init
    chans := List.replicate 56 Chan.empty
    sregs := []
    s63 := 0
    descs := []
    scales := []
    scaleNow := []
    flags := []
    flagUpset := []
    descUpset := []
    flagOld := []
    fab := { s.fab with outst := [], txq := s.fab.txq.filter (fun p => p.req.isNone && p.liveId.isNone), recv := [], parked := [], adds := [], carries := [] }
    sync := { s.sync with stall := 0, active := false }
    ckpt := { s.ckpt with copy := none, restore := none, state := if s.ckpt.state = 3 then (if s.ckpt.arm then 2 else 0) else s.ckpt.state }
    st := { s.st.unstop with run := none, failNow := false }
    undo := none
    img := { s.img with pend := false }
    pwr := { s.pwr with state := 1, hwhy := 0 }
    rst := { s.rst with engHeld := [] } }

/-- What warm and cold resets set besides (R351, R381, R442, R446, R477): job registers, both route tables, the level in
force, pl_ready, the checkpoint's valid bits. -/
def clearWarm (s : State) : State :=
  { s with
    job := Job.init
    fab := { s.fab with txq := [], routes0 := [], routes1 := [], active := false, commit := false, copying := false, waiting := [] }
    routeUpset := []
    pwr := { s.pwr with level := 0, ready := false, awaitCommit := true }
    ckpt := { s.ckpt with arm := false, lvalid := false, rvalid := false, rx := none
                          state := if s.ckpt.state = 2 then 0 else s.ckpt.state } }

/-- What a cold reset sets besides (R338, R344, R362, R383, R400, R405, R411, R420, R424, R432, R436, R452, R459, R478,
R488): the registers of the management domain, the operand-independent records, and RST_CAUSE by the caller. -/
def clearCold (s : State) : State :=
  { s with
    own := Own.init
    sb := { s.sb with retry := [], requeue := false, rxq := [] }
    dbg := ⟨false, 0, [], List.replicate 8 0, 0⟩
    img := { s.img with hashA := List.replicate 8 0, hashB := List.replicate 8 0, infV := false, inf := false
                        pslot := false }
    cnt := Cnt.init
    err := Err.init
    sync := Sync.init
    ckpt := Ckpt.init
    st := SelfTest.init
    trim := Trim.init
    fab := { s.fab with routeIdx := 0, norx := 0, fabDrop := 0, sbStranger := 0, ring := List.replicate 16 Digest.init }
    pwr := { Pwr.init with vout := s.pwr.vout, slewFrom := s.pwr.slewFrom, slewAt := s.pwr.slewAt
                           mode := s.pwr.mode, lostLink := s.pwr.lostLink
                           brownout := s.pwr.brownout, target := s.pwr.target }
    out := { s.out with thermWarn := false } }

/-- The GMI link layer is lost (R443). -/
def loseLink (s : State) : State :=
  { s with
    fab := { s.fab with txCred0 := 0, txCred1 := 0, rxCred0 := 0, rxCred1 := 0, link := false, rxbuf := [] }
    pwr := { s.pwr with lostLink := true } }

/-- Step 4 is interrupted (R432, R436): fuse_req falls, the shadow is discarded, RST_CAUSE bit 9 is set. -/
def interruptTrim (s : State) : State :=
  match s.rst.steps[3]? with
  | some x =>
    if x.st == 1 && s.trim.state == 1 then
      { s with trim := { s.trim with state := 0, fuseReq := false, retryAt := none }
               rst := { s.rst with cause := s.rst.cause ||| 0x200 } }
    else s
  | none => s

/-- The steps from first on are held (R434). -/
def holdSteps (first : Nat) (s : State) : State :=
  { s with rst := { s.rst with steps := s.rst.steps.mapIdx fun i x =>
      if first ≤ i + 1 then { x with st := 0, tFree := s.clock.refc + 1 } else x } }

/-- The cause bits of the sources asserted (R432). -/
def causeBits (s : State) : BitVec 10 := s.rst.srcs.foldl (fun c x => c ||| (1 <<< x.bit)) 0

/-- A core in Shallows or Off leaves it (R442, R446, R450): PL0 is in force from the start of the release. -/
def wakePwr (s : State) : State :=
  { s with pwr := { s.pwr with state := 1, hwhy := 0, level := 0, ready := false, awaitCommit := true } }

/-- A source of data reach or wider asserts (R430, R431, R432, R434, R435). -/
def assertReset (bit reach : Nat) (s : State) : State :=
  let asleep := !awake s
  let already := s.rst.srcs.any fun x => x.bit == bit
  let first := if asleep then 1 else reachFirst reach
  let src : RstSrc := ⟨bit, reach, s.clock.refc, 7, first⟩
  let srcs := if already then s.rst.srcs.map (fun x => if x.bit == bit then src else x) else s.rst.srcs ++ [src]
  let layout := if asleep then s.rst.layout else if s.rst.steps.all (fun x => x.st == 2) then s.img.cur.areas else s.rst.layout
  let s := { s with rst := { s.rst with srcs := srcs, layout := layout } }
  let interrupted := decide (reach ≤ 2) && s.trim.state == 1
  let s := if reach ≤ 2 then interruptTrim s else s
  let s := clearData s
  let s := if asleep then wakePwr s else s
  let s := if reach ≤ 2 then clearWarm s else s
  let s := if reach = 1 then clearCold s else s
  let s := if reach = 1 ∧ bit ≤ 1 then loseLink s else s
  let cause := if reach = 1 then causeBits s ||| (if interrupted then 0x200 else 0) else s.rst.cause ||| (1 <<< bit)
  let s := { s with rst := { s.rst with
      cause := cause
      wdog := if reach = 1 then 0 else s.rst.wdog
      cold := s.rst.cold || reach == 1
      fromSleep := s.rst.fromSleep || asleep
      fromPower := s.rst.fromPower || (reach == 1 && decide (bit ≤ 1)) } }
  holdSteps first s

/-- A control-state parity error (R149, R458): log kind, and a data reset (R430). -/
def ctrlParity (c : FaultCtx) (s : State) : State := assertReset 6 3 (logError 0x45 c s)

/-- An uncorrectable error in critical state (R322, R458): log kind, and a warm reset (R430). -/
def critUe (c : FaultCtx) (s : State) : State := assertReset 5 2 (logError 0x44 c s)

/-- A read of a word of critical state with n wrong bits (R430, R459): a correction is counted, an uncorrectable word resets the
core; and whether the word could be used. -/
def critRead (key n : Nat) (s : State) : State × Bool :=
  match secDed s key n with
  | 0 => (s, true)
  | 1 => ({ s with err := { s.err with critCe := satCount 8 (s.err.critCe + 1) } }, true)
  | _ => (critUe FaultCtx.none s, false)

/-- Reads of several words, up to the first that cannot be used. -/
def critReads : List (Nat × Nat) → State → State × Bool
  | [], s => (s, true)
  | p :: ps, s =>
    match critRead p.1 p.2 s with
    | (t, true) => critReads ps t
    | (t, false) => (t, false)

/-- Descriptors read from the file (R112). -/
def descReads (ds : List (Nat × Nat)) (s : State) : State × Bool :=
  if s.descUpset.isEmpty then (s, true)
  else critReads (ds.map fun d => (d.1 * 64 + d.2, mget 0 s.descUpset (d.1 * 64 + d.2))) s

/-- What is done with a flag after its ECC word has been read (R322): nothing where the word is uncorrectable. -/
def flagUse (f : Nat) (act : State → State) (s : State) : State :=
  match critRead (f / 4) (mget 0 s.flagUpset (f / 4)) s with
  | (t, true) => act t
  | (t, false) => t

/-- A fabric add changes its flag (R323, R324). -/
def landAdd (a : FlagAdd) (s : State) : State :=
  flagUse a.flag (fun t =>
    let u := addFlag a.flag a.amount a.inst a.src t
    if a.remote && u.flags != t.flags then bump 0x033 1 u else u) s

/-- The fabric adds of the clk that ends change their flags, in the order of R324. -/
def landAdds (s : State) : State :=
  if s.fab.adds.isEmpty then s
  else
    let l := s.fab.adds
    let t := { s with fab := { s.fab with adds := [] } }
    [0, 1, 2].foldl (fun u r => (l.filter fun a => a.rank == r).foldl (fun u a => landAdd a u) u) t

/-- The straps are latched when a cold reset releases (R36). -/
def latchStraps (s : State) : State := { s with straps := s.strapPins }

/-- Some asserted source holds step k (R434). -/
def stepHeld (s : State) (k : Nat) : Bool := s.rst.srcs.any fun x => decide (x.first ≤ k)

/-- The sources that p picks release (R434): the steps they held count their gap from this cycle, the engines they held
are released, and the last cold one latches the straps (R36). -/
def releaseWhere (p : RstSrc → Bool) (s : State) : State :=
  let gone := s.rst.srcs.filter p
  let rest := s.rst.srcs.filter fun x => !p x
  let engs := (gone.filter fun x => x.reach == 4).map (·.eng)
  let t := { s with rst := { s.rst with
      srcs := rest
      engHeld := s.rst.engHeld.filter fun e => !engs.contains e
      steps := s.rst.steps.mapIdx fun i (y : RstStep) =>
        if y.st = 0 && gone.any (fun x => decide (x.first ≤ i + 1)) then { y with tFree := s.clock.refc } else y } }
  let t := { t with
    mxa := if engs.contains 0 then { t.mxa with level := 0 } else t.mxa
    mxb := if engs.contains 1 then { t.mxb with level := 0 } else t.mxb }
  if gone.any (fun x => x.reach == 1) && !rest.any (fun x => x.reach == 1) then latchStraps t else t

/-- The channel endpoints of an engine slot (R106). -/
def slotEnds (eng : Nat) : List Nat :=
  match eng with
  | 0 => [1]
  | 1 => [2]
  | 2 => [3]
  | 3 => [4]
  | 4 => [6, 7, 8, 9, 10, 11]
  | 5 => []
  | _ => [13]

/-- The lines of fork channels that the consumers ends have popped and not used are gone. -/
def dropHoldsOf (ends : List Nat) (s : State) : State :=
  { s with chans := s.chans.mapIdx fun c x =>
      { x with hold0 := if ends.contains (chEnt s c).cons0 then [] else x.hold0
               hold1 := if ends.contains (chEnt s c).cons1 then [] else x.hold1 } }

/-- An engine reset (R192, R200, R253, R266, R273, R321, R322, R346, R489): the engine's queue and work go, its
registers stay. Gates that hold the slot are cleared. -/
def engineReset (eng : Nat) (s : State) : State :=
  let s := setQ eng [] { dropHoldsOf (slotEnds eng) s with
    gates := s.gates.map (fun g => { g with slots := g.slots.filter (· != eng) })
    live := s.live.filter (fun l => l.slot != eng) }
  let s := match eng with
    | 0 => { s with mxa := s.mxa.clear }
    | 1 => { s with mxb := s.mxb.clear, turn := Turn.init }
    | 2 => { s with vec := VecState.init, issue := { s.issue with chain := [] } }
    | 3 => { s with rsu := RsuState.init }
    | 4 => { s with mov := MovState.init
                    fab := { s.fab with txq := s.fab.txq.filter fun p => p.req.isNone && p.liveId.isNone
                                        outst := s.fab.outst.filter fun o => decide (o.owner ≥ 3) } }
    | 5 => { s with syn := { SynState.init with lastDone := s.syn.lastDone }
                    gates := [] }
    | _ => { s with scl := SclState.init }
  { s with
    rst := { s.rst with
      cause := s.rst.cause ||| 8
      engHeld := if s.rst.engHeld.contains eng then s.rst.engHeld else s.rst.engHeld ++ [eng]
      srcs := s.rst.srcs ++ [⟨3, 4, s.clock.refc, eng, 10⟩] } }

end Sys2Proof.Machine
end

