-- ==== Sys2Proof/Machine/Regs.lean ====
section
/-! DEFINITION. The management window as it reads (12_management R407 to R424, 13_reset_and_power R438 to R452,
14_faults_and_recovery R459, R478, R488, 10_flags_and_beat R337 to R344, 11_fabric_and_reduction R352, R362, R381, R383). -/

namespace Sys2Proof.Machine

/-- A word from fields: each with the lowest bit of its place. -/
def packWord (fs : List (Nat × Nat)) : Word := word (fs.foldl (fun n f => n + (f.2 <<< f.1)) 0)

/-! ## Identity, ownership -/

/-- CONFIG_ID[7:0], the structural identity (R410). -/
def structId (c : Cfg) : Nat :=
  (b2n c.tb1 <<< 4) + (b2n c.acmp <<< 3) + (b2n c.cmpc <<< 2) + (b2n c.vw256 <<< 1) + b2n c.wide

/-- CORE_ID (R409). -/
def coreIdWord (s : State) : Word := word s.straps.core.toNat
/-- CONFIG_ID (R409). -/
def configIdWord (s : State) : Word := packWord [(16, s.cfg.mfr.toNat), (8, s.cfg.cls.toNat), (0, structId s.cfg)]
/-- VERSION (R409). -/
def versionWord (s : State) : Word :=
  packWord [(24, s.cfg.rtlMaj.toNat), (16, s.cfg.rtlMin.toNat), (8, s.cfg.rom.toNat), (0, s.dbg.level.toNat)]
/-- STRAPS (R409). -/
def strapsWord (s : State) : Word := packWord [(24, s.straps.feed.toNat), (16, s.straps.slot.toNat), (0, s.straps.chip.toNat)]
/-- FABRIC_ID (R409). -/
def fabricIdWord (s : State) : Word := packWord [(20, s.straps.chip.toNat), (16, 1), (0, s.straps.core.toNat)]
/-- PWR_STATE (R452). -/
def pwrStateWord (s : State) : Word :=
  packWord [(29, s.pwr.state), (28, b2n s.pins.pondHalt), (26, s.pwr.hwhy), (24, s.pwr.wake), (8, s.pwr.wcnt)]
/-- ERR_FIRST (R459). -/
def errFirstWord (s : State) : Word := packWord [(31, b2n s.err.v), (8, s.err.more), (0, s.err.code.toNat)]

/-- The eight words of IDENT, ANNOUNCE and PROBER (R360, R393). -/
def identWords (s : State) : List Word :=
  [coreIdWord s, configIdWord s, versionWord s, strapsWord s, pwrStateWord s, word s.job.id.toNat, word s.job.rank.toNat,
   errFirstWord s]

/-- OWN_STATE (R407). -/
def ownStateWord (s : State) : Word :=
  packWord [(30, s.own.state), (29, b2n s.own.lock), (28, b2n s.own.eopen), (16, s.own.owner.toNat), (8, s.own.prio.toNat)]

/-- An ENROL entry (R400). -/
def EnrolEnt.word (e : EnrolEnt) : Word :=
  packWord [(31, b2n e.v), (30, b2n e.claim), (16, e.maxpri.toNat), (0, e.station.toNat)]

/-- 0x0000 to 0x01FF. -/
def readOwn (s : State) (a : Nat) : Option Word :=
  let t : List (Nat × Word) :=
    [(0x0000, coreIdWord s),
     (0x0004, configIdWord s),
     (0x0008, versionWord s),
     (0x000C, strapsWord s),
     (0x0010, fabricIdWord s),
     (0x0100, ownStateWord s),
     (0x0104, packWord [(24, s.own.prio.toNat), (0, s.own.nonce.toNat)]),
     (0x0108, packWord [(8, s.own.ticks.toNat), (0, s.own.remain.toNat)]),
     (0x010C, packWord [(8, s.own.win.toNat), (0, s.own.succ.toNat)]),
     (0x0110, packWord [(16, s.own.wnack), (0, s.own.cdeny)]),
     (0x0114, packWord [(16, s.own.rxerr), (8, s.own.aband), (0, s.own.qovf)])]
  match t.lookup a with
  | some w => some w
  | none =>
    if 0x0140 ≤ a ∧ a < 0x0180 then some (s.own.enrol.getD ((a - 0x0140) / 4) EnrolEnt.init).word else none

/-! ## Reset, trim, power -/

/-- RST_STATUS (R440). -/
def rstStatusWord (s : State) : Word :=
  let done := (List.range 9).foldl (fun n k => if stepDone s (k + 1) then n + (1 <<< k) else n) 0
  packWord [(31, b2n (done != 0x1FF)), (28, widestReach s), (20, s.rst.engHeld.foldl (fun n e => n ||| (1 <<< e)) 0), (0, done)]

/-- TRIM_STATUS (R440). -/
def trimStatusWord (s : State) : Word :=
  packWord [(30, s.trim.state), (28, s.trim.fails), (24, s.trim.cause), (15, b2n s.trim.ign), (8, s.trim.ignIdx), (0, s.trim.nrep)]

/-- PWR_LEVEL_CUR (R452). -/
def levelCurWord (s : State) : Word :=
  packWord [(24, s.pwr.vout), (8, b2n s.pwr.mode), (4, fusedLevel s), (2, plLimit s), (0, s.pwr.level.toNat)]

/-- 0x0400 to 0x0FFF. -/
def readPower (s : State) (a : Nat) : Option Word :=
  let t : List (Nat × Word) :=
    [(0x0400, word s.rst.cause.toNat),
     (0x0404, 0),
     (0x0408, rstStatusWord s),
     (0x040C, trimStatusWord s),
     (0x0800, pwrStateWord s),
     (0x0804, packWord [(3, b2n s.pwr.ready), (0, s.pwr.target.toNat)]),
     (0x0808, levelCurWord s),
     (0x0810, word s.img.cur.power),
     (0x0814, word (s.img.cur.power >>> 32)),
     (0x0818, word (s.img.cur.power >>> 64)),
     (0x081C, word (s.img.cur.power >>> 96)),
     (0x0820, 1),
     (0x0830, word s.pwr.tarn),
     (0x0834, word (s.pwr.tarn >>> 32)),
     (0x0840, word s.pwr.period),
     (0x0844, s.pwr.sprout)]
  t.lookup a

/-! ## Shape image, job -/

/-- IMG_STATUS (R417). -/
def imgStatusWord (s : State) : Word :=
  packWord [(19, b2n s.img.pend), (18, b2n s.img.infV), (17, b2n s.img.inf), (16, b2n s.img.pslot), (8, s.img.b.status),
    (0, s.img.a.status)]

/-- 0x1000 to 0x1FFF. -/
def readImage (s : State) (a : Nat) : Option Word :=
  let t : List (Nat × Word) :=
    [(0x1000, 0),
     (0x1004, imgStatusWord s),
     (0x1008, word s.img.bytes),
     (0x100C, 0),
     (0x1800, word s.job.id.toNat),
     (0x1804, word s.job.rank.toNat),
     (0x1808, word s.job.nranks),
     (0x180C, word s.job.nfMode),
     (0x1810, word (b2n s.job.lateMode)),
     (0x1814, word s.job.divMode),
     (0x1818, word s.job.dlb.toNat),
     (0x181C, word s.job.dls.toNat),
     (0x1820, word s.job.seed.toNat),
     (0x1824, word (s.job.seed.toNat >>> 32))]
  match t.lookup a with
  | some w => some w
  | none =>
    if 0x1020 ≤ a ∧ a < 0x1040 then some (s.img.hashA.getD ((a - 0x1020) / 4) 0)
    else if 0x1040 ≤ a ∧ a < 0x1060 then some (s.img.hashB.getD ((a - 0x1040) / 4) 0)
    else none

/-! ## Counters -/

/-- The 48-bit value whose LO word stands at offset a (R424). -/
def cntValue (s : State) (a : Nat) : Option Nat :=
  if a = 0x2080 then some s.cnt.cyc
  else if a = 0x2280 then some s.cnt.cycSnap
  else if 0x2100 ≤ a ∧ a < 0x2180 ∧ a % 8 = 0 then some (s.cnt.val.getD ((a - 0x2100) / 8) 0)
  else if 0x2200 ≤ a ∧ a < 0x2280 ∧ a % 8 = 0 then some (s.cnt.snaps.getD ((a - 0x2200) / 8) 0)
  else none

/-- 0x2000 to 0x2FFF. A HI word reads as the half that a read of its LO word captured, if there is one (R424). -/
def readCounters (s : State) (a : Nat) : Option Word :=
  let t : List (Nat × Word) :=
    [(0x2000, packWord [(31, b2n s.cnt.en), (30, b2n s.cnt.snap), (29, b2n s.cnt.keep), (28, b2n s.cnt.stream),
      (20, s.cnt.sdst.toNat), (12, s.cnt.sper.toNat)]),
     (0x2004, packWord [(16, s.cnt.shed), (0, s.cnt.ovf)]),
     (0x2288, s.cnt.snapBeat)]
  match t.lookup a with
  | some w => some w
  | none =>
    if 0x2040 ≤ a ∧ a < 0x2080 then some (word (s.cnt.sel.getD ((a - 0x2040) / 4) 0))
    else match cntValue s a with
      | some v => some (word v)
      | none =>
        if a ≥ 4 then
          match cntValue s (a - 4) with
          | some v => some (match s.cnt.cap.lookup (a - 4) with
              | some h => h
              | none => word (v >>> 32))
          | none => none
        else none

/-! ## Errors, beat, fabric -/

/-- A word of an ERR_LOG entry (R459). -/
def LogEnt.word (e : LogEnt) (i : Nat) : Word :=
  match i with
  | 0 => packWord [(31, b2n e.v), (16, e.code.toNat), (0, e.tag.toNat)]
  | 1 => e.arg0
  | 2 => e.arg1
  | _ => e.beat

/-- 0x3000 to 0x3FFF. -/
def readErrors (s : State) (a : Nat) : Option Word :=
  let t : List (Nat × Word) :=
    [(0x3000, errFirstWord s),
     (0x3020, packWord [(16, s.err.ovw), (0, s.err.wptr)]),
     (0x3024, packWord [(16, s.err.poolCe), (0, s.err.poolUe)]),
     (0x3028, packWord [(16, s.err.ocCe), (8, s.err.critCe), (0, s.err.ocUe)]),
     (0x3800, word s.sync.holdMaxReg),
     (0x3804, word s.sync.stallLimit),
     (0x3808, packWord [(16, s.sync.lateBeats), (0, s.sync.lateMax)])]
  match t.lookup a with
  | some w => some w
  | none =>
    if 0x3004 ≤ a ∧ a < 0x3020 then some (s.err.info.getD ((a - 0x3004) / 4) 0)
    else if 0x3100 ≤ a ∧ a < 0x3300 then some ((s.err.log.getD ((a - 0x3100) / 16) LogEnt.init).word ((a - 0x3100) / 4 % 4))
    else if 0x3840 ≤ a ∧ a < 0x3864 then some (s.sync.snap.getD ((a - 0x3840) / 4) 0)
    else none

/-- The copy of the route table that is the shadow (R351, R352). -/
def shadowCopy (s : State) : Bool := !s.fab.active

/-- A shadow entry. -/
def shadowEntry (s : State) (i : Nat) : Word := mget 0 (if shadowCopy s then s.fab.routes1 else s.fab.routes0) i

/-- 0x4000 to 0x4FFF. -/
def readFabric (s : State) (a : Nat) : Option Word :=
  let t : List (Nat × Word) :=
    [(0x4000, word s.fab.routeIdx.toNat),
     (0x4004, shadowEntry s s.fab.routeIdx.toNat),
     (0x4008, packWord [(1, b2n s.fab.active), (0, b2n s.fab.commit)]),
     (0x400C, packWord [(31, b2n s.fab.link), (30, b2n s.fab.commit), (16, satCount 8 s.fab.outst.length),
      (8, s.fab.recv.length), (0, s.fab.norx)]),
     (0x4010, packWord [(16, s.fab.fabDrop), (0, s.fab.sbStranger)])]
  t.lookup a

/-! ## Checkpoint, self-test, debug -/

/-- A word of a digest ring entry (R383). -/
def Digest.word (d : Digest) (i : Nat) : Word :=
  match i with
  | 0 => packWord [(31, b2n d.v), (16, d.job), (0, d.step)]
  | 1 => Sys2Proof.word d.sent
  | 2 => Sys2Proof.word (d.sent >>> 32)
  | 3 => Sys2Proof.word d.recv
  | 4 => Sys2Proof.word (d.recv >>> 32)
  | 5 => Sys2Proof.word d.nsent
  | 6 => Sys2Proof.word d.nrecv
  | _ => 0

/-- CKPT_STATUS (R478). -/
def ckptStatusWord (s : State) : Word :=
  packWord [(28, s.ckpt.state), (27, b2n s.ckpt.lvalid), (26, b2n s.ckpt.rvalid), (25, b2n s.ckpt.rxbad), (24, b2n s.ckpt.sameFeed)]

/-- ST_STATUS (R488). -/
def stStatusWord (s : State) : Word :=
  packWord [(28, s.st.state), (25, s.st.last), (16, s.st.unit.toNat), (0, s.st.runs)]

/-- 0x5000 to 0x5FFF. -/
def readCkpt (s : State) (a : Nat) : Option Word :=
  let t : List (Nat × Word) :=
    [(0x5000, s.ckpt.partner),
     (0x5004, s.ckpt.pbase),
     (0x5008, s.ckpt.area),
     (0x500C, s.ckpt.src),
     (0x5010, s.ckpt.snap),
     (0x5014, s.ckpt.sbase),
     (0x5018, word s.ckpt.srcJob.toNat),
     (0x501C, packWord [(31, b2n s.ckpt.arm), (30, b2n s.ckpt.sameAck), (29, b2n s.ckpt.rcv), (13, s.ckpt.tseq.toNat)]),
     (0x5020, ckptStatusWord s),
     (0x5024, packWord [(16, s.ckpt.lseq.toNat), (0, s.ckpt.rseq.toNat)]),
     (0x5028, word s.ckpt.ldig.toNat),
     (0x502C, word (s.ckpt.ldig.toNat >>> 32)),
     (0x5030, word s.ckpt.rdig.toNat),
     (0x5034, word (s.ckpt.rdig.toNat >>> 32)),
     (0x5038, word (ckptLen s))]
  match t.lookup a with
  | some w => some w
  | none =>
    if 0x5100 ≤ a ∧ a < 0x5300 then some ((s.fab.ring.getD ((a - 0x5100) / 32) Digest.init).word ((a - 0x5100) / 4 % 8)) else none

/-- 0x6000 to 0xFFFF. -/
def readTest (s : State) (a : Nat) : Option Word :=
  let t : List (Nat × Word) :=
    [(0x6000, 0),
     (0x6004, stStatusWord s),
     (0x6010, packWord [(16, s.st.tempSram.toNat), (0, s.st.tempLogic.toNat)]),
     (0x6014, packWord [(8, s.st.calCode.toNat), (0, s.st.calCnt.toNat)]),
     (0x8000, word (b2n s.dbg.lock)),
     (0x8004, 0),
     (0x8008, word s.dbg.status),
     (0x800C, 0)]
  match t.lookup a with
  | some w => some w
  | none => if 0x8020 ≤ a ∧ a < 0x8040 then some (s.dbg.hash.getD ((a - 0x8020) / 4) 0) else none

/-- What offset a of the window reads as; none where no register stands (R394 ADDR, R408). WO fields read as 0 (R396). -/
def regValue (s : State) (a : Nat) : Option Word :=
  if a % 4 ≠ 0 then none
  else match a / 4096 with
    | 0 => if a < 0x400 then readOwn s a else readPower s a
    | 1 => readImage s a
    | 2 => readCounters s a
    | 3 => readErrors s a
    | 4 => readFabric s a
    | 5 => readCkpt s a
    | _ => readTest s a

/-- The effects of a read: ROUTE_IDX advances (R352), a LO word captures its HI half, a HI word gives it up (R424). -/
def readEffect (a : Nat) (s : State) : State :=
  if a = 0x4004 then { s with fab := { s.fab with routeIdx := s.fab.routeIdx + 1 } }
  else match cntValue s a with
    | some v => { s with cnt := { s.cnt with cap := (a, word (v >>> 32)) :: s.cnt.cap.filter fun c => c.1 != a } }
    | none => if a ≥ 4 then { s with cnt := { s.cnt with cap := s.cnt.cap.filter fun c => c.1 != a - 4 } } else s

end Sys2Proof.Machine
end

