-- ==== Sys2Proof/Machine/Tables.lean ====
section
/-! DEFINITION. Function tables (07_vector R245 to R248, R490): the loadable tables of the image in force and the fixed
tables, whose coefficients are free values but for the ones R247 states (log 7). -/

namespace Sys2Proof.Machine

/-- A table as the evaluation reads it: bounds, scale, tails and coefficients by segment and index. -/
structure Table where
  red : Nat
  loTail : Nat
  hiTail : Nat
  dLo : FVal
  scale : FVal
  dHi : FVal
  loVal : FVal
  loSlope : FVal
  hiVal : FVal
  hiSlope : FVal
  coeff : Nat → Nat → FVal

/-- A loadable table (R245). -/
def FTable.table (t : FTable) : Table :=
  ⟨t.red, t.loTail, t.hiTail, f32 t.dLo, f32 t.scale, f32 t.dHi, f32 t.loVal, f32 t.loSlope, f32 t.hiVal, f32 t.hiSlope,
    fun seg i => f32 (t.coeff.getD (4 * seg + i) 0)⟩

/-- A coefficient of the fixed-table file (R490). c0 of segment 0 is as R247 states, for EXP2, LOG2, RCP, RSQRT, TANH and
ERF. A coefficient is finite, as the exactness that R247 states at t = 0 requires (DEDUCED, log 7). -/
def fixedCoeff (fn seg i : Nat) : FVal :=
  if seg = 0 ∧ i = 0 ∧ (fn = 0 ∨ fn = 2 ∨ fn = 3) then FVal.ofNat 1
  else if seg = 0 ∧ i = 0 ∧ (fn = 1 ∨ fn = 4 ∨ fn = 6) then FVal.zero false
  else
    let v := f32 (Config.fixedCoeff fn seg i)
    if v.nonfinite then FVal.zero false else v

/-- Domain of a fixed table (R247), fn 0 EXP2 to 6 ERF. -/
def fixedDomain (fn : Nat) : Int × Int :=
  match fn with
  | 0 => (0, 1)
  | 1 => (1, 2)
  | 2 => (1, 2)
  | 3 => (1, 4)
  | 4 => (0, 10)
  | 5 => (-20, 20)
  | _ => (0, 4)

/-- A fixed table (R245, R247): SCALE is 256 / (D_HI − D_LO) rounded to nearest even. -/
def fixedTable (fn : Nat) : Table :=
  let d := fixedDomain fn
  { red := if fn = 4 ∨ fn = 6 then 1 else if fn = 5 then 0 else 3 + fn
    loTail := 0
    hiTail := 0
    dLo := FVal.ofInt d.1
    scale := rneF32v (.fin false 256 (d.2 - d.1).toNat 0)
    dHi := FVal.ofInt d.2
    loVal := FVal.zero false
    loSlope := FVal.zero false
    hiVal := if fn ≥ 4 then FVal.ofNat 1 else FVal.zero false
    hiSlope := FVal.zero false
    coeff := fixedCoeff fn }

/-- seg_eval of R246. -/
def segEval (t : Table) (u : FVal) : FVal :=
  let v := rneF32v ((u.sub t.dLo).mul t.scale)
  let seg := v.floorUpTo 255
  let x := v.sub (FVal.ofNat seg)
  let p := rneF32v (((t.coeff seg 3).mul x).add (t.coeff seg 2))
  let p := rneF32v ((p.mul x).add (t.coeff seg 1))
  rneF32v ((p.mul x).add (t.coeff seg 0))

/-- tail of R246. -/
def tailEval (mode : Nat) (val slope u bound : FVal) : FVal :=
  if mode = 0 then val
  else if mode = 1 then rneF32v (val.add (slope.mul (u.sub bound)))
  else u

/-- table_eval of R246, for RED LIN 0, ODD 1 and EVEN 2. -/
def tableEval (t : Table) (u : FVal) : FVal :=
  if u.isNan then .nan
  else
    let neg := t.red == 1 && u.sign
    let u := if t.red = 0 then u else u.abs
    let p := if u.lt t.dLo then tailEval t.loTail t.loVal t.loSlope u t.dLo
      else if u.lt t.dHi then segEval t u
      else tailEval t.hiTail t.hiVal t.hiSlope u t.dHi
    if neg then p.neg else p

/-- Significand in [1, 2) and exponent of a finite nonzero magnitude (R248). -/
def normalise (u : FVal) : FVal × Int :=
  match u with
  | .fin _ n d e =>
    let k := floorLog2 n d e
    (.fin false n d (e - k), k)
  | v => (v, 0)

/-- 2^u (R248). -/
def exp2Eval (u : FVal) : FVal :=
  if u.isNan then .nan
  else if !(u.lt (FVal.ofNat 128)) then .inf false
  else if u.lt (FVal.ofInt (-150)) then FVal.zero false
  else
    let n := u.floorInt
    rneF32v ((segEval (fixedTable 0) (u.sub (FVal.ofInt n))).scale n)

/-- log2 u (R248). -/
def log2Eval (u : FVal) : FVal :=
  if u.isNan then .nan
  else if u.isZero then .inf true
  else if u.sign then .nan
  else if u.nonfinite then .inf false
  else
    let (m, e) := normalise u
    rneF32v ((FVal.ofInt e).add (segEval (fixedTable 1) m))

/-- 1 / u (R248). -/
def rcpEval (u : FVal) : FVal :=
  match u with
  | .nan => .nan
  | .inf neg => FVal.zero neg
  | .fin neg n d e =>
    if n = 0 then .inf neg
    else
      let (m, k) := normalise (.fin neg n d e)
      let p := (segEval (fixedTable 2) m).scale (-k)
      rneF32v (if neg then p.neg else p)

/-- u^(−1/2) (R248). -/
def rsqrtEval (u : FVal) : FVal :=
  match u with
  | .nan => .nan
  | .inf neg => if neg then .nan else FVal.zero false
  | .fin neg n d e =>
    if n = 0 then .inf neg
    else if neg then .nan
    else
      let k := floorLog2 n d e
      let j := k / 2
      (segEval (fixedTable 3) (.fin false n d (e - 2 * j))).scale (-j)

/-- The function of opcodes 0x30 to 0x38 on a widened operand (R228, R246, R248). -/
def fnEval (s : State) (op opt : Nat) (u : FVal) : FVal :=
  match op with
  | 0x30 => exp2Eval u
  | 0x31 => log2Eval u
  | 0x32 => rcpEval u
  | 0x33 => rsqrtEval u
  | 0x34 => u.sqrt
  | 0x35 => tableEval (fixedTable 4) u
  | 0x36 => tableEval (fixedTable 5) u
  | 0x37 => tableEval (fixedTable 6) u
  | _ =>
    match s.img.cur.ftables.getD (opt % 8) none with
    | some t => tableEval t.table u
    | none => .nan

end Sys2Proof.Machine
end

