-- ==== Sys2Proof/Machine/Rsu.lean ====
section
/-! DEFINITION. The reduction and scan unit (08_reduction_scan R254 to R273): starts with their checks, the flow, row and
column reductions, row statistics, scans, carry registers, and the pushes. -/

namespace Sys2Proof.Machine

/-! ## Fields (R270, R271) -/

/-- CVT-free field readers of an RSU descriptor: FMT_X. -/
def Entry.rFx (e : Entry) : Nat := e.d.fld 0 22 19
/-- FMT_Y (R270). -/
def Entry.rFy (e : Entry) : Nat := e.d.fld 0 18 15
/-- AXIS (R270). -/
def Entry.rAxis (e : Entry) : Bool := wbit e.d.w0 14
/-- EXCL (R270). -/
def Entry.rExcl (e : Entry) : Bool := wbit e.d.w0 13
/-- k of TOPK and BOTK (R261). -/
def Entry.rK (e : Entry) : Nat := e.d.fld 0 12 7 + 1
/-- COP (R268). -/
def Entry.rCop (e : Entry) : Nat := e.d.fld 0 6 4
/-- LEN (R271). -/
def Entry.rLen (e : Entry) : Nat := e.d.fld 1 24 0
/-- ROWLEN (R271). -/
def Entry.rRow (e : Entry) : Nat := e.d.fld 2 31 16 + 1
/-- CH_AUX (R271). -/
def Entry.rAuxCh (e : Entry) : Nat := e.d.fld 2 9 4
/-- A mask is popped: MASK_EN, or SEG (R260). -/
def Entry.rMask (e : Entry) : Bool := wbit e.d.w2 3 || e.b1
/-- The instruction takes carry-ins from registers (R267). -/
def Entry.rCin (e : Entry) : Bool := e.b0 && wbit e.d.w3 31
/-- COUT_MODE, 0 with CARRY = 0 (R267). -/
def Entry.rCout (e : Entry) : Nat := if e.b0 then e.d.fld 3 30 29 else 0
/-- CR_IN, CR_IN2 and CR_OUT (R271). -/
def Entry.crIn (e : Entry) : Nat := e.d.fld 3 28 23
/-- CR_IN2 (R271). -/
def Entry.crIn2 (e : Entry) : Nat := e.d.fld 3 22 17
/-- CR_OUT (R271). -/
def Entry.crOut (e : Entry) : Nat := e.d.fld 3 16 11
/-- STAT_EN of an RSTAT opcode (R265). -/
def Entry.rStat (e : Entry) : Bool := rsuStat e.op && wbit e.d.w4 31
/-- Bytes of a statistics record (R265). -/
def Entry.rStatSize (e : Entry) : Nat := if e.op = 0x11 then 4 else 8

/-- Chunk length W (R254). -/
def rsuChunk (op : Nat) : Nat := if op = 0x1C then 64 else 128

/-- Elements per flow clk (R259). -/
def rsuRate (s : State) (op : Nat) : Nat :=
  if rsuCarryOp op then 4
  else (if op = 8 ∨ op = 9 then 32 else if op = 0x10 ∨ op = 0x12 ∨ op = 0x1C then 64 else 128) * (if s.cfg.vw256 then 2 else 1)

/-- Latency P (R259). -/
def rsuLatency (op : Nat) : Nat :=
  if op = 0x2C then 2 else if rsuCarryOp op then 6
  else if op = 8 ∨ op = 9 then 40 else if op = 0x10 then 24 else if op = 0x12 then 32
  else if 0x18 ≤ op ∧ op ≤ 0x1B then 12 else 16

/-- The carry register at reset: (1.0, +0) (R266). -/
def crDefault : BitVec 64 := 0x3F80000000000000

/-- Carry register n. -/
def crGet (s : State) (n : Nat) : BitVec 64 := mget crDefault s.crs n

/-- Carry register n written. -/
def crSet (n : Nat) (v : BitVec 64) (s : State) : State := { s with crs := mset crDefault s.crs n v }

/-- CA and CV of a record (R266). -/
def crPair (v : BitVec 64) : Word × Word := (word (v.toNat >>> 32), word v.toNat)

/-- A record of CA and CV. -/
def crMake (p : Word × Word) : BitVec 64 := BitVec.ofNat 64 ((p.1.toNat <<< 32) + p.2.toNat)

/-! ## Combining functions (R255) -/

/-- ADD 0, MAX 1, MIN 2, MUL 3 on FP32 words (R255). -/
def combW (op : Nat) (l r : Word) : Word :=
  match op with
  | 0 => rneF32 ((f32 l).add (f32 r))
  | 1 => rneF32 (fmaxv (f32 l) (f32 r))
  | 2 => rneF32 (fminv (f32 l) (f32 r))
  | _ => rneF32 ((f32 l).mul (f32 r))

/-- The empty value of a combining function (R255). -/
def emptyW (op : Nat) : Word := match op with
  | 0 => 0
  | 1 => 0xFF800000
  | 2 => 0x7F800000
  | 3 => 0x3F800000
  | _ => 0

/-- FP32 code of 1.0. -/
def oneW : Word := 0x3F800000

/-- The combining functions on (CA, CV) pairs; 4 is LREC (R255, R267, R268). -/
def combPair (op : Nat) (l r : Word × Word) : Word × Word :=
  if op = 4 then (rneF32 ((f32 r.1).mul (f32 l.1)), rneF32 (((f32 r.1).mul (f32 l.2)).add (f32 r.2)))
  else (oneW, combW op l.2 r.2)

/-- The empty pair. -/
def emptyPair (op : Nat) : Word × Word := (oneW, emptyW op)

/-- Combining function of an opcode. -/
def rsuFn (op : Nat) : Nat :=
  match op with
  | 3 => 1
  | 4 => 2
  | 0x19 => 1
  | 0x1A => 2
  | 0x1B => 3
  | 0x1C => 4
  | _ => 0

/-! ## Trees and rows (R256, R261) -/

/-- One level of the tree of R256: an absent leaf passes the other. -/
def treeStep {α : Type} (op : α → α → α) : List (Option α) → List (Option α)
  | a :: b :: t =>
    (match a, b with
      | some x, some y => some (op x y)
      | none, y => y
      | x, none => x) :: treeStep op t
  | l => l

/-- n levels of the tree, then its root. -/
def treeRoot {α : Type} (op : α → α → α) : Nat → List (Option α) → Option α
  | 0, l => l.headD none
  | n + 1, l => treeRoot op n (treeStep op l)

/-- chunk_tree of R256 over at most 128 leaves. -/
def chunkTree {α : Type} (op : α → α → α) (l : List (Option α)) : Option α := treeRoot op 7 l

/-- A list in pieces of w. -/
def chunksOf {α : Type} (w : Nat) : Nat → List α → List (List α)
  | 0, _ => []
  | n + 1, l => if l.isEmpty then [] else l.take w :: chunksOf w n (l.drop w)

/-- row_reduce of R256: none where nothing is present. -/
def rowReduce {α : Type} (op : α → α → α) (row : List (Option α)) (cin : Option α) : Option α :=
  (chunksOf 128 (row.length + 1) row).foldl (fun acc c =>
    match acc, chunkTree op c with
    | some a, some x => some (op a x)
    | none, x => x
    | a, none => a) cin

/-- The present elements of a row as leaves. -/
def leaves (row : List (Word × Word × Bool)) (f : Word → Word) : List (Option Word) :=
  row.map fun x => if x.2.2 then some (f x.1) else none

/-- The leaf of RSUMSQ (R256). -/
def sqLeaf (x : Word) : Word := rneF32 ((f32 x).mul (f32 x))

/-- l beats r for the largest (or smallest) rank: NaN first, then by value with −0 below +0; an equal value does not beat
(R255, R261; log 17). -/
def beats (big : Bool) (l r : Word) : Bool :=
  let x := f32 l
  let y := f32 r
  if y.isNan then false
  else if x.isNan then true
  else if x.lt y then !big
  else if y.lt x then big
  else if x.isZero && x.sign != y.sign then (if big then y.sign else x.sign)
  else false

/-- The winner of two (value, index) pairs, the left one on a tie (R261). -/
def argPick (big : Bool) (l r : Word × Nat) : Word × Nat := if beats big r.1 l.1 then r else l

/-- The present elements of a row with their indices. -/
def indexed (row : List (Word × Word × Bool)) : List (Option (Word × Nat)) :=
  row.mapIdx fun i x => if x.2.2 then some (x.1, i) else none

/-- A pair put into a list in rank order, after the pairs it does not beat. -/
def rankInsert (big : Bool) (x : Word × Nat) : List (Word × Nat) → List (Word × Nat)
  | [] => [x]
  | y :: t => if beats big x.1 y.1 then x :: y :: t else y :: rankInsert big x t

/-- The k first pairs of a row in rank order, padded (R261). -/
def topK (big : Bool) (k : Nat) (row : List (Word × Word × Bool)) : List (Word × Nat) :=
  let l := ((indexed row).filterMap id).foldl (fun acc x => (rankInsert big x acc).take k) []
  l ++ List.replicate (k - l.length) (if big then emptyW 1 else emptyW 2, 0xFFFFFFFF)

/-! ## Row statistics (R263, R264) -/

/-- One chunk of RSTAT_MV: n, μ and M2 so far (R263). -/
def mvChunk (acc : Nat × Word × Word) (c : List (Option Word)) : Nat × Word × Word :=
  let nc := (c.filter Option.isSome).length
  match chunkTree (combW 0) c with
  | none => acc
  | some sc =>
    let (n, mu, m2) := acc
    let muc := rneF32 ((f32 sc).divNat nc)
    let dev := c.map fun o => o.map fun x => rneF32 (((f32 x).sub (f32 muc)).mul ((f32 x).sub (f32 muc)))
    let m2c := (chunkTree (combW 0) dev).getD 0
    let n1 := n + nc
    let f := rneF32 ((FVal.ofNat nc).divNat n1)
    let dl := rneF32 ((f32 muc).sub (f32 mu))
    let mu' := rneF32 ((f32 mu).add (rneF32v ((f32 dl).mul (f32 f))))
    let w := rneF32 ((FVal.ofNat n).mul (f32 f))
    let m2' := rneF32 ((rneF32v ((f32 m2).add (f32 m2c))).add (rneF32v ((rneF32v ((f32 dl).mul (f32 dl))).mul (f32 w))))
    (n1, mu', m2')

/-- RSTAT_MV of a row: μ and M2 (R263). -/
def statMv (row : List (Word × Word × Bool)) : Word × Word :=
  ((chunksOf 128 (row.length + 1) (leaves row id)).foldl mvChunk (0, 0, 0)).2

/-- RSTAT_MS of a row (R263). -/
def statMs (row : List (Word × Word × Bool)) : Word :=
  let n := (row.filter (·.2.2)).length
  if n = 0 then 0 else rneF32 ((f32 ((rowReduce (combW 0) (leaves row sqLeaf) none).getD 0)).divNat n)

/-- LOG2E and LN2 of R264. -/
def log2eW : Word := 0x3FB8AA3B
/-- LN2 of R264. -/
def ln2W : Word := 0x3F317218

/-- exp2t(rne32(rne32(x − m) × LOG2E)) of R264. -/
def expDiff (x m : Word) : Word :=
  rneF32 (exp2Eval (rneF32v ((rneF32v ((f32 x).sub (f32 m))).mul (f32 log2eW))))

/-- One chunk of RSTAT_LSE: m and s so far (R264). -/
def lseChunk (acc : Word × Word) (c : List (Option Word)) : Word × Word :=
  match chunkTree (combW 1) c with
  | none => acc
  | some mc =>
    if mc = 0xFF800000 then acc
    else
      let (m, t) := acc
      let up := (f32 m).lt (f32 mc)
      let t1 := if up && m != 0xFF800000 then rneF32 ((f32 t).mul (f32 (expDiff m mc))) else t
      let m1 := if up then mc else m
      let sc := (chunkTree (combW 0) (c.map fun o => o.map fun x => expDiff x m1)).getD 0
      (m1, rneF32 ((f32 t1).add (f32 sc)))

/-- RSTAT_LSE of a row: m and ℓ (R264). -/
def statLse (row : List (Word × Word × Bool)) : Word × Word :=
  let ls := leaves row id
  let xs := ls.filterMap id
  if xs.any (fun x => (f32 x).isNan) then (0x7FC00000, 0x7FC00000)
  else if xs.contains 0x7F800000 then (0x7F800000, 0x7F800000)
  else
    let (m, t) := (chunksOf 128 (ls.length + 1) ls).foldl lseChunk (0xFF800000, 0)
    if m = 0xFF800000 then (m, m)
    else (m, rneF32 ((f32 m).add (rneF32v ((log2Eval (f32 t)).mul (f32 ln2W)))))

/-! ## Scans (R258) -/

/-- One level of the scan of a chunk at distance d: values with their segment-start bits. -/
def scanLevel (op d : Nat) (v : List ((Word × Word) × Bool)) : List ((Word × Word) × Bool) :=
  v.mapIdx fun i x =>
    if i < d then x
    else
      let p := v.getD (i - d) (emptyPair op, true)
      (if x.2 then x.1 else combPair op p.1 x.1, x.2 || p.2)

/-- The levels at distances 1, 2, 4 and so on. -/
def scanLevels (op : Nat) : Nat → Nat → List ((Word × Word) × Bool) → List ((Word × Word) × Bool)
  | 0, _, v => v
  | n + 1, d, v => if d < v.length then scanLevels op n (2 * d) (scanLevel op d v) else v

/-- One chunk of row_scan: the inclusive outputs y under the running value c (R258). -/
def scanChunk (op : Nat) (c : Word × Word) (v : List ((Word × Word) × Bool)) : List (Word × Word) :=
  (scanLevels op 8 1 v).map fun x => if x.2 then x.1 else combPair op c x.1

/-- The exclusive outputs: the empty value at a segment start, else the previous y, or the running value (R258). -/
def exclusive (op : Nat) (c : Word × Word) (f : List Bool) (y : List (Word × Word)) : List (Word × Word) :=
  (f.zip (c :: y)).map fun x => if x.1 then emptyPair op else x.2

/-! ## Start (R254, R267, R268, R272, R274) -/

/-- Elements of the main output of an instruction of length L. -/
def rsuOutLen (e : Entry) (len : Nat) : Nat :=
  let rows := ceilDiv len e.rRow
  if rsuScan e.op then len
  else if e.rAxis then e.rRow
  else if e.op = 8 ∨ e.op = 9 then rows * e.rK
  else rows

/-- The start checks of R274 for length L. -/
def rsuStartOk (s : State) (e : Entry) (len : Nat) : Bool :=
  let n := e.rLen
  let op := e.op
  let r := e.rRow
  let rows := ceilDiv n r
  let fits (base : Nat) (k : Nat) : Bool := decide (base + k ≤ 64)
  if rsuCarryOp op then
    decide (1 ≤ n) && decide (n ≤ if op = 0x2C then 32 else 64) &&
      (op == 0x2A || op == 0x2C || fits e.crOut n) && (op == 0x28 || op == 0x29 || fits e.crIn n) &&
      (op != 0x2B || fits e.crIn2 n) && (op != 0x2C || fits (e.d.fld 5 7 2) n)
  else
    decide (1 ≤ n) && decide (n ≤ 2 ^ 24) &&
      (!(op == 8 || op == 9) || (decide (r ≤ 1024) && decide (e.rK ≤ 64))) && (!e.rAxis || decide (r ≤ 4096)) &&
      (!e.rCin || fits e.crIn rows) && (e.rCout != 1 || fits e.crOut rows) &&
      (!fmtBlock (tailFmt e) || (r % 32 == 0 && decide (r ≤ 4096) && rsuOutLen e len % 32 == 0)) &&
      (!e.rStat ||
        (let a := areaRange s 2
         e.d.fld 4 23 0 % 8 == 0 && decide (a.1 + e.d.fld 4 23 0 + rows * e.rStatSize ≤ a.2)))

/-- A started RSU instruction waits for its flow, or faults at its start checks. -/
def startedRsu (e : Entry) (len : Nat) (s : State) : State :=
  let s := dequeue 3 s
  if len > e.rLen || !rsuStartOk s e len then descBound 3 e s
  else { s with rsu := { s.rsu with started := s.rsu.started ++ [(e, len, s.clock.ek)] } }

/-- An RSU instruction starts: with LSRC = 1 once its count can be popped (R272). -/
def startRsu (op : Nat) (s : State) : State :=
  match headFor s 3 op with
  | none => s
  | some e =>
    if wbit e.d.w1 31 then
      match chTake (e.d.fld 1 30 25) 4 1 s with
      | none => s
      | some (ls, t) => startedRsu e ((ls.map (·.data)).headD 0 % 2 ^ 32) t
    else startedRsu e e.rLen s

/-! ## Flow start (R272) -/

/-- Carry registers that an instruction of length L reads. -/
def rsuReads (e : Entry) (len : Nat) : List Nat :=
  let range (b n : Nat) := (List.range n).map (· + b)
  if e.op = 0x2A ∨ e.op = 0x2C then range e.crIn len
  else if e.op = 0x2B then range e.crIn len ++ range e.crIn2 len
  else if !rsuCarryOp e.op && e.rCin then range e.crIn (ceilDiv len e.rRow)
  else []

/-- Carry registers whose writes by earlier instructions have not landed before this clk (R272). -/
def rsuPending (s : State) : List Nat :=
  (s.rsu.push.flatMap fun p => p.outs.flatMap fun o => o.crs.map (·.1)) ++
    ((s.rsu.landed.filter fun x => decide (s.clock.ek ≤ x.2)).map (·.1))

/-- The streams that an instruction pushes (R262, R268). -/
def mkPush (e : Entry) (len : Nat) : RsuPush :=
  let main := if e.op = 0x2A then LineOut.ofBits (if wbit e.d.w0 3 then 64 else 32) len
    else { LineOut.ofFmt (tailFmt e) e.rRow (rsuOutLen e len) with rowlen := e.rRow }
  let aux := if e.op = 0x1C then { LineOut.ofFmt (tailFmt e) e.rRow len with rowlen := e.rRow }
    else LineOut.ofBits 32 (rsuOutLen e len)
  ⟨e, [], main, aux, LineOut.ofBits 64 (ceilDiv len e.rRow), [], [], [], false, false⟩

/-! ## The flow (R254 to R268, R272) -/

/-- The FP32 word of an element code (R255). -/
def widenW (f code : Nat) : Word := rneF32 (decodeElem f code)

/-- A result handed to the push stage of the instruction in flow. -/
def rsuEmit (o : RsuOut) (s : State) : State :=
  let n := s.rsu.push.length
  { s with rsu := { s.rsu with push := s.rsu.push.mapIdx fun i p =>
      if i + 1 = n then { p with outs := p.outs ++ [o], ended := o.last } else p } }

/-- A result with nothing in it. -/
def RsuOut.empty (due idx : Nat) : RsuOut := ⟨due, idx, [], [], [], [], [], false, false⟩

/-- The carry-out of a row: to its register or as a record (R267). -/
def carryOut (e : Entry) (row : Nat) (p : Word × Word) (o : RsuOut) : RsuOut :=
  if e.rCout = 1 then { o with crs := [(e.crOut + row, crMake p)] }
  else if e.rCout = 2 then { o with recs := [crMake p] }
  else o

/-- The statistics record of a row (R265). -/
def statRecord (s : State) (e : Entry) (row : Nat) (ws : List Word) : List (Nat × List Byte) :=
  if e.rStat then [((areaRange s 2).1 + e.d.fld 4 23 0 + row * e.rStatSize, wordsBytes ws)] else []

/-- The results of a finished row of a row-axis reduction, TOPK, BOTK or RSTAT (R256, R261 to R265, R267). -/
def rowResult (s : State) (r : RsuRun) (due : Nat) : RsuOut :=
  let e := r.e
  let o := RsuOut.empty due r.rowIdx
  if rsuReduce e.op then
    let fn := rsuFn e.op
    let v := (rowReduce (combW fn) (leaves r.row (if e.op = 2 then sqLeaf else id)) (if r.have_ then some r.c.2 else none)).getD (emptyW fn)
    carryOut e r.rowIdx (oneW, v) { o with main := [v] }
  else if e.op = 5 ∨ e.op = 6 then
    let big := e.op == 5
    let x := (rowReduce (argPick big) (indexed r.row) none).getD (if big then emptyW 1 else emptyW 2, 0xFFFFFFFF)
    { o with main := [x.1], aux := [word x.2] }
  else if e.op = 8 ∨ e.op = 9 then
    let l := topK (e.op == 8) e.rK r.row
    { o with main := l.map (·.1), aux := l.map fun x => word x.2 }
  else if e.op = 0x10 then
    let x := statMv r.row
    { o with main := [x.1], aux := [x.2], stat := statRecord s e r.rowIdx [x.1, x.2] }
  else if e.op = 0x11 then
    let q := statMs r.row
    { o with main := [q], stat := statRecord s e r.rowIdx [q] }
  else
    let x := statLse r.row
    { o with main := [x.2], aux := [x.1], stat := statRecord s e r.rowIdx [x.1, x.2] }

/-- The elements of one clk popped: X, Y of LREC and mask bits (R254, R260). -/
def rsuPull (r : RsuRun) (n : Nat) (s : State) : Option (List (Word × Word × Bool) × RsuRun × State) := do
  let e := r.e
  let (x, s) ← fetchElems 4 e.chX (fmtBits e.rFx) n r.x s
  let (y, s) ← if e.op = 0x1C then fetchElems 4 e.chY (fmtBits e.rFy) n r.y s else some (r.y, s)
  let (m, s) ← if e.rMask then fetchElems 4 (e.d.fld 2 15 10) 1 n r.m s else some (r.m, s)
  let els := (List.range n).map fun i =>
    (widenW e.rFx (x.at (r.pos + i)).1, if e.op = 0x1C then widenW e.rFy (y.at (r.pos + i)).1 else 0,
      if e.rMask then (m.at (r.pos + i)).1 == 1 else !e.b1 && !rsuScan e.op)
  let p := r.pos + n
  some (els, { r with x := x.dropTo p, y := y.dropTo p, m := m.dropTo p, pos := p }, s)

/-- One flow clk of a scan: its chunks in order (R258). -/
def scanClk (r : RsuRun) (pos0 : Nat) (els : List (Word × Word × Bool)) : RsuRun × List (Word × Word) :=
  let op := rsuFn r.e.op
  (chunksOf (rsuChunk r.e.op) (els.length + 1) els).foldl (fun (acc : RsuRun × List (Word × Word)) c =>
    let r := acc.1
    let first := acc.2.length + pos0 == r.rowIdx * r.e.rRow
    let v := c.mapIdx fun i x =>
      let f := (r.e.b1 && x.2.2) || (first && i == 0 && !r.have_)
      (if op = 4 then (x.1, x.2.1) else (oneW, x.1), f)
    let y := scanChunk op r.c v
    let out := if r.e.rExcl then exclusive op r.c (v.map (·.2)) y else y
    ({ r with c := y.getLastD r.c }, acc.2 ++ out)) (r, [])

/-- The carry-in of a row at its first clk (R267). -/
def rowStart (s : State) (r : RsuRun) : RsuRun :=
  if r.e.rCin then { r with c := crPair (crGet s (r.e.crIn + r.rowIdx)), have_ := true }
  else { r with have_ := false }

/-- The element flow of one clk; none where its lines cannot be popped (R272). -/
def elemClk (r : RsuRun) (s : State) : Option State :=
  let e := r.e
  let row0 := r.rowIdx * e.rRow
  let rowEnd := min r.len (row0 + e.rRow)
  let r := if r.pos = row0 then rowStart s r else r
  let n := min (rsuRate s e.op) (rowEnd - r.pos)
  match rsuPull r n s with
  | none => none
  | some (els, r1, s) =>
    let due := s.clock.ek + rsuLatency e.op
    let fin := decide (r1.pos ≥ rowEnd)
    let last := decide (r1.pos ≥ r.len)
    let next (q : RsuRun) (s : State) : State :=
      { s with rsu := { s.rsu with run := if last then none else some q, lastFlow := s.clock.ek } }
    if rsuScan e.op then
      let (r2, ys) := scanClk r1 r.pos els
      let o := { RsuOut.empty due r.pos with main := ys.map (·.2), aux := if e.op = 0x1C then ys.map (·.1) else [], last := last }
      let o := if fin then carryOut e r.rowIdx (if e.op = 0x1C then r2.c else (oneW, r2.c.2)) o else o
      some (next (if fin then { r2 with rowIdx := r.rowIdx + 1 } else r2) (rsuEmit o s))
    else if e.rAxis then
      let fn := rsuFn e.op
      let cols := els.zipIdx.foldl (fun (cs : List (Option Word)) p =>
        let j := r.pos - row0 + p.2
        if p.1.2.2 then
          let v := if e.op = 2 then sqLeaf p.1.1 else p.1.1
          cs.set j (some (match cs.getD j none with
            | some a => combW fn a v
            | none => v))
        else cs) r1.cols
      let r2 := { r1 with cols := cols, rowIdx := if fin then r.rowIdx + 1 else r.rowIdx }
      if last then
        let o := { RsuOut.empty (s.clock.ek + 8) 0 with main := cols.map fun c => c.getD (emptyW fn), last := true }
        some (next r2 (rsuEmit o s))
      else some (next r2 s)
    else
      let r2 := { r1 with row := r1.row ++ els }
      if fin then some (next { r2 with row := [], rowIdx := r.rowIdx + 1 } (rsuEmit { rowResult s r2 due with last := last } s))
      else some (next r2 s)

/-- What CRCOMB reads of carry register c once it has made the records recs: records are worked one after another, so a
record made is seen by the later ones that read its register (R268; log 35). -/
def carryGet (s : State) (e : Entry) (recs : List (BitVec 64)) (c : Nat) : BitVec 64 :=
  if e.crOut ≤ c ∧ c < e.crOut + recs.length then recs.getD (c - e.crOut) 0 else crGet s c

/-- Record i of a carry opcode, after the records recs (R268). -/
def carryRecord (s : State) (r : RsuRun) (x : InStream) (recs : List (BitVec 64)) (i : Nat) : BitVec 64 :=
  let e := r.e
  match e.op with
  | 0x28 => crMake (emptyPair e.rCop)
  | 0x29 => BitVec.ofNat 64 (x.at i).1
  | 0x2B => crMake (combPair e.rCop (crPair (carryGet s e recs (e.crIn + i))) (crPair (carryGet s e recs (e.crIn2 + i))))
  | _ => crGet s (e.crIn + i)

/-- The flow of one clk of a carry opcode (R268, R272). -/
def carryClk (r : RsuRun) (s : State) : Option State :=
  let e := r.e
  let n := min 4 (r.len - r.pos)
  match (if e.op = 0x29 then fetchElems 4 e.chX 64 n r.x s else some (r.x, s)) with
  | none => none
  | some (x, s) =>
    let recs := (List.range n).foldl (fun l i => l ++ [carryRecord s r x l (r.pos + i)]) r.recs
    let p := r.pos + n
    let due := s.clock.ek + rsuLatency e.op
    if p ≥ r.len then
      let o := { RsuOut.empty due 0 with last := true }
      let o := if e.op = 0x2A ∨ e.op = 0x2C then { o with recs := recs, send := e.op == 0x2C }
        else { o with crs := recs.mapIdx fun i v => (e.crOut + i, v) }
      let s := rsuEmit o s
      some { s with rsu := { s.rsu with run := none, lastFlow := s.clock.ek } }
    else some { s with rsu := { s.rsu with run := some { r with x := x.dropTo p, pos := p, recs := recs }, lastFlow := s.clock.ek } }

/-- The statistics buffer is full: the RSU stalls (R265). -/
def rsuStalled (s : State) : Bool := decide (s.rsu.stats.length ≥ 2048)

/-- An output that was due in an earlier clk waits, or lines of it do: later flow clks wait (R272). -/
def rsuBlocked (s : State) : Bool :=
  rsuStalled s || s.rsu.push.any fun p =>
    !p.main.lineq.isEmpty || !p.aux.lineq.isEmpty || !p.recs.lineq.isEmpty || p.outs.any fun o => decide (o.due < s.clock.ek)

/-- One clk of the RSU's flow (R272); part of the tick, since the table has no row for it (log 2). -/
def rsuTick (s : State) : State :=
  match s.rsu.run with
  | none => s
  | some r =>
    if !engOk s 3 || rsuBlocked s then s
    else
      match (if rsuCarryOp r.e.op then carryClk r s else elemClk r s) with
      | some t => touch (bump 0x021 1 t)
      | none => s

/-! ## Pushes (R262, R265, R269, R272) -/

/-- Values of an output converted, the index of each one as R262 gives it; block-scaled ones by their place in the row of
the stream (R77; log 18). -/
def rsuConv (s : State) (e : Entry) (pos idx : Nat) (vs : List Word) : List (Nat × Nat) :=
  let f := tailFmt e
  let xs := vs.map f32
  if rsuStat e.op then vs.map fun v => (v.toNat, 0)
  else if fmtBlock f then convVals f e.conv s.job.seed e.srKey (pos % e.rRow) xs
  else if e.op = 8 ∨ e.op = 9 then xs.flatMap fun v => convVals f e.conv s.job.seed e.srKey idx [v]
  else convVals f e.conv s.job.seed e.srKey idx xs

/-- Values put into a converted stream; block-scaled ones wait until 32 are there. -/
def putVals (s : State) (e : Entry) (idx : Nat) (fin : Bool) (held vs : List Word) (o : LineOut) : List Word × LineOut :=
  if fmtBlock (tailFmt e) && !rsuStat e.op then
    let l := held ++ vs
    let k := if fin then l.length else l.length / 32 * 32
    (l.drop k, ((chunks32 (k / 32 + 1) (l.take k)).foldl (fun (o : LineOut) c => o.put (rsuConv s e o.pos idx c)) o))
  else ([], o.put (rsuConv s e o.pos idx vs))

/-- The carry packet of CSEND (R268, R349). -/
def carryPacket (s : State) (e : Entry) (recs : List (BitVec 64)) : PktSpec :=
  let chip := e.d.fld 5 31 20
  let p := PktSpec.to s 9 chip (fabAddr chip 5 (coreOffset (e.d.fld 5 19 8) 0))
  { p with
    tagx := e.tag.toNat % 256
    w4 := (e.d.fld 6 12 12 <<< 21) + (e.d.fld 6 11 0 <<< 9) + (e.d.fld 5 7 2 <<< 3)
    payload := recs.flatMap fun r => leBytes 8 r.toNat }

/-- The instruction pushes converted values on CH_OUT. -/
def Entry.rMainOn (e : Entry) : Bool := e.op != 0x2A && !rsuCarryOp e.op && !(rsuStat e.op && e.chOut == 0)

/-- The instruction pushes on CH_AUX. -/
def Entry.rAuxOn (e : Entry) : Bool := e.rAuxCh != 0 && rsuAux e.op

/-- Values to fold, numbered as the elements of their stream after n of them. -/
def numberFolds (aux : Bool) (n : Nat) (vs : List Word) : List (Bool × Nat × FVal) :=
  vs.mapIdx fun i v => (aux, n + i + 1, f32 v)

/-- A due result of an instruction taken: carry registers, statistics records, the carry packet, and the elements of its
streams. -/
def takeRsuOut (p : RsuPush) (o : RsuOut) (s : State) : RsuPush × State :=
  let e := p.e
  let now := s.clock.ek
  let kept := s.rsu.landed.filter fun x => decide (now ≤ x.2)
  let s := o.crs.foldl (fun t x => crSet x.1 x.2 t) s
  let s := { s with rsu := { s.rsu with landed := kept ++ o.crs.map (fun x : Nat × BitVec 64 => (x.1, now)) } }
  let s := { s with rsu := { s.rsu with stats := s.rsu.stats ++ o.stat.map fun (x : Nat × List Byte) => (e.id, x.1, x.2) } }
  let s := if o.send then queueInst 3 e (carryPacket s e o.recs) now none (some e.id) s else s
  let folds := if e.foldSlot.isNone then []
    else numberFolds false (p.main.pos + p.mval.length) o.main ++
      (if e.op = 0x1C ∧ e.rAuxOn then numberFolds true (p.aux.pos + p.aval.length) o.aux else [])
  let (mv, main) := if e.rMainOn then putVals s e o.idx o.last p.mval o.main p.main else (p.mval, p.main)
  let main := if e.op = 0x2A then main.put (o.recs.map fun r => (if wbit e.d.w0 3 then r.toNat else (crPair r).2.toNat, 0)) else main
  let (av, aux) := if !e.rAuxOn then (p.aval, p.aux)
    else if e.op = 0x1C then putVals s e o.idx o.last p.aval o.aux p.aux
    else (p.aval, p.aux.put (o.aux.map fun w => (w.toNat, 0)))
  let recs := if e.rCout = 2 then p.recs.put (o.recs.map fun r => (r.toNat, 0)) else p.recs
  let fin (l : LineOut) : LineOut := if o.last then l.finish else l
  ({ p with outs := p.outs.tail, main := fin main, aux := fin aux, recs := fin recs, mval := mv, aval := av
            held := p.held ++ folds }, touch s)

/-- Lines of an instruction's outputs pushed as their channels have room, the values that they carry folded (R84). -/
def drainRsu (p : RsuPush) (s : State) : RsuPush × State :=
  let (main, s) := p.main.drain p.e.chOut s
  let (aux, s) := p.aux.drain p.e.rAuxCh s
  let (recs, s) := p.recs.drain (p.e.d.fld 3 10 5) s
  let gone (h : Bool × Nat × FVal) : Bool := decide (h.2.1 ≤ if h.1 then aux.sent else main.sent)
  let s := match p.e.foldSlot with
    | some sl => foldInto sl ((p.held.filter gone).map (·.2.2)) s
    | none => s
  ({ p with main := main, aux := aux, recs := recs, held := p.held.filter fun h => !gone h }, s)

/-- The instruction has pushed and landed everything but its statistics records, and handed off its packet. -/
def RsuPush.finished (p : RsuPush) : Bool :=
  p.ended && p.outs.isEmpty && p.main.lineq.isEmpty && p.aux.lineq.isEmpty && p.recs.lineq.isEmpty &&
    (p.e.op != 0x2C || p.handed)

/-- The instructions at the front whose last event has come complete, in order (R330, R335). -/
def finishRsu (s : State) : State :=
  let done (p : RsuPush) : Bool := p.finished && s.rsu.stats.all fun x => x.1 != p.e.id
  let t := completeAll ((s.rsu.push.takeWhile done).map (·.e.id)) s
  { t with rsu := { t.rsu with push := t.rsu.push.dropWhile done } }

/-- The channels that an instruction pushes. -/
def RsuPush.ends (p : RsuPush) : List Nat :=
  (if p.e.rMainOn || p.e.op == 0x2A then [p.e.chOut] else []) ++ (if p.e.rAuxOn then [p.e.rAuxCh] else []) ++
    (if p.e.rCout = 2 then [p.e.d.fld 3 10 5] else [])

/-- An earlier instruction that has not pushed everything pushes on a channel of this one: streams leave in the order of their
instructions (R335). -/
def RsuPush.behind (earlier : List RsuPush) (p : RsuPush) : Bool :=
  earlier.any fun q => !q.finished && q.ends.any fun c => p.ends.contains c

/-- The push stage of one instruction in one clk; a record finds room in the statistics buffer first (R265). -/
def serveRsu (p : RsuPush) (s : State) : RsuPush × State :=
  let (p, s) := match p.outs with
    | o :: _ =>
      if decide (o.due ≤ s.clock.ek) && p.main.lineq.isEmpty && p.aux.lineq.isEmpty && p.recs.lineq.isEmpty &&
          !(rsuStalled s && !o.stat.isEmpty) then takeRsuOut p o s
      else (p, s)
    | [] => (p, s)
  drainRsu p s

/-- RSU_FLOW_START: the flow and its first clk (R272). -/
def execRsuFlowStart (s : State) : Host.Outcome State Fault Refusal :=
  match s.rsu.started with
  | [] => .next s
  | (e, len, c) :: rest =>
    let reads := rsuReads e len
    if engOk s 3 && !rsuStalled s && s.rsu.run.isNone && decide (c < s.clock.ek) &&
        decide (s.rsu.lastFlow < s.clock.ek ∨ s.rsu.lastFlow = 0) && !(rsuPending s).any reads.contains then
      let t := touch { s with rsu := { s.rsu with started := rest } }
      if len = 0 then
        .next (finishRsu { t with rsu := { t.rsu with push := t.rsu.push ++ [{ mkPush e 0 with ended := true, handed := true }] } })
      else
        let cols := if e.rAxis then List.replicate e.rRow none else []
        let r : RsuRun := ⟨e, len, 0, s.clock.ek, .init, .init, .init, [], 0, (oneW, 0), false, cols, []⟩
        .next (rsuTick { t with rsu := { t.rsu with run := some r, push := t.rsu.push ++ [mkPush e len] } })
    else .next s

/-- RSU_RESULT_PUSH: each instruction in the push stage takes its due result and pushes what its channels have room for
(R272). -/
def execRsuResultPush (s : State) : Host.Outcome State Fault Refusal :=
  if engOk s 3 && !rsuStalled s then
    let (ps, t) := s.rsu.push.foldl (fun (acc : List RsuPush × State) p =>
      if p.behind acc.1 then (acc.1 ++ [p], acc.2)
      else
        let r := serveRsu p acc.2
        (acc.1 ++ [r.1], r.2)) ([], s)
    if faulting t && !faulting s then .next t
    else .next (finishRsu { t with rsu := { t.rsu with push := ps } })
  else .next s

/-- STAT_RECORD_WRITE: the oldest record leaves the statistics buffer in one whole write (R265). -/
def execStatRecordWrite (s : State) : Host.Outcome State Fault Refusal :=
  match s.rsu.stats with
  | (id, a, bs) :: rest =>
    if engOk s 3 then
      let e := match s.rsu.push.find? fun p => p.e.id == id with
        | some p => p.e
        | none => Entry.zero
      let (t, bad) := poolWrite false a bs { s with rsu := { s.rsu with stats := rest } }
      match bad with
      | some b => .next (poolUe 3 e b 4 t)
      | none => .next (finishRsu t)
    else .next s
  | [] => .next s

/-! ## Starts, one for each opcode of R259 -/

/-- RSUM starts (R259, R256); its flow gives its results. -/
def execRsum (s : State) : Host.Outcome State Fault Refusal := .next (startRsu 0x01 s)
/-- RSUMSQ starts (R259, R256); its flow gives its results. -/
def execRsumsq (s : State) : Host.Outcome State Fault Refusal := .next (startRsu 0x02 s)
/-- RMAX starts (R259, R256); its flow gives its results. -/
def execRmax (s : State) : Host.Outcome State Fault Refusal := .next (startRsu 0x03 s)
/-- RMIN starts (R259, R256); its flow gives its results. -/
def execRmin (s : State) : Host.Outcome State Fault Refusal := .next (startRsu 0x04 s)
/-- RAMAX starts (R259, R261); its flow gives its results. -/
def execRamax (s : State) : Host.Outcome State Fault Refusal := .next (startRsu 0x05 s)
/-- RAMIN starts (R259, R261); its flow gives its results. -/
def execRamin (s : State) : Host.Outcome State Fault Refusal := .next (startRsu 0x06 s)
/-- TOPK starts (R259, R261); its flow gives its results. -/
def execTopk (s : State) : Host.Outcome State Fault Refusal := .next (startRsu 0x08 s)
/-- BOTK starts (R259, R261); its flow gives its results. -/
def execBotk (s : State) : Host.Outcome State Fault Refusal := .next (startRsu 0x09 s)
/-- RSTATMV starts (R259, R263); its flow gives its results. -/
def execRstatMv (s : State) : Host.Outcome State Fault Refusal := .next (startRsu 0x10 s)
/-- RSTATMS starts (R259, R263); its flow gives its results. -/
def execRstatMs (s : State) : Host.Outcome State Fault Refusal := .next (startRsu 0x11 s)
/-- RSTATLSE starts (R259, R264); its flow gives its results. -/
def execRstatLse (s : State) : Host.Outcome State Fault Refusal := .next (startRsu 0x12 s)
/-- SCADD starts (R259, R258); its flow gives its results. -/
def execScadd (s : State) : Host.Outcome State Fault Refusal := .next (startRsu 0x18 s)
/-- SCMAX starts (R259, R258); its flow gives its results. -/
def execScmax (s : State) : Host.Outcome State Fault Refusal := .next (startRsu 0x19 s)
/-- SCMIN starts (R259, R258); its flow gives its results. -/
def execScmin (s : State) : Host.Outcome State Fault Refusal := .next (startRsu 0x1A s)
/-- SCMUL starts (R259, R258); its flow gives its results. -/
def execScmul (s : State) : Host.Outcome State Fault Refusal := .next (startRsu 0x1B s)
/-- LREC starts (R259, R258); its flow gives its results. -/
def execLrec (s : State) : Host.Outcome State Fault Refusal := .next (startRsu 0x1C s)
/-- CRSET starts (R259, R268); its flow gives its results. -/
def execCrset (s : State) : Host.Outcome State Fault Refusal := .next (startRsu 0x28 s)
/-- CRLD starts (R259, R268); its flow gives its results. -/
def execCrld (s : State) : Host.Outcome State Fault Refusal := .next (startRsu 0x29 s)
/-- CRST starts (R259, R268); its flow gives its results. -/
def execCrst (s : State) : Host.Outcome State Fault Refusal := .next (startRsu 0x2A s)
/-- CRCOMB starts (R259, R268); its flow gives its results. -/
def execCrcomb (s : State) : Host.Outcome State Fault Refusal := .next (startRsu 0x2B s)
/-- CSEND starts (R259, R268); its flow gives its results. -/
def execCsend (s : State) : Host.Outcome State Fault Refusal := .next (startRsu 0x2C s)

end Sys2Proof.Machine
end

