-- ==== Sys2Proof/Machine/Ckpt.lean ====
section
/-! DEFINITION. Checkpoints (14_faults_and_recovery R461 to R480): the image, the arm check, the copy, the replica that is
received, and the restore. -/

namespace Sys2Proof.Machine

/-! ## The image (R462 to R464) -/

/-- Bytes of the residue area. -/
def resBytes (s : State) : Nat := (areaOf s 3).nb * bankBytes s
/-- Bytes of the persistent area. -/
def persBytes (s : State) : Nat := (areaOf s 4).nb * bankBytes s

/-- The bytes of area x. -/
def areaBytes (s : State) (x : Nat) : List Byte :=
  let r := areaRange s x
  readBytes s.pool.mem r.1 (r.2 - r.1)

/-- The words of a scale slot, 72 bytes (R83, R463). -/
def scaleBytes (r : ScaleRec) : List Byte := wordsBytes ((List.range 18).map r.word)

/-- The image's bytes 0x100 to 0x7FFF (R463). -/
def ckptRegs (s : State) : List Byte :=
  ((List.range 4096).flatMap fun f => leBytes 2 (flagGet s f).toNat) ++
    ((List.range 6).flatMap fun c => (List.range 64).flatMap fun d => wordsBytes (descGet s (c + 1) d).toList) ++
    ((List.range 64).flatMap fun n => wordBytes (if n = 0 ∨ (60 ≤ n ∧ n ≤ 62) then 0 else sreg s n)) ++
    ((List.range 64).flatMap fun n => scaleBytes (scaleGet s n)) ++
    ((List.range 64).flatMap fun n => leBytes 8 (crGet s n).toNat) ++ List.replicate 6656 0

/-- The image's bytes from 0x100 on (R463). -/
def ckptBody (s : State) : List Byte := ckptRegs s ++ areaBytes s 3 ++ areaBytes s 4

/-- Piece k of an image. -/
def pieceOf (img : List Byte) (k : Nat) : List Byte := (img.drop (256 * k)).take 256

/-- The CRC of piece k (R464). -/
def pieceCrc (k : Nat) (bs : List Byte) : Nat := crc64 (leBytes 4 (256 * k) ++ bs)

/-- The digest over pieces 1 on of a body, the first of them piece k; at most n pieces (R464). -/
def digestFrom : Nat → Nat → List Byte → Nat
  | 0, _, _ => 0
  | n + 1, k, bs => if bs.isEmpty then 0 else (pieceCrc k (bs.take 256) + digestFrom n (k + 1) (bs.drop 256)) % 2 ^ 64

/-- The digest of a body (R464). -/
def digestOf (body : List Byte) : Nat := digestFrom (body.length / 256 + 1) 1 body

/-- The 256-byte header (R462). -/
def ckptHeader (s : State) (snap : Bool) (seq beat digest : Nat) : List Byte :=
  let h := [0x50, 0x44, 0x43, 0x4B] ++ leBytes 2 1 ++ leBytes 2 (b2n snap) ++ leBytes 2 s.job.id.toNat ++
    leBytes 2 s.job.rank.toNat ++ leBytes 2 seq ++ leBytes 2 0 ++ leBytes 4 beat ++ wordBytes (configIdWord s) ++
    leBytes 4 (ckptLen s) ++ leBytes 4 (resBytes s) ++ leBytes 4 (persBytes s) ++ leBytes 4 0 ++ leBytes 8 digest ++
    leBytes 32 s.img.cur.hash ++ List.replicate 172 (0 : Byte)
  h ++ wordBytes (crc32c h)

/-- Field of n bytes at offset o of a header. -/
def hdrField (h : List Byte) (o n : Nat) : Nat := leNat ((h.drop o).take n)

/-- HCRC of a header is correct (R462). -/
def hcrcOk (h : List Byte) : Bool := crc32c (h.take 252) == word (hdrField h 0xFC 4)

/-! ## Slots (R461) -/

/-- CKPT_AREA.BASE. -/
def ckptBase (s : State) : Nat := wfld s.ckpt.area 23 0
/-- First byte of the REPLICA slot. -/
def replicaBase (s : State) : Nat := ckptBase s + ckptLen s
/-- Bytes lo to hi touch the REPLICA slot of a checkpoint area that is set aside (R461, R473). -/
def hitsReplica (s : State) (lo hi : Nat) : Bool :=
  (s.ckpt.arm || s.ckpt.rcv) && decide (replicaBase s ≤ hi) && decide (lo < replicaBase s + ckptLen s)
/-- Bytes lo to hi lie in the REPLICA slot. -/
def inReplica (s : State) (lo hi : Nat) : Bool :=
  decide (replicaBase s ≤ lo) && decide (hi < replicaBase s + ckptLen s)

/-! ## Arming (R465, R466) -/

/-- The arm check ends in a state; every state but ARMED sets ARM back to 0 (R465). -/
def armEnd (state : Nat) (s : State) : State :=
  { s with ckpt := { s.ckpt with state := state, arm := state == 2, probe := none } }

/-- Chip and core of a register laid out as CKPT_PARTNER. -/
def chipOf (w : Word) : Nat := wfld w 31 20
/-- Core of such a register. -/
def coreOf (w : Word) : Nat := wfld w 19 8

/-- The arm check starts: range, then the PROBE to the partner (R465). Without a route the PROBE is not sent (R353). -/
def armStart (s : State) : State :=
  let l := ckptLen s
  let b := ckptBase s
  if b % 256 ≠ 0 || !inArea s 1 b (b + 2 * l - 1) then armEnd 0xB s
  else
    let (tag, s) := freshTag s
    let chip := chipOf s.ckpt.partner
    let p := { PktSpec.to s 0xC chip (fabAddr chip 3 (coreOffset (coreOf s.ckpt.partner) 0)) with tagx := tag }
    let s := match queuePacket p s.clock.ek none none s with
      | some t => t
      | none => s
    { s with ckpt := { s.ckpt with state := 1, arm := true, probe := some s.clock.refc } }

/-- A PROBER of the partner answers the arm check (R465). -/
def armAnswer (payload : List Byte) (s : State) : State :=
  let feed := hdrField payload 15 1
  let same := feed == s.straps.feed.toNat
  if hdrField payload 4 1 ≠ structId s.cfg then armEnd 0xA s
  else if same && !s.ckpt.sameAck then armEnd 8 s
  else
    let t := armEnd 2 s
    { t with ckpt := { t.ckpt with sameFeed := same } }

/-- ARM_PROBE_TIMEOUT: no PROBER within one slow tick of the PROBE (R465). -/
def execArmProbeTimeout (s : State) : Host.Outcome State Fault Refusal :=
  match s.ckpt.probe with
  | some r => if s.ckpt.state = 1 ∧ s.clock.refc ≥ r + 100000 then .next (armEnd 9 s) else .next s
  | none => .next s

/-! ## The stop (R468 to R471) -/

/-- Clk of 4 µs at the level in force (R469). -/
def fourMicro (s : State) : Nat := [2000, 3600, 5200, 6000].getD s.pwr.level.toNat 2000

/-- Clk of a self-test (R487). -/
def testClk (s : State) (cmd : Nat) : Nat :=
  let pool := if s.cfg.wide then 32768 else 16384
  match cmd with
  | 1 => 262144
  | 2 => 65536
  | 3 => pool
  | _ => 262144 + 65536 + pool

/-- NB (R469, R487); the test is the one that the stop took at E0. -/
def stopBeats (s : State) : Nat :=
  let c := ckptLen s / 64
  let t := match s.st.stopTest with
    | some cmd => testClk s cmd + 1024 + c
    | none => 0
  ceilDiv (c + fourMicro s + 4 + t) (max 1 s.issue.beatLen)

/-- An array holds an open tile (R190). -/
def arrayOpen (s : State) : Bool := s.mxa.isOpen || s.mxb.isOpen || s.mxa.run.isSome || s.mxb.run.isSome

/-- Every instruction issued before the mark has completed and nothing of theirs waits to leave (R189, R334). -/
def workDone (s : State) : Bool :=
  enginesIdle s && s.mov.fab.isEmpty && s.mov.gath.isNone && s.mov.acmp.isNone && s.fab.txq.isEmpty

/-- The entry checks of a stop (R468): the first fault code with ARG1. -/
def stopFault (s : State) (snap : Bool) : Option (Nat × Nat) :=
  if arrayOpen s then some (0x0B, 0)
  else match firstBusyChan s with
    | some c => some (0x10, c)
    | none =>
      if !s.fab.outst.isEmpty || !s.fab.recv.isEmpty then some (0x11, 0)
      else if (!snap && s.ckpt.state != 2) || (snap && !wbit s.ckpt.snap 0) then some (0xA1, 0)
      else none

/-- CKPT_STOP_ENTRY: the work before the mark is done: entry checks, Hold with HWHY checkpoint, NB (R468, R469). -/
def execCkptStopEntry (s : State) : Host.Outcome State Fault Refusal :=
  match s.issue.stop with
  | .ckptWait snap e0 edges =>
    if !workDone s || halted s then .next s
    else match stopFault s snap with
      | some (code, a) =>
        let c : FaultCtx := if code = 0x0B then FaultCtx.none else ⟨none, none, none, ckptStatusWord s, word a⟩
        .next (raise (byte code) c s)
      | none =>
        .next { s with
          pwr := { s.pwr with state := 2, hwhy := 1 }
          issue := { s.issue with stop := .ckptReady snap e0 edges (stopBeats s) } }
  | _ => .next s

/-- The copy starts at E1 (R468): LVALID 0; the image is read, with the checks of flags and descriptors (R112, R322) and of the
pool words (R277), and the LOCAL slot written. A bad word faults, and what lies before it in the image stands in the LOCAL slot. -/
def copyStart (snap : Bool) (nb : Nat) (s : State) : State :=
  let s := { s with ckpt := { s.ckpt with lvalid := s.ckpt.lvalid && snap } }
  match critReads (s.flagUpset ++ s.descUpset) s with
  | (t, false) => t
  | (s, true) =>
    let body := ckptBody s
    let a3 := (areaRange s 3).1
    let a4 := (areaRange s 4).1
    let (s, bad3) := touchRange a3 (resBytes s) s
    let (s, bad4) := touchRange a4 (persBytes s) s
    let before := match bad3, bad4 with
      | some w, _ => some (w, 32512 + (w - a3))
      | none, some w => some (w, 32512 + resBytes s + (w - a4))
      | none, none => none
    match before with
    | some (w, n) =>
      let t := if snap then s else (poolWrite false (ckptBase s + 256) (body.take n) s).1
      raise 0x40 (FaultCtx.args w 0xB) t
    | none =>
      let seq := if snap then s.ckpt.lseq.toNat else (s.ckpt.lseq + 1).toNat
      let dig := digestOf body
      let img := ckptHeader s snap seq (s.s63.toNat + nb) dig ++ body
      let s := if snap then s else (poolWrite false (ckptBase s) img s).1
      { s with ckpt := { s.ckpt with state := 3, copy := some ⟨snap, img, 1, 0, false, false, seq, dig⟩ } }

/-- The copy of a stop that has passed E1 in this clk starts, at the clk's end (R23, R468). -/
def copyBegin (s : State) : State :=
  match s.issue.stop with
  | .ckptCopy snap _ _ nb => if s.ckpt.copy.isNone && !halted s && !faulting s then copyStart snap nb s else s
  | _ => s

/-- The pieces of a copy. -/
def Copy.pieces (c : Copy) : Nat := c.image.length / 256

/-- The packet of piece k of a copy (R472). -/
def copyPut (c : Copy) (k : Nat) (s : State) : State :=
  let tgt := if c.snap then s.ckpt.snap else s.ckpt.partner
  let base := if c.snap then wfld s.ckpt.sbase 23 0 else wfld s.ckpt.pbase 23 0
  let chip := chipOf tgt
  let (tag, s) := freshTag s
  let p := { PktSpec.to s 1 chip (fabAddr chip 1 (coreOffset (coreOf tgt) (base + ckptLen s + 256 * k))) with
    tagx := tag, j := k, payload := pieceOf c.image k }
  match queuePacket p s.clock.ek (some ⟨tag, 1, 3, 0, k, 256⟩) none s with
  | some t => t
  | none => raise 0x60 (FaultCtx.args chip 1) s

/-- The next packet of a copy: data pieces in order, then the header once they are acknowledged (R468, R472). -/
def copyAsk (s : State) : Option State :=
  match s.ckpt.copy with
  | none => none
  | some c =>
    if !requestRoom s false then none
    else if c.sent < c.pieces then
      some (copyPut c c.sent { s with ckpt := { s.ckpt with copy := some { c with sent := c.sent + 1 } } })
    else if !c.hdrSent && decide (c.acked + 1 ≥ c.pieces) then
      some (copyPut c 0 { s with ckpt := { s.ckpt with copy := some { c with hdrSent := true } } })
    else none

/-- Commit (R468 step 5, R471, R223); the self-test that the stop took starts (R487). -/
def copyCommit (c : Copy) (s : State) : State :=
  let k := { s.ckpt with copy := none, state := if s.ckpt.arm then 2 else 0 }
  let k := if c.snap then k else
    { k with lvalid := true, lseq := BitVec.ofNat 16 c.seq, ldig := BitVec.ofNat 64 c.digest }
  let stop := match s.issue.stop with
    | .ckptCopy sn e0 ed nb => Stop.ckptDone sn e0 ed nb
    | x => x
  let st := match s.st.stopTest with
    | some cmd => { s.st with stopTest := none, run := some (cmd, true), state := 2 }
    | none => s.st
  lowerLate { s with ckpt := k, ocache := [], ocUpset := [], issue := { s.issue with stop := stop }, st := st }

/-- The acknowledgement of piece k of a copy (R468). -/
def copyAck (k : Nat) (s : State) : State :=
  match s.ckpt.copy with
  | none => s
  | some c =>
    if k = 0 then copyCommit c s
    else { s with ckpt := { s.ckpt with copy := some { c with acked := c.acked + 1 } } }

/-! ## The replica (R473) -/

/-- A source may reach the REPLICA slot (R473). -/
def replicaOk (s : State) (chip core job : Nat) : Bool :=
  s.ckpt.rcv && chip == chipOf s.ckpt.src && core == coreOf s.ckpt.src && job == s.ckpt.srcJob.toNat

/-- The cause of a failed replica check (R460, R473): 0 none. -/
def replicaCause (s : State) (h : List Byte) : Nat :=
  let rx := s.ckpt.rx.getD ([], 0)
  if !hcrcOk h then 1
  else if !((List.range (ckptLen s / 256 - 1)).all fun i => rx.1.contains (i + 1)) then 2
  else if rx.2 ≠ hdrField h 0x28 8 then 3 else 0

/-- The header of a replica arrives (R473). -/
def replicaHeader (h : List Byte) (s : State) : State :=
  let c := replicaCause s h
  if c = 0 then
    { s with ckpt := { s.ckpt with rvalid := true, rxbad := false, rx := none, rseq := BitVec.ofNat 16 (hdrField h 0x0C 2)
                                   rdig := BitVec.ofNat 64 (hdrField h 0x28 8) } }
  else
    let t := { s with ckpt := { s.ckpt with rxbad := true, rx := none } }
    logError 0xA4 ⟨none, none, none, ckptStatusWord t, word (chipCore (chipOf s.ckpt.src) (coreOf s.ckpt.src) + c)⟩ t

/-- A data piece of a replica arrives; a piece that is there already begins a new copy (R473; log 25). -/
def replicaPiece (k : Nat) (bs : List Byte) (s : State) : State :=
  let x := pieceCrc k bs
  let rx := match s.ckpt.rx with
    | some (ks, d) => if ks.contains k then ([k], x) else (k :: ks, (d + x) % 2 ^ 64)
    | none => ([k], x)
  { s with ckpt := { s.ckpt with rx := some rx, rvalid := false } }

/-- A write of a whole piece of the REPLICA slot is taken as that piece (R473). -/
def replicaTake (lo : Nat) (bs : List Byte) (s : State) : State :=
  let o := lo - replicaBase s
  if o % 256 ≠ 0 || bs.length ≠ 256 then s else if o = 0 then replicaHeader bs s else replicaPiece (o / 256) bs s

/-! ## Restore (R479, R480) -/

/-- The core may take a restore command (R479). -/
def restoreReady (s : State) : Bool :=
  (s.pwr.state == 1 || s.pwr.state == 2) && (List.range 9).all (fun k => stepDone s (k + 1)) && queuesEmpty s &&
    s.ckpt.copy.isNone && s.ckpt.restore.isNone

/-- The header check (R479 step 2). kind 1 local, 2 remote, 3 held. job: JOB, RANK and TSEQ are checked too. -/
def restoreHdrOk (s : State) (kind : Nat) (job : Bool) (h : List Byte) : Bool :=
  h.take 4 == [0x50, 0x44, 0x43, 0x4B] && hdrField h 4 2 == 1 && hcrcOk h && (kind == 3 || hdrField h 6 2 % 2 == 0) &&
    hdrField h 0x14 4 == (configIdWord s).toNat && hdrField h 0x18 4 == ckptLen s &&
    (!job || (hdrField h 8 2 == s.job.id.toNat && hdrField h 0x0A 2 == s.job.rank.toNat && hdrField h 0x0C 2 == s.ckpt.tseq.toNat)) &&
    hdrField h 0x30 32 == s.img.cur.hash && s.img.infV

/-- Step 3 (R476, R479): every byte but those of the checkpoint area in the channel-spill area initialised, the operand cache
cleared (log 89). -/
def restoreInit (s : State) : State :=
  let r := areaRange s 1
  let b := ckptBase s
  { poolKeep (fun a => decide (max r.1 b ≤ a) && decide (a < min r.2 (b + 2 * ckptLen s))) s with ocache := [], ocUpset := [] }

/-- The header is there: the check, then step 3 (R479). -/
def restoreHeader (kind : Nat) (h : List Byte) (s : State) : State :=
  if restoreHdrOk s kind true h then
    let t := restoreInit s
    { t with ckpt := { t.ckpt with state := 4, restore := some ⟨kind, h, 1, []⟩ } }
  else { s with ckpt := { s.ckpt with state := 0xC, restore := none } }

/-- A restore command is taken (R479 step 1). -/
def restoreStart (kind : Nat) (s : State) : State :=
  if kind = 2 then { s with ckpt := { s.ckpt with state := 4, restore := some ⟨2, [], 0, []⟩ } }
  else
    let base := if kind = 1 then ckptBase s else replicaBase s
    match touchRange base 256 s with
    | (t, some b) => raise 0x40 (FaultCtx.args b 0xB) t
    | (t, none) => restoreHeader kind (readBytes t.pool.mem base 256) t

/-- The next GET of a remote restore (R353, R479, R480). -/
def restoreAsk (s : State) : Option State :=
  match s.ckpt.restore with
  | none => none
  | some r =>
    let pieces := ckptLen s / 256
    if r.kind ≠ 2 || !requestRoom s true || decide (r.asked ≥ pieces) || (r.header.isEmpty && r.asked != 0) then none
    else
      let k := r.asked
      let chip := chipOf s.ckpt.partner
      let (tag, s) := freshTag s
      let p := { PktSpec.to s 2 chip
          (fabAddr chip 1 (coreOffset (coreOf s.ckpt.partner) (wfld s.ckpt.pbase 23 0 + ckptLen s + 256 * k))) with
        tagx := tag, j := k, w5 := 256 }
      let t := { s with ckpt := { s.ckpt with restore := some { r with asked := k + 1 } } }
      match queuePacket p s.clock.ek (some ⟨tag, 2, 4, 0, k, 256⟩) none t with
      | some u => some u
      | none => some (raise 0x60 (FaultCtx.args chip 2) { s with ckpt := { s.ckpt with restore := none, state := 0 } })

/-- Piece k of a remote restore has arrived. -/
def restoreReply (k : Nat) (bs : List Byte) (s : State) : State :=
  match s.ckpt.restore with
  | none => s
  | some r =>
    if k = 0 then restoreHeader 2 bs s
    else { s with ckpt := { s.ckpt with restore := some { r with pieces := (k, bs) :: r.pieces } } }

/-- The body of a restore, once it is all there. -/
def restoreBody (s : State) (r : Restore) : Option (List Byte) :=
  let n := ckptLen s
  if r.kind = 2 then
    if (List.range (n / 256 - 1)).all (fun i => (r.pieces.lookup (i + 1)).isSome) then
      some ((List.range (n / 256 - 1)).flatMap fun i => (r.pieces.lookup (i + 1)).getD [])
    else none
  else some (readBytes s.pool.mem ((if r.kind = 1 then ckptBase s else replicaBase s) + 256) (n - 256))

/-- A table of n entries of w bytes read from a byte list: the values. -/
def tableOf : Nat → Nat → List Byte → List Nat
  | 0, _, _ => []
  | n + 1, w, bs => leNat (bs.take w) :: tableOf n w (bs.drop w)

/-- A sparse store from the values of keys k on, in canonical form. -/
def storeOf {α : Type} [DecidableEq α] (d : α) (k : Nat) : List α → List (Nat × α)
  | [] => []
  | x :: xs => if x = d then storeOf d (k + 1) xs else (k, x) :: storeOf d (k + 1) xs

/-- Step 4 (R463, R479, R120): the body written back. -/
def restoreWrite (body : List Byte) (s : State) : State :=
  let at_ (o : Nat) : List Byte := body.drop (o - 0x100)
  let sw := (tableOf 64 4 (at_ 0x5100)).map word
  let r3 := (areaRange s 3).1
  let r4 := (areaRange s 4).1
  let res := (at_ 0x8000).take (resBytes s)
  let pers := ((at_ 0x8000).drop (resBytes s)).take (persBytes s)
  let t := { s with
    flagUpset := []
    flags := storeOf 0 0 ((tableOf 4096 2 (at_ 0x100)).map (BitVec.ofNat 16))
    descs := storeOf W8.zero 64 ((List.range 384).map fun i => W8.ofList (bytesWords 8 ((at_ 0x2100).drop (32 * i))))
    sregs := storeOf 0 1 ((sw.drop 1).take 59)
    s63 := sw.getD 63 0
    scales := storeOf ScaleRec.init 0 ((List.range 64).map fun i => ScaleRec.ofWords (bytesWords 18 ((at_ 0x5200).drop (72 * i))))
    crs := storeOf crDefault 0 ((tableOf 64 8 (at_ 0x6400)).map (BitVec.ofNat 64)) }
  (poolWrite false r4 pers (poolWrite false r3 res t).1).1

/-- The digest failed (R479): RDIG, a data reset of the core itself and step 3 again. -/
def restoreFail (s : State) : State :=
  let t := restoreInit (holdSteps 8 (clearData s))
  { t with ckpt := { t.ckpt with state := 0xD, restore := none } }

/-- Step 5 (R479): DONE, or the digest failed. -/
def restoreEnd (r : Restore) (body : List Byte) (s : State) : State :=
  if digestOf body = hdrField r.header 0x28 8 then
    { s with ckpt := { s.ckpt with state := 5, restore := none, lseq := BitVec.ofNat 16 (hdrField r.header 0x0C 2)
                                   lvalid := r.kind == 1 } }
  else restoreFail s

/-- RESTORE_COMPLETE: the body is read, written and its digest compared (R479). -/
def execRestoreComplete (s : State) : Host.Outcome State Fault Refusal :=
  match s.ckpt.restore with
  | none => .next s
  | some r =>
    if r.header.isEmpty then .next s
    else
      let base := if r.kind = 1 then ckptBase s else replicaBase s
      let read := if r.kind = 2 then (s, none) else touchRange (base + 256) (ckptLen s - 256) s
      match read with
      | (t, some b) => .next (raise 0x40 (FaultCtx.args b 0xB) { t with ckpt := { t.ckpt with restore := none, state := 0 } })
      | (t, none) =>
        match restoreBody t r with
        | some body => .next (restoreEnd r body (restoreWrite body t))
        | none => .next s

/-- The restore of a core after a test in a stop: as RESTORE_LOCAL, its job fields not checked; STATE stays where it is unless a check
fails (R487; log 90). -/
def testRestore (s : State) : State :=
  let n := ckptLen s
  match touchRange (ckptBase s) n s with
  | (t, some b) => raise 0x40 (FaultCtx.args b 0xB) t
  | (t, none) =>
    let img := readBytes t.pool.mem (ckptBase t) n
    if !restoreHdrOk t 1 false (img.take 256) then { t with ckpt := { t.ckpt with state := 0xC } }
    else
      let body := img.drop 256
      let u := restoreWrite body (restoreInit t)
      if digestOf body = hdrField (img.take 256) 0x28 8 then u else restoreFail u

end Sys2Proof.Machine
end

