-- ==== Sys2Proof/Machine/Flags.lean ====
section
/-! DEFINITION. The flag memory and the SYN engine (10_flags_and_beat R322 to R336, R345, R346). -/

namespace Sys2Proof.Machine

/-! ## Fields (R325 to R327) -/

/-- FLAG of a SYN slot word (R94, R325). -/
def synFlag (e : Entry) : Nat := wfld e.w 25 14
/-- The 16-bit operand v (R325). -/
def synV (e : Entry) : Nat := if wbit e.d.w1 19 then e.d.fld 1 15 0 else e.s0.toNat % 65536
/-- TLIM (R326). -/
def synTlim (e : Entry) : Nat := e.d.fld 2 16 0
/-- TUNIT is beats (R326). -/
def synBeats (e : Entry) : Bool := e.d.fld 2 31 30 == 1
/-- The slot that bit i, from bit 31 down, of AFTER and GATE names (R326). -/
def synSlot (i : Nat) : Nat := if i = 5 then 6 else i
/-- The slots that AFTER names. -/
def synAfter (e : Entry) : List Nat := ((List.range 6).filter fun i => wbit e.d.w1 (31 - i)).map synSlot
/-- A wait of any form. -/
def synIsWait (op : Nat) : Bool := (3 ≤ op && op ≤ 5) || synTimed op
/-- A take. -/
def synIsTake (op : Nat) : Bool := op == 5 || op == 0x12
/-- A wait for equality. -/
def synIsEq (op : Nat) : Bool := op == 4 || op == 0x11

/-! ## Starts and completions (R328 to R330) -/

/-- Every instruction that AFTER covers completed in an earlier clk (R328, R329). -/
def afterOk (s : State) (e : Entry) : Bool :=
  !s.live.any fun l => (synAfter e).contains l.slot && decide (l.bseq ≤ e.bseq)

/-- The head of the SYN queue, if it may start in this clk (R329). -/
def synHead (s : State) (op : Nat) : Option Entry :=
  match headFor s 5 op with
  | some e =>
    if s.syn.cur.isNone && afterOk s e && (match s.syn.lastDone with | some c => decide (c < s.clock.clk) | none => true) then
      some e else none
  | none => none

/-- A SYN instruction completes: its gate opens for the next clk (R328, R330). -/
def synDone (e : Entry) (s : State) : State :=
  let t := complete e.id s
  { t with
    gates := t.gates.map (fun g => if g.id == e.id then { g with done := true } else g)
    syn := { SynState.init with lastDone := some s.clock.clk } }

/-- A SYN instruction that acts and completes in its start clk. -/
def synAct (op : Nat) (f : Entry → State → State) (s : State) : State :=
  match synHead s op with
  | some e => f e (synDone e (dequeue 5 s))
  | none => s

/-- A wait starts; a timed wait whose TLIM is 0 faults with DESC_BOUND (R336, R345). -/
def synWait (op : Nat) (s : State) : State :=
  match synHead s op with
  | some e =>
    let t := dequeue 5 s
    if synTimed op && synTlim e == 0 then descBound 5 e t
    else flagUse (synFlag e) (fun t => { t with syn := { t.syn with cur := some e, count := 0, startClk := s.clock.clk, expired := false } }) t
  | none => s

/-- FSET (R327). -/
def execFset (s : State) : Host.Outcome State Fault Refusal :=
  .next (synAct 1 (fun e t => flagUse (synFlag e) (setFlag (synFlag e) (BitVec.ofNat 16 (synV e))) t) s)

/-- FADD (R323, R327). -/
def execFadd (s : State) : Host.Outcome State Fault Refusal :=
  .next (synAct 2 (fun e t =>
    flagUse (synFlag e) (addFlag (synFlag e) (sext 16 (synV e)) (some (5, e)) (ownIds s)) t) s)

/-- FWGE (R327). -/
def execFwge (s : State) : Host.Outcome State Fault Refusal := .next (synWait 3 s)
/-- FWEQ (R327). -/
def execFweq (s : State) : Host.Outcome State Fault Refusal := .next (synWait 4 s)
/-- FTAKE (R327). -/
def execFtake (s : State) : Host.Outcome State Fault Refusal := .next (synWait 5 s)
/-- FENCE (R327). -/
def execFence (s : State) : Host.Outcome State Fault Refusal := .next (synAct 6 (fun _ t => t) s)
/-- TWGE (R336). -/
def execTwge (s : State) : Host.Outcome State Fault Refusal := .next (synWait 0x10 s)
/-- TWEQ (R336). -/
def execTweq (s : State) : Host.Outcome State Fault Refusal := .next (synWait 0x11 s)
/-- TTAKE (R336). -/
def execTtake (s : State) : Host.Outcome State Fault Refusal := .next (synWait 0x12 s)

/-! ## Waits (R324, R327, R336) -/

/-- The wait's test on the value that the flag held at the start of the clk (R324, R327). -/
def synTest (s : State) (e : Entry) : Bool :=
  let v := (flagStart s (synFlag e)).toNat
  if synIsEq e.op then v == synV e else decide (v ≥ synV e)

/-- FLAG_WAIT_PASS: the pending wait's test passes; a take subtracts in this clk (R327). -/
def execFlagWaitPass (s : State) : Host.Outcome State Fault Refusal :=
  match s.syn.cur with
  | some e =>
    if engOk s 5 && synIsWait e.op && !s.syn.expired && (!synTimed e.op || decide (s.syn.count ≤ synTlim e)) && synTest s e then
      .next (flagUse (synFlag e) (fun t =>
        let u := bump 0x030 1 (synDone e t)
        if synIsTake e.op then addFlag (synFlag e) (-(synV e : Int)) (some (5, e)) (ownIds s) u else u) s)
    else .next s
  | none => .next s

/-- TIMED_WAIT_EXPIRY: the count reached TLIM and the test has not passed: FLAG_TIMEOUT, or the wait will proceed (R336). -/
def execTimedWaitExpiry (s : State) : Host.Outcome State Fault Refusal :=
  match s.syn.cur with
  | some e =>
    if engOk s 5 && synTimed e.op && !s.syn.expired &&
        (decide (s.syn.count > synTlim e) || (s.syn.count == synTlim e && !synTest s e)) then
      if wbit e.d.w2 29 then .next { s with syn := { s.syn with expired := true, startClk := s.clock.clk } }
      else
        let a := (synFlag e <<< 16) + (flagStart s (synFlag e)).toNat
        .next (raise 0x84 (FaultCtx.ofEntry 5 e a (synV e)) s)
    else .next s
  | none => .next s

/-- TIMED_WAIT_PROCEED: in the next unskipped clk after expiry TOFLAG takes +1 and the wait completes (R336). -/
def execTimedWaitProceed (s : State) : Host.Outcome State Fault Refusal :=
  match s.syn.cur with
  | some e =>
    if engOk s 5 && s.syn.expired && decide (s.syn.startClk < s.clock.clk) then
      let t := bump 0x030 1 (bump 0x032 1 (synDone e s))
      let f := e.d.fld 2 28 17
      .next (flagUse f (addFlag f 1 (some (5, e)) (ownIds s)) t)
    else .next s
  | none => .next s

/-! ## Remote adds (R331, R332) -/

/-- The FADD packet of an RFADD (R331, R349, R350). -/
def faddPacket (s : State) (e : Entry) : PktSpec :=
  let chip := e.d.fld 3 31 20
  { PktSpec.to s 8 chip (fabAddr chip 2 (coreOffset (e.d.fld 3 19 8) (synFlag e))) with
    tagx := e.tag.toNat % 256, w4 := synV e }

/-- RFADD: the packet is formed at the start and handed to the port in the next clk, in which RFADD completes (R327). -/
def execRfadd (s : State) : Host.Outcome State Fault Refusal :=
  match synHead s 0x18 with
  | some e =>
    let t := dequeue 5 s
    let t := { t with syn := { t.syn with cur := some e, count := 0, startClk := s.clock.clk, expired := false } }
    .next (queueInst 5 e (faddPacket s e) (s.clock.ek + 1) none none t)
  | none => .next s

/-- One clk of the SYN engine: an RFADD handed over completes, a timed wait counts (R327, R336); part of the tick. -/
def synTick (s : State) : State :=
  match s.syn.cur with
  | some e =>
    if !engOk s 5 then s
    else
      let s := if synIsWait e.op then bump 0x031 1 s else s
      if e.op = 0x18 then (if s.syn.startClk < s.clock.clk then synDone e s else s)
      else if synTimed e.op && !synBeats e && !s.syn.expired then { s with syn := { s.syn with count := s.syn.count + 1 } }
      else s
  | none => s

/-- A beat edge counts for a timed wait in beats, not in its start clk (R336). -/
def synBeatEdge (s : State) : State :=
  match s.syn.cur with
  | some e =>
    if synTimed e.op && synBeats e && !s.syn.expired && decide (s.syn.startClk < s.clock.clk) then
      { s with syn := { s.syn with count := s.syn.count + 1 } }
    else s
  | none => s

end Sys2Proof.Machine
end

