-- ==== Sys2Proof/Machine/Spring.lean ====
section
/-! DEFINITION. The spring receiver (04_loading R132 to R144, 01_boundary R16): command and data flits, loads, the command
queue, and the commands DESC_LOAD and BEAT_NO at its head. -/

namespace Sys2Proof.Machine

/-- The receiver takes a flit in this clk (R16, R17, R144). -/
def rcvTakes (s : State) : Bool := s.out.sprRdy && !s.pins.pondHalt

/-- A fault of a command flit (R149, R460): ARG0 word 3 and ARG1 word 2 of the flit, and the half that a LOAD_BLOCK or a REPLAY
names. Of a data flit that no command waits for they are its own words (DESIGN CHOICE, log 85). -/
def flitCtx (w3 w2 : Word) : FaultCtx := ⟨none, none, none, w3, w2⟩

/-- A fault of a command flit that names a half of the replay buffer. -/
def halfCtx (w3 w2 : Word) : FaultCtx := ⟨none, some (wbit w3 23, 0, 0), none, w3, w2⟩

/-- A fault of a load at a bundle of its half (R149); FAULT_INFO has a patch entry for PATCH_BOUND only (R459). -/
def loadCtx (l : Load) (bundle : Nat) : FaultCtx :=
  ⟨none, if l.isBlock then some (l.half, bundle, 0) else none, none, l.w3, l.w2⟩

/-- One half of the replay buffer. -/
def getHalf (s : State) (h : Bool) : Half := if h then s.rcv.half1 else s.rcv.half0

/-- One half replaced. -/
def setHalf (h : Bool) (x : Half) (s : State) : State :=
  if h then { s with rcv := { s.rcv with half1 := x } } else { s with rcv := { s.rcv with half0 := x } }

/-- Bundle b of a half. -/
def halfBundle (x : Half) (b : Nat) : W8 := mget W8.zero x.bundles b

/-- Patch entry p of a half: words P0 to P3 in w0 to w3 (R145). -/
def halfPatch (x : Half) (p : Nat) : W8 := mget W8.zero x.patches p

/-- A REPLAY of the queue names half h (R137). -/
def halfBusy (s : State) (h : Bool) : Bool :=
  s.rcv.cmdq.any fun c => match c with
    | .replay g _ _ _ _ _ _ _ => g == h
    | _ => false

/-- Four words of a flit, word 0 first. -/
def flitWords (data : BitVec 128) : List Word := (List.range 4).map fun i => word (data.toNat >>> (32 * i))

/-- A range of a half holds a mark bundle with CHK = 1 (R129, R141). -/
def rangeHasChk (x : Half) (first last : Nat) : Bool :=
  (List.range (last + 1 - first)).any fun i => isChkMark (halfBundle x (first + i))

/-- Bundles of a load written while whole bundles are at hand: at most n of them. The first illegal one faults with
ILLEGAL_ENC (R93, R135). -/
def writeBundles : Nat → Load → State → Load × State
  | 0, l, s => (l, s)
  | n + 1, l, s =>
    let need := bundleWords (l.words.headD 0)
    if l.bund < l.nbund ∧ l.words ≠ [] ∧ need ≤ l.words.length then
      let b := expandBundle (l.words.take need)
      let ok := bundleOk s.cfg b && hdrKind (l.words.headD 0) != 3
      let x := getHalf s l.half
      let s := setHalf l.half { x with bundles := mset W8.zero x.bundles l.bund b } s
      let s := if ok then s else raise 0x01 (loadCtx l l.bund) s
      writeBundles n { l with words := l.words.drop need, bund := l.bund + 1 } s
    else (l, s)

/-- Words 3 and 2 of the queued REPLAYs of a half, of several iterations, whose range holds a mark bundle with CHK = 1 (R129,
R141). -/
def chkReplays (s : State) (h : Bool) : List (Word × Word) :=
  s.rcv.cmdq.filterMap fun c => match c with
    | .replay g f t it _ _ w3 w2 => if g == h && decide (it > 1) && rangeHasChk (getHalf s h) f t then some (w3, w2) else none
    | _ => none

/-- The load completes with its last data flit (R136): the bundles end within that flit, so fewer than a flit's words follow
them. A half whose load ended in a fault has been loaded since the reset, and is not valid (DESIGN CHOICE, log 86). A REPLAY
that was accepted while its half was loading breaks R129 when the bundles it names are known (DESIGN CHOICE, log 87). -/
def finishBlock (l : Load) (s : State) : State :=
  let x := getHalf s l.half
  let fmtOk := l.bund == l.nbund && l.words.all (· == 0) && decide (l.words.length < 4) && decide (l.npatch ≤ l.flits)
  let crcOk := crc32cEnd l.crcRun == l.crc
  let s := setHalf l.half { x with loading := false, loaded := true, valid := fmtOk && crcOk && !faulting s } s
  let s := { s with rcv := { s.rcv with load := none } }
  let s := if fmtOk then s else raise 0x03 (loadCtx l l.bund) s
  let s := if crcOk then s else raise 0x04 (loadCtx l l.bund) s
  (chkReplays s l.half).foldl (fun t p => raise 0x02 (halfCtx p.1 p.2) t) s

/-- A DESC_LOAD's second data flit: the words go to its command, or the CRC faults (R138). -/
def finishDesc (l : Load) (s : State) : State :=
  let s := { s with rcv := { s.rcv with load := none } }
  if crc32cEnd l.crcRun = l.crc then
    { s with rcv := { s.rcv with cmdq := s.rcv.cmdq.map fun c => match c with
        | .descLoad cls d none => .descLoad cls d (some (W8.ofList l.words))
        | x => x } }
  else raise 0x04 (loadCtx l 0) s

/-- One data flit of a load in progress (R135, R138). -/
def loadFlit (data : BitVec 128) (l : Load) (s : State) : State :=
  let ws := flitWords data
  let l1 := { l with left := l.left - 1, flits := l.flits + 1, crcRun := crc32cRun l.crcRun (leBytes 16 data.toNat) }
  if !l.isBlock then
    let l2 := { l1 with words := l.words ++ ws }
    let s := { s with rcv := { s.rcv with load := some l2 } }
    if l2.left = 0 then finishDesc l2 s else s
  else if l.flits < l.npatch then
    let p := W8.ofList ws
    let x := getHalf s l.half
    let s := setHalf l.half { x with patches := mset W8.zero x.patches l.flits p } s
    let s := { s with rcv := { s.rcv with load := some l1 } }
    let s := if patchOk p then s else raise 0x01 (loadCtx l 0) s
    if l1.left = 0 then finishBlock l1 s else s
  else
    let (l2, s) := writeBundles 5 { l1 with words := l.words ++ ws } s
    let s := { s with rcv := { s.rcv with load := some l2 } }
    if l2.left = 0 then finishBlock l2 s else s

/-- LOAD_BLOCK arrives (R132, R133, R135, R137). -/
def cmdLoadBlock (w3 w2 w1 w0 : Word) (s : State) : State :=
  let half := wbit w3 23
  let nbund := wfld w3 9 0
  let npatch := wfld w2 31 25
  let nflit := wfld w2 10 0
  let ctx := halfCtx w3 w2
  if wfld w3 22 10 ≠ 0 ∨ wfld w2 24 11 ≠ 0 ∨ wfld w1 15 0 ≠ 0 ∨ nbund = 0 ∨ nbund > 512 ∨ npatch > 64 then
    raise 0x01 ctx s
  else if s.rcv.load.isSome then raise 0x02 ctx s
  else if halfBusy s half then raise 0x02 ctx s
  else
    let l : Load := ⟨true, half, 0, 0, nbund, npatch, w0, w3, w2, nflit, 0, 0, [], 0xFFFFFFFF⟩
    let s := setHalf half ⟨false, true, false, nbund, npatch, [], []⟩ s
    let s := { s with rcv := { s.rcv with load := some l
                                          badParity := s.rcv.badParity.filter fun b => b.1 != half } }
    if nflit = 0 then finishBlock l s else s

/-- A command enters the queue, or overflows it (R134). -/
def enqueue (c : Cmd) (ctx : FaultCtx) (s : State) : State :=
  if s.rcv.cmdq.length ≥ 8 then raise 0x02 ctx s else { s with rcv := { s.rcv with cmdq := s.rcv.cmdq ++ [c] } }

/-- REPLAY arrives (R132, R134, R141). -/
def cmdReplay (w3 w2 w1 w0 : Word) (s : State) : State :=
  let half := wbit w3 23
  let iter := wfld w3 15 0
  let first := wfld w2 31 23
  let last := wfld w2 22 14
  let pf := wfld w2 13 8
  let pc := wfld w2 7 1
  let ctx := halfCtx w3 w2
  let x := getHalf s half
  if wfld w3 22 16 ≠ 0 ∨ wbit w2 0 ∨ w1 ≠ 0 ∨ w0 ≠ 0 ∨ pc > 64 then raise 0x01 ctx s
  else if iter = 0 ∨ first > last ∨ last ≥ x.nbund ∨ pf + pc > x.npatch ∨ !(x.loaded || x.loading) ∨
      (iter > 1 ∧ x.valid ∧ rangeHasChk x first last) then raise 0x02 ctx s
  else enqueue (.replay half first last iter pf pc w3 w2) ctx s

/-- DESC_LOAD arrives (R132, R133, R134, R138). -/
def cmdDescLoad (w3 w2 w1 w0 : Word) (s : State) : State :=
  let cls := wfld w3 23 21
  let d := wfld w3 20 15
  let ctx := flitCtx w3 w2
  if wfld w3 14 0 ≠ 0 ∨ w2 ≠ 0 ∨ w1 ≠ 0 ∨ cls = 0 ∨ cls = 7 then raise 0x01 ctx s
  else if s.rcv.load.isSome then raise 0x02 ctx s
  else if s.rcv.cmdq.length ≥ 8 then raise 0x02 ctx s
  else
    let l : Load := ⟨false, false, cls, d, 0, 0, w0, w3, w2, 2, 0, 0, [], 0xFFFFFFFF⟩
    { s with rcv := { s.rcv with load := some l, cmdq := s.rcv.cmdq ++ [.descLoad cls d none] } }

/-- BEAT_NO arrives (R132, R134). -/
def cmdBeatNo (w3 w2 w1 w0 : Word) (s : State) : State :=
  let ctx := flitCtx w3 w2
  if wfld w3 23 0 ≠ 0 ∨ w2 ≠ 0 ∨ w1 ≠ 0 then raise 0x01 ctx s else enqueue (.beatNo w0) ctx s

/-- RESUME arrives (R132, R140). -/
def cmdResume (w3 w2 w1 w0 : Word) (s : State) : State :=
  let ctx := flitCtx w3 w2
  if wfld w3 23 0 ≠ 0 ∨ w2 ≠ 0 ∨ w1 ≠ 0 ∨ w0 ≠ 0 then raise 0x01 ctx s
  else if s.issue.holdMark then
    { s with issue := { s.issue with holdMark := false, resumeAt := some s.clock.clk } }
  else raise 0x02 ctx s

/-- A command flit (R132). w3 is the whole word 3, CMD in its bits 31 to 24. -/
def cmdFlit (w3 w2 w1 w0 : Word) (s : State) : State :=
  if !rcvTakes s then s
  else match wfld w3 31 24 with
    | 1 => cmdLoadBlock w3 w2 w1 w0 s
    | 2 => cmdReplay w3 w2 w1 w0 s
    | 3 => cmdDescLoad w3 w2 w1 w0 s
    | 4 => cmdBeatNo w3 w2 w1 w0 s
    | 5 => cmdResume w3 w2 w1 w0 s
    | _ => raise 0x01 (flitCtx w3 w2) s

/-- Word 3 of a command flit from CMD and its low 24 bits. -/
def cmdWord (cmd : Nat) (w3 : BitVec 24) : Word := word ((cmd <<< 24) + w3.toNat)

/-- SPRING_DATA_FLIT: a flit by its spr_type; 0b00 data, 0b01 a command flit, others reserved (R16, R132, R133). A data flit for
which no command waits faults, one of a discarded load too (R133, R134, R137). -/
def execSpringDataFlit (typ : BitVec 2) (data : BitVec 128) (s : State) : Host.Outcome State Fault Refusal :=
  let ws := flitWords data
  if !rcvTakes s then .next s
  else if typ = 1 then .next (cmdFlit (ws.getD 3 0) (ws.getD 2 0) (ws.getD 1 0) (ws.getD 0 0) s)
  else if typ = 0 then
    match s.rcv.load with
    | some l => .next (loadFlit data l s)
    | none => .next (raise 0x02 (flitCtx (ws.getD 3 0) (ws.getD 2 0)) s)
  else .next (raise 0x01 (flitCtx (ws.getD 3 0) (ws.getD 2 0)) s)

/-- LOAD_BLOCK (R135). -/
def execLoadBlock (w3 : BitVec 24) (w2 w1 w0 : Word) (s : State) : Host.Outcome State Fault Refusal :=
  .next (cmdFlit (cmdWord 1 w3) w2 w1 w0 s)

/-- REPLAY (R141). -/
def execReplay (w3 : BitVec 24) (w2 w1 w0 : Word) (s : State) : Host.Outcome State Fault Refusal :=
  .next (cmdFlit (cmdWord 2 w3) w2 w1 w0 s)

/-- DESC_LOAD (R138). -/
def execDescLoad (w3 : BitVec 24) (w2 w1 w0 : Word) (s : State) : Host.Outcome State Fault Refusal :=
  .next (cmdFlit (cmdWord 3 w3) w2 w1 w0 s)

/-- BEAT_NO (R139). -/
def execBeatNo (w3 : BitVec 24) (w2 w1 w0 : Word) (s : State) : Host.Outcome State Fault Refusal :=
  .next (cmdFlit (cmdWord 4 w3) w2 w1 w0 s)

/-- RESUME (R140). -/
def execResume (w3 : BitVec 24) (w2 w1 w0 : Word) (s : State) : Host.Outcome State Fault Refusal :=
  .next (cmdFlit (cmdWord 5 w3) w2 w1 w0 s)

/-- Every issued SCL instruction has completed (R102). -/
def sclQuiet (s : State) : Bool := s.q.scl.isEmpty && s.scl.fly.isEmpty

/-- The issue point may act for the command queue in this clk: later than its last action, not halted, not skipped. -/
def issuePointFree (s : State) : Bool :=
  !s.clock.skip && !halted s && awake s && stepDone s 8 &&
    (match s.issue.lastIssue with | some c => decide (c < s.clock.clk) | none => true)

/-- The command at the head completes in clk c and counts for the queue and its half through that clk (R134, R137). -/
def finishCmd (c : Nat) (s : State) : State :=
  { s with rcv := { s.rcv with doneAt := some c }, issue := { s.issue with phase := none } }

/-- The command at the head, unless it has completed. -/
def headCmd (s : State) : Option Cmd := if s.rcv.doneAt.isSome then none else s.rcv.cmdq.head?

/-- A command that completed in an earlier clk leaves the queue (R134). -/
def retireCmd (s : State) : State :=
  match s.rcv.doneAt with
  | some c => if c < s.clock.clk then { s with rcv := { s.rcv with cmdq := s.rcv.cmdq.tail, doneAt := none } } else s
  | none => s

/-- DESC_LOAD_EXECUTE: the descriptor at the head of the queue is written (R138). -/
def execDescLoadExecute (s : State) : Host.Outcome State Fault Refusal :=
  match headCmd s with
  | some (.descLoad cls d (some v)) =>
    if issuePointFree s && sclQuiet s then
      let t := finishCmd s.clock.clk (descSet cls d v s)
      .next { t with issue := { t.issue with lastIssue := some s.clock.clk, issuedNow := true } }
    else .next s
  | _ => .next s

/-- BEAT_NO_EXECUTE: S63 takes VALUE (R139). It acts in a skipped clk too; an increment of the same clk is not applied. -/
def execBeatNoExecute (s : State) : Host.Outcome State Fault Refusal :=
  match headCmd s with
  | some (.beatNo v) =>
    if !s.pins.pondHalt && awake s && stepDone s 8 &&
        (match s.issue.lastIssue with | some c => decide (c < s.clock.clk) | none => true) then
      let t := finishCmd s.clock.clk s
      .next { t with s63 := v, issue := { t.issue with lastIssue := some s.clock.clk, s63Set := some s.clock.clk } }
    else .next s
  | _ => .next s

end Sys2Proof.Machine
end

