-- ==== Sys2Proof/Machine/Issue.lean ====
section
/-! DEFINITION. The issue point (03_program R97 to R104, R127 to R129, 04_loading R141 to R147): patch lists, bundle issue
with its copies and checks, and mark bundles. -/

namespace Sys2Proof.Machine

/-! ## Position in the replay (R142) -/

/-- The patch entries of a replay that apply at a boundary (WHEN code), in ascending order. -/
def patchesAt (x : Half) (pf pc when_ : Nat) : List Nat :=
  ((List.range pc).map (· + pf)).filter fun p => wfld (halfPatch x p).w0 27 26 == when_

/-- The replay at the head of the command queue, if its half is valid: half, first, last, iterations, patch range. -/
def headReplay (s : State) : Option (Bool × Nat × Nat × Nat × Nat × Nat) :=
  match headCmd s with
  | some (.replay h f l it pf pc _ _) => if (getHalf s h).valid then some (h, f, l, it, pf, pc) else none
  | _ => none

/-- Half, iteration and bundle of the next issue; none where a patch list comes first. -/
def nextPos (s : State) : Option (Bool × Nat × Nat) :=
  match headReplay s with
  | some (h, f, _, _, pf, pc) =>
    match s.issue.phase with
    | none => if (patchesAt (getHalf s h) pf pc 1).isEmpty then some (h, 0, f) else none
    | some (.run it b) => some (h, it, b)
    | some .pre => none
    | some (.each _) => none
    | some .post => none
  | none => none

/-- The replay after its next bundle has issued (R142, R143). -/
def advance (s : State) : State :=
  match headReplay s, nextPos s with
  | some (h, f, l, it, pf, pc), some (_, i, b) =>
    let x := getHalf s h
    let put (p : Phase) (t : State) : State := { t with issue := { t.issue with phase := some p } }
    if b < l then put (.run i (b + 1)) s
    else if i + 1 < it then put (if (patchesAt x pf pc 0).isEmpty then .run (i + 1) f else .each i) s
    else if (patchesAt x pf pc 2).isEmpty then finishCmd s.clock.clk s
    else put .post s
  | _, _ => s

/-! ## Patch lists (R102, R142, R145 to R147) -/

/-- One patch entry applied (R146); a value outside its bounds faults with PATCH_BOUND. -/
def applyPatch (h : Bool) (it b p : Nat) (s : State) : State :=
  let e := halfPatch (getHalf s h) p
  let cls := wfld e.w0 25 23
  let d := wfld e.w0 22 17
  let wd := wfld e.w0 16 14
  let lsb := wfld e.w0 13 9
  let hi := lsb + wfld e.w0 8 4
  let old := (descGet s cls d).fld wd hi lsb
  if s.rcv.badParity.contains (h, true, p) then ctrlParity ⟨none, some (h, b, it), none, 0, 0⟩ s
  else match descReads [(cls, d)] s with
  | (u, false) => u
  | (s, true) =>
    match patchValue e old (sreg s (wfld e.w1 31 26)) with
      | .ok v =>
        let dd := descGet s cls d
        bump 0x007 1 (descSet cls d (dd.set wd (setWfld (dd.get wd) hi lsb v)) s)
      | .bound v => raise 0x05 ⟨none, some (h, b, it), some p, word (toCode 32 v), 0⟩ s

/-- A patch list applied in ascending index; it ends at the first fault or reset (R146). -/
def applyPatches (h : Bool) (it b : Nat) : List Nat → State → State
  | [], s => s
  | p :: ps, s =>
    let t := applyPatch h it b p s
    if faulting t || !t.out.sprRdy then t else applyPatches h it b ps t

/-- The boundary at which a patch list waits: its WHEN code, the iteration and bundle it precedes. -/
def patchPoint (s : State) : Option (List Nat × Bool × Nat × Nat) :=
  match headReplay s with
  | some (h, f, l, it, pf, pc) =>
    let x := getHalf s h
    match s.issue.phase with
    | none => let ps := patchesAt x pf pc 1
              if ps.isEmpty then none else some (ps, h, 0, f)
    | some .pre => some (patchesAt x pf pc 1, h, 0, f)
    | some (.each i) => some (patchesAt x pf pc 0, h, i + 1, f)
    | some .post => some (patchesAt x pf pc 2, h, it - 1, l)
    | some (.run _ _) => none
  | none => none

/-- PATCH_LIST_APPLY: the list of the present boundary, one clk an entry (R102, R142). -/
def execPatchListApply (s : State) : Host.Outcome State Fault Refusal :=
  match patchPoint s, headReplay s with
  | some (ps, h, it, b), some (_, f, _, _, _, _) =>
    if issuePointFree s && sclQuiet s then
      let t := applyPatches h it b ps s
      if faulting t || !t.out.sprRdy then .next { t with issue := { t.issue with lastIssue := some s.clock.clk } }
      else
        let u := match s.issue.phase with
          | some .post => finishCmd (s.clock.clk + ps.length - 1) t
          | some (.each i) => { t with issue := { t.issue with phase := some (.run (i + 1) f) } }
          | _ => { t with issue := { t.issue with phase := some (.run 0 f) } }
        .next { u with issue := { u.issue with lastIssue := some (s.clock.clk + ps.length - 1), issuedNow := true } }
    else .next s
  | _, _ => .next s

/-! ## What a bundle copies (R98, R99) -/

/-- The instruction in a slot names a descriptor. -/
def usesDesc (slot : Nat) (w : Word) : Bool := slot < 6 && (slot ≥ 2 || wfld w 31 26 ≤ 0x18)

/-- The descriptors that a slot word copies. -/
def slotDescs (s : State) (slot : Nat) (w : Word) : List (Nat × Nat) :=
  let cls := slotClass slot
  let n := wfld w 7 2
  if usesDesc slot w then
    (cls, n) :: (if slot == 4 && n != 63 && movTwo (wfld w 31 26) (descGet s cls n) then [(cls, n + 1)] else [])
  else []

/-- The S registers that a slot word copies. -/
def slotSregs (s : State) (slot : Nat) (w : Word) : List Nat :=
  let d := descGet s (slotClass slot) (wfld w 7 2)
  if slot == 2 then [d.fld 3 31 26, d.fld 3 25 20]
  else if slot == 5 then (if wbit d.w1 19 || wfld w 31 26 == 6 then [] else [wfld w 13 8])
  else []

/-- What an SCL slot word will write: an S register or a descriptor. -/
def sclTarget (w : Word) : Option (Nat ⊕ (Nat × Nat)) :=
  let op := wfld w 31 26
  if op == 0x21 then some (.inr (wfld w 19 17, wfld w 7 2))
  else if op == 0x29 || op == 0x30 || op == 0x31 then none
  else some (.inl (wfld w 25 20))

/-- A slot word copies what a pending SCL instruction will write (R99). -/
def copies (s : State) (slot : Nat) (w : Word) (t : Nat ⊕ (Nat × Nat)) : Bool :=
  match t with
  | .inl r => (slotSregs s slot w).contains r
  | .inr d => (slotDescs s slot w).contains d

/-- The SCL writes of earlier bundles that have not landed. -/
def sclPending (s : State) : List (Nat ⊕ (Nat × Nat)) :=
  (s.q.scl.map (·.w) ++ s.scl.fly.map (·.e.w)).filterMap sclTarget

/-- The slots that a bundle fills. -/
def bundleSlots (b : W8) : List Nat := (List.range 7).filter (hdrPresent b.w0)

/-- Every queue the bundle names has room (R97). -/
def roomFor (s : State) (b : W8) : Bool := (bundleSlots b).all fun i => decide ((getQ s i).length < 8)

/-- The issue point may issue a bundle in this clk (R97 to R101, R140, R421, R468). -/
def mayIssue (s : State) : Bool :=
  issuePointFree s && stepDone s 9 && !s.issue.mark && s.issue.stop == .none

/-- No pending SCL write reaches what the bundle copies (R99). -/
def sclClear (s : State) (b : W8) : Bool :=
  (bundleSlots b).all fun i => !(sclPending s).any (copies s i (slotWord b i))

/-- SCALE_EXP of a slot if its enable is 1, else 0 (R171, R226). -/
def scaleExpOf (s : State) (en : Bool) (slot : Nat) : Int := if en then (scaleGet s slot).scaleExp else 0

/-- The job registers as RSEND and RMAXS copy them (R381). -/
def jobCopy (s : State) : List Nat :=
  [s.job.id.toNat, s.job.rank.toNat, s.job.nranks, s.job.nfMode, b2n s.job.lateMode, s.job.divMode, s.job.dlb.toNat,
   s.job.dls.toNat]

/-- The queue entry of an instruction at issue (R98, R103). -/
def mkEntry (s : State) (slot : Nat) (w hdr : Word) (h : Bool) (it b id : Nat) : Entry :=
  let cls := slotClass slot
  let n := wfld w 7 2
  let d := if usesDesc slot w then descGet s cls n else W8.zero
  let rs := slotSregs s slot w
  let arr := slot ≤ 1
  let vec := slot == 2 && wbit d.w0 23
  { w := w
    tag := BitVec.ofNat 16 hdr.toNat
    d := d
    d1 := if slot == 4 && n != 63 && movTwo (wfld w 31 26) d then descGet s cls (n + 1) else W8.zero
    s0 := match rs with
      | r :: _ => sreg s r
      | [] => 0
    s1 := match rs with
      | _ :: r :: _ => sreg s r
      | _ => 0
    e0 := if arr then scaleExpOf s (wbit d.w2 31) (d.fld 2 30 25)
      else scaleExpOf s (vec && wbit d.w4 19) (d.fld 4 18 13)
    e1 := if arr then scaleExpOf s (wbit d.w2 24) (d.fld 2 23 18) else 0
    e2 := if arr then scaleExpOf s (wbit d.w2 17) (d.fld 2 16 11)
      else scaleExpOf s (vec && wbit d.w4 12) (d.fld 4 11 6)
    job := if slot == 4 && (wfld w 31 26 == 0x2C || wfld w 31 26 == 0x2D) then jobCopy s else []
    half := h
    bundle := b
    iter := it
    clk := s.clock.clk
    bseq := s.issue.nextBundle
    id := id }

/-! ## Posted reduce receives (11_fabric_and_reduction R375) -/

/-- An instruction that posts a receive: RSEND and RMAXS. -/
def postsRecv (slot : Nat) (e : Entry) : Bool := slot == 4 && (e.op == 0x2C || e.op == 0x2D)
/-- STEP of a reduce instruction (R373). -/
def redStep (e : Entry) : Nat := e.d.fld 4 31 16
/-- TILE (R373). -/
def redTile (e : Entry) : Nat := e.d.fld 3 31 8
/-- The reduction's operation: 0 SUM, 1 MAX. -/
def redOp (e : Entry) : Nat := if e.op = 0x2D then 1 else 0
/-- E, the elements of the tile; one for RMAXS (R367, R373). -/
def redElems (e : Entry) : Nat := if e.op = 0x2D then 1 else 1024 <<< e.d.fld 0 17 16

/-- The receive entry of an instruction (R375). -/
def recvOf (e : Entry) : Recv :=
  ⟨redStep e, redTile e, redOp e, e.d.fld 0 15 12, e.d.fld 5 23 0, e.d.fld 0 11 9, e.d.fld 4 11 0, redElems e, e.d.fld 7 5 0,
    e.job.getD 5 0, e.job.getD 2 1, []⟩

/-- A receive equal in (STEP, TILE, OP) is posted (R375). -/
def recvTaken (s : State) (e : Entry) : Bool :=
  s.fab.recv.any fun r => r.step == redStep e && r.tile == redTile e && r.op == redOp e

/-- FAB_PROTO for a duplicate receive (R375, R460). -/
def recvFault (slot : Nat) (e : Entry) : FaultCtx := FaultCtx.ofEntry slot e (redTile e) (redStep e)

/-- The receive of an instruction posted while the table has room; the entry remembers it in its ninth job field. -/
def postRecv (e : Entry) (s : State) : Entry × State :=
  if s.fab.recv.length < 64 then
    ({ e with job := e.job.take 8 ++ [1] }, { s with fab := { s.fab with recv := s.fab.recv ++ [recvOf e] } })
  else (e, s)

/-- The entries of a bundle, slot by slot. -/
def bundleEntries (s : State) (b : W8) (h : Bool) (it bi : Nat) : List (Nat × Entry) :=
  (bundleSlots b).map fun i => (i, mkEntry s i (slotWord b i) b.w0 h it bi (s.issue.nextId + i))

/-- A list of faults in ascending code order (R457). -/
def insertFault (f : Nat × FaultCtx) : List (Nat × FaultCtx) → List (Nat × FaultCtx)
  | [] => [f]
  | g :: t => if f.1 < g.1 then f :: g :: t else g :: insertFault f t

/-- The faults of a bundle at issue, in ascending code order. -/
def bundleFaults (s : State) (es : List (Nat × Entry)) : List (Nat × FaultCtx) :=
  let ctx (slot : Nat) (e : Entry) : FaultCtx := FaultCtx.ofEntry slot e (instArg (slotClass slot) e) 0
  let single := es.flatMap fun p => (slotFaults s p.1 p.2.w p.2.d p.2.d1).map fun c => (c, ctx p.1 p.2)
  let pair := match es with
    | (0, a) :: (1, b) :: _ => (pairFaults a.w b.w a.d b.d).map fun c => (c, ctx 0 a)
    | _ => []
  let chain := match es.find? fun p => p.1 == 2 with
    | some (_, e) =>
      let ms := s.issue.chain ++ [e]
      if ms.length > 8 || (!e.b0 && !chainOk ms) then [(0x01, ctx 2 e)] else []
    | none => []
  let post := (es.filter fun p => postsRecv p.1 p.2 && recvTaken s p.2).map fun p => (0x63, recvFault p.1 p.2)
  (single ++ pair ++ chain ++ post).foldl (fun l f => insertFault f l) []

/-- Faults raised one after another. -/
def raiseAll (fs : List (Nat × FaultCtx)) (s : State) : State :=
  fs.foldl (fun t f => raise (byte f.1) f.2 t) s

/-- One instruction enters its queue: it is issued and not completed; RSEND and RMAXS post their receive (R375), and a SYN
instruction's gate begins (R328). -/
def enterQueue (p : Nat × Entry) (s : State) : State :=
  let slot := p.1
  let (e, s) := if postsRecv p.1 p.2 then postRecv p.2 s else (p.2, s)
  let s := setQ slot (getQ s slot ++ [e]) s
  let s := { s with live := s.live ++ [⟨slot, e.bseq, e.id, false⟩] }
  if slot == 5 && e.d.fld 1 25 20 != 0 then
    let slots := ((List.range 6).filter fun i => wbit e.d.w1 (25 - i)).map fun i => if i == 5 then 6 else i
    { s with gates := s.gates ++ [⟨slots, e.bseq, e.id, wfld e.w 25 14, false⟩] }
  else if slot == 2 then { s with issue := { s.issue with chain := if e.b0 then s.issue.chain ++ [e] else [] } }
  else s

/-- What every issue does (R20, R97, R447): the clk is used, the core is in Run and in beat service. -/
def noteIssue (s : State) : State :=
  let s := bump 0x003 1 s
  { s with
    issue := { s.issue with
      lastIssue := some s.clock.clk
      issuedNow := true
      idleRun := 0
      service := s.issue.service || s.issue.mayEnter
      mayEnter := false
      nextBundle := s.issue.nextBundle + 1
      nextId := s.issue.nextId + 7 }
    pwr := { s.pwr with state := if s.pwr.state = 1 then 0 else s.pwr.state } }

/-- BUNDLE_ISSUE: the next bundle issues as a whole when it can (R97 to R104). -/
def execBundleIssue (s : State) : Host.Outcome State Fault Refusal :=
  match nextPos s with
  | some (h, it, bi) =>
    let b := halfBundle (getHalf s h) bi
    if mayIssue s && hdrKind b.w0 == 0 && roomFor s b && sclClear s b then
      if s.rcv.badParity.contains (h, false, bi) then .next (ctrlParity ⟨none, some (h, bi, it), none, 0, 0⟩ s)
      else match descReads ((bundleSlots b).flatMap fun i => slotDescs s i (slotWord b i)) s with
      | (u, false) => .next u
      | (s, true) =>
        let es := bundleEntries s b h it bi
        let fs := bundleFaults s es
        let t := noteIssue (advance s)
        if fs.isEmpty then .next (es.foldl (fun u p => enterQueue p u) t)
        else .next (raiseAll fs t)
    else .next s
  | none => .next s

/-! ## Mark bundles (R127 to R129) -/

/-- A mark bundle issues: chain and beat-number checks, then its action and the end of the core's part of the beat. -/
def issueMark (op : Nat) (act : MarkAct) (b : W8) (h : Bool) (it bi : Nat) (s : State) : State :=
  let ctx (a0 a1 : Word) : FaultCtx := ⟨none, some (h, bi, it), none, a0, a1⟩
  let openChain := !s.issue.chain.isEmpty
  let badNo := wbit b.w2 31 && b.w1 != s.s63
  let t := bump 0x008 1 (noteIssue (advance s))
  let t := lowerLate t
  let t := { t with issue := { t.issue with mark := true, act := some act
                                            holdMark := t.issue.holdMark || op == 2
                                            resumeAt := if op == 2 then none else t.issue.resumeAt } }
  let t := if openChain then raise 0x01 (ctx 0 0) t else t
  if badNo then raise 0x81 (ctx b.w1 s.s63) t else t

/-- The mark bundle that comes next, if its MARK_OP is op and it may issue. -/
def nextMark (s : State) (op : Nat) : Option (W8 × Bool × Nat × Nat) :=
  match nextPos s with
  | some (h, it, bi) =>
    let b := halfBundle (getHalf s h) bi
    if mayIssue s && hdrKind b.w0 == 2 && markOp b == op then some (b, h, it, bi) else none
  | none => none

/-- The next mark bundle of MARK_OP op issues with the action that its ARG selects, after f; a word with a parity error is
found as it is read (R149). -/
def markIssue (op : Nat) (act : W8 → MarkAct) (f : W8 → State → State) (s : State) : State :=
  match nextMark s op with
  | some (b, h, it, bi) =>
    if s.rcv.badParity.contains (h, false, bi) then ctrlParity ⟨none, some (h, bi, it), none, 0, 0⟩ s
    else issueMark op (act b) b h it bi (f b s)
  | none => s

/-- BEAT_MARK (R128). -/
def execBeatMark (s : State) : Host.Outcome State Fault Refusal := .next (markIssue 1 (fun _ => .beat) (fun _ t => t) s)

/-- HOLD_MARK (R128, R140). -/
def execHoldMark (s : State) : Host.Outcome State Fault Refusal := .next (markIssue 2 (fun _ => .hold) (fun _ t => t) s)

/-- IMGSW_MARK: PEND and PSLOT are set (R421). -/
def execImgswMark (s : State) : Host.Outcome State Fault Refusal :=
  .next (markIssue 3 (fun b => .imgsw (wbit b.w2 0))
    (fun b t => { t with img := { t.img with pend := true, pslot := wbit b.w2 0 } }) s)

/-- CKPT_MARK: ARG 0 a copy to the partner, 1 a snapshot (R128, R468). -/
def execCkptMark (s : State) : Host.Outcome State Fault Refusal :=
  .next (markIssue 4 (fun b => .ckpt (wbit b.w2 0)) (fun _ t => t) s)

end Sys2Proof.Machine
end

