-- ==== Sys2Proof/Machine/Reduce.lean ====
section
/-! DEFINITION. Gradient reduction at the core (11_fabric_and_reduction R367 to R383): contributions, pod tiles with their
residue, posted receives, results and digests. -/

namespace Sys2Proof.Machine

/-! ## Digests (R382, R383) -/

/-- The CRC of a piece (R382). flags: OP, ENC, NF, NFX as bits 0 to 3. -/
def redCrc (job step tile piece flags count : Nat) (payload : List Byte) : Nat :=
  crc64 (leBytes 2 job ++ leBytes 2 step ++ leBytes 4 tile ++ leBytes 1 piece ++ leBytes 1 flags ++ leBytes 2 0 ++
    leBytes 4 count ++ payload)

/-- A piece's CRC added to SENT, or to RECV, of the ring entry of its step (R383). -/
def digestAdd (recv : Bool) (job step crc : Nat) (s : State) : State :=
  let i := step % 16
  let d := s.fab.ring.getD i Digest.init
  let d := if d.v && d.job == job && d.step == step then d else { Digest.init with v := true, job := job, step := step }
  let d := if recv then { d with recv := (d.recv + crc) % 2 ^ 64, nrecv := (d.nrecv + 1) % 2 ^ 32 }
    else { d with sent := (d.sent + crc) % 2 ^ 64, nsent := (d.nsent + 1) % 2 ^ 32 }
  { s with fab := { s.fab with ring := s.fab.ring.set i d } }

/-! ## Results (R378) -/

/-- One result element under DIV_MODE (R378). -/
def resDiv (div count nranks : Nat) (v : FVal) : FVal :=
  match div with
  | 0 => if count = 0 then FVal.zero false else v.divNat count
  | 1 => v.divNat (max 1 nranks)
  | _ => v

/-- The codes of a piece in RFMT (R378). A value-less piece under a DIV_MODE other than 0b00 has free values (R380, log 7). -/
def resCodes (s : State) (r : Recv) (p : ResPiece) : List Nat :=
  (List.range 128).map fun k =>
    if p.hasVals then
      convertElem r.rfmt 0 0 (resDiv r.divMode p.count r.nranks (decodeElem 1 (leNat ((p.payload.drop (2 * k)).take 2))))
    else if r.divMode = 0 then 0
    else (Config.freeValue (fmtBits r.rfmt) (s.free + k)).toNat

/-- The counters of an accepted piece (R378, R428). -/
def resCount (r : Recv) (p : ResPiece) (s : State) : State :=
  bump 0x154 (b2n p.nfx) (bump 0x153 (b2n p.nf) (bump 0x152 (r.nranks - p.count)
    (bump 0x151 (b2n (decide (p.count < r.nranks))) (bump 0x150 1 s))))

/-- NORX counts a piece with no use (R378). -/
def norx (s : State) : State := bump 0x155 1 { s with fab := { s.fab with norx := satCount 8 (s.fab.norx + 1) } }

/-- The receive a piece belongs to, if it expects the piece. -/
def recvFor (s : State) (p : ResPiece) : Option Recv :=
  match s.fab.recv.find? fun r => r.step == p.step && r.tile == p.tile && r.op == p.op with
  | some r =>
    if r.got.contains p.piece || decide (p.piece ≥ max 1 (r.elems / 128)) then none else some r
  | none => none

/-- A result piece at the core (R88, R378): values written or CUR_AMAX replaced; after the last piece RFLAG takes +1 and the
receive is freed in the next clk. -/
def redDeliver (p : ResPiece) (s : State) : State :=
  match recvFor s p with
  | none => norx s
  | some r =>
    let flags := p.op % 2 + 4 * b2n p.nf + 8 * b2n p.nfx
    let s := digestAdd true s.job.id.toNat p.step (redCrc s.job.id.toNat p.step p.tile p.piece flags p.count p.payload) s
    let s := resCount r p s
    let (s, bad) :=
      if p.op = 1 then (scaleEvent r.slot (.replace (word (leNat (p.payload.take 4)))) s, none)
      else
        let n := fmtBits r.rfmt / 8
        let t := if p.hasVals || r.divMode == 0 then s else { s with free := s.free + 128 }
        poolWrite false (r.resOff + 128 * p.piece * n) ((resCodes s r p).flatMap (leBytes n)) t
    match bad with
    | some b => raise 0x40 (FaultCtx.args b 0xC) s
    | none =>
      { s with fab := { s.fab with recv := s.fab.recv.map fun x => if x = r then { r with got := r.got ++ [p.piece] } else x } }

/-- The last piece of a receive has landed. -/
def Recv.whole (r : Recv) : Bool := decide (r.got.length ≥ max 1 (r.elems / 128))

/-- In the clk after the last piece of a receive has landed its entry is freed and RFLAG takes +1 (R378); part of the tick. -/
def recvTick (s : State) : State :=
  if !portOk s || !s.fab.recv.any Recv.whole then s
  else
    (s.fab.recv.filter Recv.whole).foldl (fun t r => addLater r.rflag 1 none (ownIds s) false t)
      { s with fab := { s.fab with recv := s.fab.recv.filter fun r => !r.whole } }

/-! ## Contributions (R373 to R377, R380) -/

/-- ENC of an RSEND: a pod tile. -/
def redPod (e : Entry) : Bool := wbit e.d.w0 18
/-- Element bits of the tile on the channel. -/
def redBits (e : Entry) : Nat := if redPod e then 32 else 16
/-- Lines of the tile. -/
def redLines (e : Entry) : Nat := redElems e * redBits e / 512
/-- Pool address of the tile's residue (R373, R376). -/
def residAddr (s : State) (e : Entry) : Nat := (areaRange s 3).1 + e.d.fld 6 23 0
/-- NF_MODE copied at issue. -/
def redNfMode (e : Entry) : Nat := e.job.getD 3 1

/-- FAB_PROTO or REDUCE_NF of a reduce instruction (R460). -/
def redFault (code : Byte) (e : Entry) (s : State) : State :=
  raise code (FaultCtx.ofEntry 4 e (redTile e) (redStep e)) s

/-- The type-specific words of an RCON: EXT in w3, W4, W5, W6 (R368). -/
def rconWords (e : Entry) (npm1 piece : Nat) (enc nf : Bool) : W8 :=
  { W8.zero with
    w3 := packWord' [(3, npm1), (0, e.job.getD 1 0 % 2)]
    w4 := packWord' [(20, redOp e), (19, b2n enc), (18, b2n nf), (17, e.job.getD 4 0), (0, 1)]
    w5 := packWord' [(16, redStep e), (8, e.job.getD 6 0), (0, e.job.getD 7 0)]
    w6 := packWord' [(8, redTile e), (6, redNfMode e), (0, piece)] }
where
  /-- A word from fields, each with the lowest bit of its place. -/
  packWord' (fs : List (Nat × Nat)) : Word := word (fs.foldl (fun n f => n + (f.2 <<< f.1)) 0)

/-- A contribution: the packets, and the pieces with their digest flags and payloads. -/
structure Contrib where
  packets : List (W8 × List Byte)
  pieces : List (Nat × List Byte)
  local_ : List ResPiece
  deriving DecidableEq, Repr

/-- A result piece that a one-rank job delivers to itself (R380). -/
def localPiece (e : Entry) (piece count : Nat) (nf nfx hasVals : Bool) (payload : List Byte) : ResPiece :=
  ⟨redStep e, redTile e, redOp e, piece, count, nf, nfx, hasVals, payload⟩

/-- An excluded tile (R374, R380). -/
def excludedContrib (e : Entry) : Contrib :=
  let n := redElems e / 128
  ⟨[(rconWords e (n - 1) 0 (redPod e) true, [])],
    (List.range n).map fun _ => (2 * b2n (redPod e) + 4, []),
    (List.range n).map fun p => localPiece e p 0 false true false []⟩

/-- A dense tile (R374, R380). -/
def denseContrib (e : Entry) (nf : Bool) (bytes : List Byte) : Contrib :=
  let ps := (List.range (redElems e / 128)).map fun p => (p, (bytes.drop (256 * p)).take 256)
  ⟨ps.map fun x => (rconWords e 0 x.1 false nf, x.2), ps.map fun x => (4 * b2n nf, x.2),
    ps.map fun x => localPiece e x.1 1 nf false true x.2⟩

/-- A pod tile from its sums v (R376): the tile scale, the sign bytes of each piece, and the new residue. -/
def podEncode (n : Nat) (v : List Word) : Word × List (List Byte) × List Word :=
  let sum := (rowReduce (combW 0) (v.map fun x => some (x &&& 0x7FFFFFFF)) none).getD 0
  let sc := rneF32 ((f32 sum).divNat n)
  let neg (x : Word) : Bool := wbit x 31
  let pieces := (List.range (n / 128)).map fun p =>
    leBytes 16 ((((v.drop (128 * p)).take 128).mapIdx fun j x => b2n (neg x) <<< j).foldl (· + ·) 0)
  (sc, pieces, v.map fun x => rneF32 ((f32 x).sub (if neg x then (f32 sc).neg else f32 sc)))

/-- The packets of a pod tile: the scale and up to 15 pieces each (R369, R376). -/
def podPackets (e : Entry) (sc : Word) : Nat → Nat → List (List Byte) → List (W8 × List Byte)
  | 0, _, _ => []
  | n + 1, p, ps =>
    if ps.isEmpty then []
    else
      let now := ps.take 15
      (rconWords e (now.length - 1) p true false, wordBytes sc ++ now.flatten) :: podPackets e sc n (p + 15) (ps.drop 15)

/-- The decoded values of a pod piece, rounded to BF16 (R370, R380). -/
def podDecoded (sc : Word) (bits : List Byte) : List Byte :=
  let n := leNat bits
  (List.range 128).flatMap fun k =>
    leBytes 2 (convertElem 1 0 0 (if n.testBit k then (f32 sc).neg else f32 sc))

/-- A pod contribution. -/
def podContrib (e : Entry) (sc : Word) (ps : List (List Byte)) : Contrib :=
  ⟨podPackets e sc 4 0 ps, ps.map fun b => (2, wordBytes sc ++ b),
    ps.mapIdx fun p b => localPiece e p 1 false false true (podDecoded sc b)⟩

/-- The RMAXS contribution (R375, R380). -/
def maxContrib (e : Entry) (v : Word) : Contrib :=
  ⟨[(rconWords e 0 0 false false, wordBytes v)], [(1, wordBytes v)], [localPiece e 0 1 false false true (wordBytes v)]⟩

/-- A fabric instruction in flight replaced, by its number. -/
def setFabOp (id : Nat) (f : FabOp → FabOp) (s : State) : State :=
  { s with mov := { s.mov with fab := s.mov.fab.map fun o => if o.e.id = id then f o else o } }

/-- A fabric instruction in flight removed. -/
def dropFabOp (id : Nat) (s : State) : State :=
  { s with mov := { s.mov with fab := s.mov.fab.filter fun o => o.e.id != id } }

/-- A contribution leaves: SENT takes its pieces; its packets are queued, or in a one-rank job its result pieces (R380). -/
def sendContrib (e : Entry) (c : Contrib) (s : State) : State :=
  let job := e.job.getD 0 0
  let s := (c.pieces.zipIdx).foldl
    (fun t x => digestAdd false job (redStep e) (redCrc job (redStep e) (redTile e) x.2 x.1.1 1 x.1.2) t) s
  if e.job.getD 2 1 = 1 then setFabOp e.id (fun o => { o with local_ := c.local_ }) s
  else setFabOp e.id (fun o => { o with queue := c.packets, len := c.packets.length }) s

/-- The tile of an RSEND is staged (R374, R376): NF_MODE decides, a pod tile updates its residue. -/
def redForm (e : Entry) (nf : Bool) (bytes : List Byte) (s : State) : State :=
  let mode := redNfMode e
  if !redPod e then
    if !nf then sendContrib e (denseContrib e false bytes) s
    else if mode = 0 then sendContrib e (denseContrib e true bytes) s
    else if mode = 1 then sendContrib e (excludedContrib e) s
    else redFault 0x65 e s
  else
    let n := redElems e
    let a := residAddr s e
    match poolRead a (4 * n) s with
    | (t, _, some b) => poolUe 4 e b 0xB t
    | (t, old, none) =>
      let v := List.zipWith (fun g r => rneF32 ((f32 g).add (f32 r))) (bytesWords n bytes) (bytesWords n old)
      if nf || v.any (fun x => (f32 x).nonfinite) then
        if mode = 1 then sendContrib e (excludedContrib e) t else redFault 0x65 e t
      else
        let (sc, ps, new) := podEncode n v
        match poolWrite false a (wordsBytes new) t with
        | (t, some b) => poolUe 4 e b 0xC t
        | (t, none) => sendContrib e (podContrib e sc ps) t

/-! ## Starts -/

/-- A fabric instruction as it starts. -/
def mkFabOp (e : Entry) (len start : Nat) : FabOp :=
  ⟨e, len, 0, 0, BitBuf.empty, 0, false, [], 0, LineOut.ofBits 512 0, start, [], []⟩

/-- A reduce instruction whose tile is still staged holds the reduce sender's buffer (R374). -/
def stagingBusy (s : State) : Bool :=
  s.mov.fab.any fun o => o.e.op == 0x2C && (decide (o.lines < redLines o.e) || !o.queue.isEmpty || !o.local_.isEmpty)

/-- The start checks of RSEND (R373, R384). -/
def rsendOk (s : State) (e : Entry) : Bool :=
  let off := e.d.fld 5 23 0
  let n := redElems e * (if e.d.fld 0 15 12 = 0 then 4 else 2)
  off % 4 == 0 && engArea s (e.d.fld 0 11 9) off (off + n - 1) &&
    (!redPod e || (e.d.fld 6 23 0 % 4 == 0 && engArea s 3 (residAddr s e) (residAddr s e + 4 * redElems e - 1)))

/-- The receive of a reduce instruction at its start: posted at issue, posted now, or the table is full and it waits (R375). -/
def startRecv (e : Entry) (s : State) : Option (Entry × State) :=
  if e.job.getD 8 0 = 1 then some (e, s)
  else if s.fab.recv.length ≥ 64 && !recvTaken s e then none
  else some (postRecv e s)

/-- RSEND and RMAXS start through their receive; a duplicate faults with FAB_PROTO (R375). -/
def startReduce (op : Nat) (go : Entry → State → State) (s : State) : State :=
  match headFor s 4 op with
  | none => s
  | some e =>
    if e.job.getD 8 0 ≠ 1 ∧ recvTaken s e then redFault 0x63 e (dequeue 4 s)
    else
      match startRecv e s with
      | none => s
      | some (e, t) => go e (dequeue 4 t)

/-- RSEND (R374). -/
def execRsend (s : State) : Host.Outcome State Fault Refusal :=
  if stagingBusy s then .next s
  else .next (startReduce 0x2C (fun e t =>
    if rsendOk t e then { t with mov := { t.mov with fab := t.mov.fab ++ [mkFabOp e 0 t.clock.ek] } } else descBound 4 e t) s)

/-- RMAXS: CUR_AMAX is read at the start (R375). -/
def execRmaxs (s : State) : Host.Outcome State Fault Refusal :=
  .next (startReduce 0x2D (fun e t =>
    sendContrib e (maxContrib e (scaleGet t (e.d.fld 7 5 0)).curAmax)
      { t with mov := { t.mov with fab := t.mov.fab ++ [mkFabOp e 0 t.clock.ek] } }) s)

/-- One clk of the results of a one-rank job: from the second clk after the start a piece is written; the last one completes the
instruction (R380; log 6). -/
def localTick (o : FabOp) (s : State) : State :=
  match o.local_ with
  | [] => s
  | p :: rest =>
    if s.clock.ek < o.start + 2 then s
    else
      let t := redDeliver p s
      if faulting t then t
      else if rest.isEmpty then complete o.e.id (dropFabOp o.e.id t)
      else setFabOp o.e.id (fun x => { x with local_ := rest }) t

/-- Lines of a tile popped as they come; END must stand on the last line and on no other (R374). Part of the tick. -/
def redTick (o : FabOp) (s : State) : State :=
  let e := o.e
  let n := min (redLines e - o.lines) (chAvail s e.chX 11)
  if n = 0 then s
  else
    match chTake e.chX 11 n s with
    | none => s
    | some (ls, s) =>
      let bad := (ls.mapIdx fun i l => l.endB != (o.lines + i + 1 == redLines e)).any id
      if bad then redFault 0x63 e s
      else
        let inp := ls.foldl (fun (b : BitBuf) l => b.push 512 l.data) o.inp
        let s := setFabOp e.id (fun x => { x with inp := inp, lines := o.lines + n }) s
        if o.lines + n ≥ redLines e then
          redForm e ((ls.map (·.nf)).getLastD false) (leBytes (redElems e * redBits e / 8) inp.val) s
        else s

end Sys2Proof.Machine
end

