-- ==== Sys2Proof/Machine/Fabric.lean ====
section
/-! DEFINITION. The fabric port as a sender (11_fabric_and_reduction R350 to R355, R363 to R366): PUT, GET, GETP and RACC,
the forming and hand-off of packets, replies to the core's requests, and what the port does in each clk. -/

namespace Sys2Proof.Machine

/-! ## Fields and start checks (R364) -/

/-- DCHIP. -/
def fabChip (e : Entry) : Nat := e.d.fld 1 31 20
/-- DCORE. -/
def fabCore (e : Entry) : Nat := e.d.fld 1 19 8
/-- SPACE. -/
def fabSpace (e : Entry) : Nat := e.d.fld 0 18 16
/-- ROFF. -/
def fabRoff (e : Entry) : Nat := (e.d.fld 1 7 0 <<< 32) + e.d.w2.toNat
/-- LOFF. -/
def fabLoff (e : Entry) : Nat := e.d.fld 5 23 0
/-- LEN, or the largest count. -/
def fabLen (e : Entry) : Nat := e.d.fld 3 24 0

/-- The start checks of R364 and R384 for a transfer of len bytes. -/
def fabStartOk (s : State) (e : Entry) (len : Nat) : Bool :=
  let limit := if fabSpace e = 0 then 2 ^ 40 else 2 ^ 24
  decide (4 ≤ fabLen e) && decide (fabLen e ≤ 2 ^ 24) && fabLen e % 4 == 0 && len % 4 == 0 && decide (len ≤ fabLen e) &&
    fabRoff e % 4 == 0 && decide (fabRoff e + len ≤ limit) &&
    (e.op != 0x2A || (fabLoff e % 4 == 0 &&
      (len == 0 || engArea s (e.d.fld 0 14 12) (fabLoff e) (fabLoff e + len - 1))))

/-- Packets of a transfer (R365). -/
def FabOp.packets (o : FabOp) : Nat := ceilDiv o.len 256

/-- The address of packet j of an instruction (R347, R365). -/
def fabDst (e : Entry) (j : Nat) : Nat :=
  let off := fabRoff e + 256 * j
  fabAddr (fabChip e) (fabSpace e) (if fabSpace e = 0 then off else coreOffset (fabCore e) off)

/-- A data operation is whole: it completes, LFLAG takes +1, and RFLAG's FADD packet is formed (R365). -/
def finishFab (o : FabOp) (s : State) : State :=
  let e := o.e
  let s := complete e.id (dropFabOp e.id s)
  let s := if wbit e.d.w4 18 then addLater (e.d.fld 4 17 6) 1 (some (4, e)) (ownIds s) false s else s
  if wbit e.d.w4 31 && (e.op == 0x28 || e.op == 0x2B) && !faulting s then
    let p := { PktSpec.to s 8 (fabChip e) (fabAddr (fabChip e) 2 (coreOffset (fabCore e) (e.d.fld 4 30 19))) with
      tagx := e.tag.toNat % 256, w4 := 1 }
    queueInst 4 e p (max s.clock.ek (o.start + 2)) none none s
  else s

/-- A data operation starts (R236, R364); one of no bytes is whole at once. -/
def startFab (op : Nat) (s : State) : State :=
  match headFor s 4 op with
  | none => s
  | some e =>
    let go (len : Nat) (s : State) : State :=
      let t := dequeue 4 s
      if !fabStartOk t e len then descBound 4 e t
      else
        let o := mkFabOp e len t.clock.ek
        if len = 0 then finishFab o t else { t with mov := { t.mov with fab := t.mov.fab ++ [o] } }
    if wbit e.d.w3 31 then
      match chTake (e.d.fld 3 30 25) 11 1 s with
      | some (ls, t) => go ((ls.map (·.data)).headD 0 % 2 ^ 32) t
      | none => s
    else go (fabLen e) s

/-- PUT (R363). -/
def execPut (s : State) : Host.Outcome State Fault Refusal := .next (startFab 0x28 s)
/-- GET (R363). -/
def execGet (s : State) : Host.Outcome State Fault Refusal := .next (startFab 0x29 s)
/-- GETP (R363). -/
def execGetp (s : State) : Host.Outcome State Fault Refusal := .next (startFab 0x2A s)
/-- RACC (R363). -/
def execRacc (s : State) : Host.Outcome State Fault Refusal := .next (startFab 0x2B s)

/-! ## Forming packets (R353, R355, R365, R366) -/

/-- The operation pops a channel for its data. -/
def FabOp.pops (o : FabOp) : Bool := o.e.op == 0x28 || o.e.op == 0x2B

/-- Lines of packet j's data. -/
def FabOp.packetBytes (o : FabOp) (j : Nat) : Nat := min 256 (o.len - 256 * j)

/-- Replies held or asked for by the GETs in flight: at most 64 packets of 256 bytes (R365). -/
def getHeld (s : State) : Nat :=
  (s.mov.fab.filter fun o => o.e.op == 0x29).foldl (fun n o => n + (o.formed - o.pushed)) 0

/-- The next packet of a PUT or RACC, once its lines can be popped. -/
def putAsk (o : FabOp) (s : State) : Option State :=
  if !requestRoom s false then none
  else
    let n := o.packetBytes o.formed
    match chTake o.e.chX 11 (ceilDiv n 64) s with
    | none => none
    | some (ls, s) =>
      let data := ls.foldl (fun (b : BitBuf) l => b.push 512 l.data) BitBuf.empty
      let (tag, s) := freshTag s
      let typ := if o.e.op = 0x28 then 1 else 6
      let p := { PktSpec.to s typ (fabChip o.e) (fabDst o.e o.formed) with
        tagx := tag, j := o.formed, payload := leBytes n data.val, w4 := if typ = 6 then o.e.d.fld 0 22 19 else 0 }
      let t := setFabOp o.e.id (fun x => { x with formed := x.formed + 1 }) s
      some (queueInst 4 o.e p (max s.clock.ek (o.start + 2)) (some ⟨tag, typ, 0, o.e.id, o.formed, n⟩) none t)

/-- The next packet of a GET or GETP. -/
def getAsk (o : FabOp) (s : State) : Option State :=
  if !requestRoom s true || (o.e.op == 0x29 && decide (getHeld s ≥ 64)) then none
  else
    let n := o.packetBytes o.formed
    let (tag, s) := freshTag s
    let p := { PktSpec.to s 2 (fabChip o.e) (fabDst o.e o.formed) with tagx := tag, j := o.formed, w5 := word n }
    let t := setFabOp o.e.id (fun x => { x with formed := x.formed + 1 }) s
    some (queueInst 4 o.e p (max s.clock.ek (o.start + 2)) (some ⟨tag, 2, 0, o.e.id, o.formed, n⟩) none t)

/-- The next packet of a reduce instruction (R368, R374). -/
def rconAsk (o : FabOp) (s : State) : Option State :=
  match o.queue with
  | [] => none
  | (w, bs) :: rest =>
    if !requestRoom s false then none
    else
      let chip := o.e.d.fld 1 31 20
      let (tag, s) := freshTag s
      let slot := (o.e.d.fld 1 15 0 <<< 32) + o.e.d.w2.toNat
      let p := { PktSpec.to s 0xA chip (fabAddr chip 4 slot) with
        tagx := tag, ext := w.w3.toNat, job := o.e.job.getD 0 0, w4 := w.w4.toNat, w5 := w.w5, w6 := w.w6, payload := bs }
      let t := setFabOp o.e.id (fun x => { x with queue := rest, formed := x.formed + 1 }) s
      some (queueInst 4 o.e p (max s.clock.ek (o.start + 2)) (some ⟨tag, 0xA, 0, o.e.id, o.formed, bs.length⟩) none t)

/-- The first operation of the list that can form a packet; chans: the channels that earlier ones still pop. -/
def fabAskIn : List FabOp → List Nat → State → Option State
  | [], _, _ => none
  | o :: os, chans, s =>
    let unpopped := o.pops && decide (o.formed < o.packets)
    let r :=
      if o.pops then (if unpopped && !chans.contains o.e.chX then putAsk o s else none)
      else if o.e.op = 0x29 ∨ o.e.op = 0x2A then (if o.formed < o.packets then getAsk o s else none)
      else rconAsk o s
    match r with
    | some t => some t
    | none => fabAskIn os (if unpopped then o.e.chX :: chans else chans) s

/-- The next packet that the core can form (R353); which of several unordered ones is open, and the model takes them in this
order (log 80). -/
def askAny (s : State) : Option State :=
  if !portOk s then none
  else
    let eng := if engOk s 4 then
        (fabAskIn s.mov.fab [] s).orElse fun _ => (gatherAsk s).orElse fun _ => acmpAsk s
      else none
    eng.orElse fun _ => (copyAsk s).orElse fun _ => restoreAsk s

/-- Packets formed until one is ready for channel ch, at most n of them. -/
def formFor (ch : Nat) : Nat → State → State
  | 0, s => s
  | n + 1, s =>
    if (s.fab.txq.find? fun p => p.ch == ch).isSome then s
    else match askAny s with
      | some t => formFor ch n t
      | none => s

/-- PACKET_HANDOFF: a formed packet goes to transmit channel ch, whose flits follow in consecutive clk (R28, R366). -/
def execPacketHandoff (ch : BitVec 1) (s : State) : Host.Outcome State Fault Refusal :=
  let t := formFor ch.toNat 256 s
  match readyPacket t ch.toNat with
  | some p => .next (finishRsu (handOver p t))
  | none => .next t

/-- GMI_TX_CREDIT: one flit credit comes back on a transmit channel (R28). -/
def execGmiTxCredit (ch : BitVec 1) (s : State) : Host.Outcome State Fault Refusal :=
  if !stepDone s 7 || !awake s then .next s
  else if ch = 0 then .next { s with fab := { s.fab with txCred0 := s.fab.txCred0 + 1 } }
  else .next { s with fab := { s.fab with txCred1 := s.fab.txCred1 + 1 } }

/-! ## Replies to requests (R357, R358, R365) -/

/-- The instruction that a request belongs to. -/
def requestEntry (s : State) (o : Outst) : Option Entry :=
  match o.owner with
  | 0 => (s.mov.fab.find? fun f => f.e.id == o.id).map (·.e)
  | 1 => s.mov.gath.map (·.e)
  | 2 => s.mov.acmp.map (·.e)
  | _ => none

/-- The request is no longer outstanding. -/
def endRequest (o : Outst) (s : State) : State := { s with fab := { s.fab with outst := s.fab.outst.erase o } }

/-- An acknowledgement of a packet of a data operation or reduce instruction (R365, R374). -/
def fabAck (id : Nat) (s : State) : State :=
  match s.mov.fab.find? fun o => o.e.id == id with
  | none => s
  | some o =>
    let n := o.acked + 1
    if o.pops then
      if n ≥ o.packets then finishFab o s else setFabOp id (fun x => { x with acked := n }) s
    else if n ≥ o.len ∧ o.queue = [] then complete id (dropFabOp id s)
    else setFabOp id (fun x => { x with acked := n }) s

/-- A reply to packet j of a GET or GETP (R358, R365). -/
def fabReply (id j : Nat) (bs : List Byte) (poison : Bool) (s : State) : State :=
  match s.mov.fab.find? fun o => o.e.id == id with
  | none => s
  | some o =>
    if o.e.op = 0x29 then setFabOp id (fun x => { x with got := (j, bs) :: x.got }) s
    else
      match poolWrite poison (fabLoff o.e + 256 * j) bs s with
      | (t, some b) => poolUe 4 o.e b 0xC t
      | (t, none) =>
        if o.acked + 1 ≥ o.packets then finishFab o t else setFabOp id (fun x => { x with acked := x.acked + 1 }) t

/-- An ACK that matches request o (R357). -/
def ackRequest (o : Outst) (s : State) : State :=
  let t := endRequest o s
  match o.owner with
  | 0 => fabAck o.id t
  | 2 => acmpAck o.index t
  | 3 => copyAck o.index t
  | _ => t

/-- A GETR that matches request o (R357, R358): data bound for a channel must not be poisoned. -/
def getrRequest (o : Outst) (bs : List Byte) (poison : Bool) (s : State) : State :=
  let t := endRequest o s
  let toChan := (o.owner == 0 && (s.mov.fab.any fun f => f.e.id == o.id && f.e.op == 0x29)) || o.owner == 1 || o.owner == 2
  match poison && toChan, requestEntry s o with
  | true, some e => raise 0x64 (FaultCtx.ofEntry 4 e 0 0) t
  | _, _ =>
    match o.owner with
    | 0 => fabReply o.id o.index bs poison t
    | 1 => gatherReply o.id o.index bs t
    | 2 => acmpReply o.index bs t
    | 4 => restoreReply o.index bs t
    | _ => t

/-! ## One clk of the port -/

/-- The bytes of a packet as lines. -/
def bytesLines (bs : List Byte) : List Nat := (List.range (ceilDiv bs.length 64)).map fun i => leNat ((bs.drop (64 * i)).take 64)

/-- Replies of a GET pushed in byte order while its channel has room; the last push completes it (R365). -/
def getTick (o : FabOp) (s : State) : State :=
  let (pushed, got, lines) := match o.got.lookup o.pushed with
    | some bs => if o.out.lineq.isEmpty then (o.pushed + 1, o.got.filter (fun g => g.1 != o.pushed), (bytesLines bs).map fun l => (l, 0))
        else (o.pushed, o.got, o.out.lineq)
    | none => (o.pushed, o.got, o.out.lineq)
  let (out, s) := LineOut.drain o.e.chOut { o.out with lineq := lines } s
  let o2 := { o with pushed := pushed, got := got, out := out }
  if pushed ≥ o.packets ∧ out.lineq = [] then finishFab o2 s
  else setFabOp o.e.id (fun x => { x with pushed := pushed, got := got, out := out }) s

/-- One clk of every fabric instruction: the first GET of each channel pushes, tiles are staged. -/
def fabTickIn : List FabOp → List Nat → State → State
  | [], _, s => s
  | o :: os, chans, s =>
    if !engOk s 4 then s
    else if o.e.op = 0x29 then
      fabTickIn os (o.e.chOut :: chans) (if chans.contains o.e.chOut then s else getTick o s)
    else if !o.local_.isEmpty then fabTickIn os chans (localTick o s)
    else if o.e.op = 0x2C ∧ o.lines < redLines o.e then fabTickIn os chans (redTick o s)
    else fabTickIn os chans s

/-- One clk of the fabric instructions; part of the tick, since the table has no row for it (log 2). -/
def fabTick (s : State) : State := recvTick (fabTickIn s.mov.fab [] s)

end Sys2Proof.Machine
end

