-- ==== Sys2Proof/Machine/Mov.lean ====
section
/-! DEFINITION. The MOV engine's stream generators and transposing buffers (09_pool_and_movement R286 to R305). -/

namespace Sys2Proof.Machine

/-- POOL_UE for a MOV client at endpoint ep, where a word was bad (R277, R460). -/
def movUe (e : Entry) (ep : Nat) (bad : Option Nat) (s : State) : State :=
  match bad with
  | some b => poolUe 4 e b ep s
  | none => s

/-! ## Stream generators (R286 to R296) -/

/-- The lowest-numbered idle generator. -/
def idleGen (l : List (Option Gen)) : Option Nat := l.findIdx? Option.isNone

/-- A read generator replaced. -/
def setRg (n : Nat) (g : Option Gen) (s : State) : State := { s with mov := { s.mov with rg := s.mov.rg.set n g } }

/-- A write generator replaced. -/
def setWg (n : Nat) (g : Option Gen) (s : State) : State := { s with mov := { s.mov with wg := s.mov.wg.set n g } }

/-- Lines that a generator moves in one clk; it makes twice as many row accesses (R296). -/
def genRate (s : State) : Nat := if s.cfg.vw256 then 16 else 8

/-- A row accessed if it is not among the last 64 fetched, within the accesses left in this clk; a row that a line not yet
pushed still needs is not replaced (R296). Whether the row is at hand. -/
def fetchRow (r : Nat) (g : Gen) (left : Nat) (s : State) : Gen × Nat × State × Bool :=
  if g.rows.any fun x => x.row == r then (g, left, s, true)
  else if left = 0 ∨ (g.rows.length ≥ 64 ∧ (g.rows.head?.any fun x => decide (g.line ≤ x.last))) then (g, left, s, false)
  else
    let kept := if g.rows.length ≥ 64 then g.rows.tail else g.rows
    let row : FetchRow :=
      ⟨r, leNat (readBytes s.pool.mem (32 * r) 32), (List.range 4).map fun q => eccState s (4 * r + q), g.fl, []⟩
    ({ g with rows := kept ++ [row], partDue := s.clock.ek + 5 }, left - 1, touch (bumpBank (32 * r) s), true)

/-- Rows accessed one after another. -/
def fetchRows : List Nat → Gen → Nat → State → Gen × Nat × State × Bool
  | [], g, left, s => (g, left, s, true)
  | r :: rs, g, left, s =>
    match fetchRow r g left s with
    | (g, left, s, true) => fetchRows rs g left s
    | (g, left, s, false) => (g, left, s, false)

/-- Word w of a fetched row asked for (R277): what the read found of it is counted, an uncorrectable or poisoned word faults, and a
word taken for another one is that word from here on (R276). -/
def askWord (w : Nat) (x : FetchRow) (e : Entry) (s : State) : FetchRow × State :=
  if x.words.contains w then (x, s)
  else
    let q := w % 4
    let c := x.found.getD q 0
    let lives := mget 0 s.pool.upset w != 0
    let s := if c = 3 ∧ lives then eccReplace w s else s
    let c := if c = 3 then (if lives then eccState s w else 0) else c
    let data := if x.found.getD q 0 = 3 ∧ lives then
        setFld x.data (64 * q + 63) (64 * q) (leNat (readBytes s.pool.mem (8 * w) 8))
      else x.data
    let s := eccCount c w s
    ({ x with data := data, words := x.words ++ [w] }, if c = 2 then poolUe 4 e (8 * w) 5 s else s)

/-- Words of a generator's fetched rows asked for. -/
def askWords : List Nat → Gen → State → Gen × State
  | [], g, s => (g, s)
  | w :: ws, g, s =>
    match g.rows.findIdx? fun x => x.row == w / 4 with
    | some i =>
      let r := askWord w (g.rows.getD i ⟨0, 0, [], 0, []⟩) g.e s
      askWords ws { g with rows := g.rows.set i { r.1 with last := g.fl } } r.2
    | none => askWords ws g s

/-- The bits b to b + n − 1 taken from the rows fetched, with the check of their words (R277, R296; log 75). -/
def capturePiece (b n : Nat) (g : Gen) (s : State) : Gen × State :=
  let (g, s) := askWords (wordsOf [(b, n)]) g s
  let data := (bitRows b n).foldr (fun r a =>
    (match g.rows.find? fun x => x.row == r with | some x => x.data | none => 0) + (a <<< 256)) 0
  ({ g with part := g.part ++ [((data >>> (b % 256)) % 2 ^ n, n)] }, s)

/-- The pieces of a line captured while their rows can be fetched; whether that is all of them. -/
def fetchPieces (st : GenStream) : LineMap → Gen → Nat → State → Gen × Nat × State × Bool
  | [], g, left, s => (g, left, s, true)
  | p :: ps, g, left, s =>
    match pieceBit st p with
    | none => fetchPieces st ps { g with part := g.part ++ [(0, p.2.2.2)] } left s
    | some x =>
      match fetchRows (bitRows x.1 x.2) g left s with
      | (g, left, s, true) =>
        let (g, s) := capturePiece x.1 x.2 g s
        fetchPieces st ps g left s
      | (g, left, s, false) => (g, left, s, false)

/-- The lines of one clk fetched, at most n of them and no more than 64 ahead of the push (R296; log 29). -/
def fetchLines (st : GenStream) : Nat → Gen → Nat → State → Gen × State
  | 0, g, _, s => (g, s)
  | n + 1, g, left, s =>
    if g.fl ≥ genLines st ∨ g.fl ≥ g.line + 64 then (g, s)
    else
      match fetchPieces st ((genLine st g.fl).drop g.part.length) g left s with
      | (g, left, s, true) =>
        fetchLines st n { g with
          fl := g.fl + 1, part := [], partDue := 0
          buf := g.buf ++ [(g.partDue, packPieces g.part)] } left s
      | (g, _, s, false) => (g, s)

/-- One clk of accesses of read generator n (R296). -/
def fetchGen (n : Nat) (s : State) : State :=
  match s.mov.rg.getD n none with
  | some g =>
    if engOk s 4 then
      let (g, t) := fetchLines (genStream g.e) 64 g (2 * genRate s) s
      setRg n (some g) t
    else s
  | none => s

/-- One clk of accesses of every read generator, in ascending number (R280); part of the tick. -/
def rgTick (s : State) : State := (List.range 16).foldl (fun t n => fetchGen n t) s

/-- RD and RDM start on the lowest-numbered idle read generator, which makes its first accesses in this clk (R286, R296,
R320). -/
def startRead (op : Nat) (s : State) : State :=
  match headFor s 4 op, idleGen s.mov.rg with
  | some e, some n =>
    let t := dequeue 4 s
    if genOk s e then fetchGen n (setRg n (some (Gen.begin e)) t) else descBound 4 e t
  | _, _ => s

/-- WR and WRM start on the lowest-numbered idle write generator (R286, R320). -/
def startWrite (op : Nat) (s : State) : State :=
  match headFor s 4 op, idleGen s.mov.wg with
  | some e, some n =>
    let t := dequeue 4 s
    if genOk s e then setWg n (some (Gen.begin e)) t else descBound 4 e t
  | _, _ => s

/-- Positions of a ZERO from p on, at most n of them, whose rows need no more than the accesses left: the elements to write
and the next position (R295, R296). -/
def zeroSpan (k : Walk) : Nat → Nat → Option Nat → Nat → List (Nat × Nat × Nat) × Nat
  | 0, p, _, _ => ([], p)
  | n + 1, p, row, left =>
    if p ≥ walkSize k then ([], p)
    else
      let idx := walkIdx k.ext p
      if walkClipped k idx then zeroSpan k n (p + 1) row left
      else
        let b := walkBit k idx
        let need := (bitRows b k.w).filter fun r => some r != row
        if need.length > left then ([], p)
        else
          let (l, q) := zeroSpan k n (p + 1) (some ((b + k.w - 1) / 256)) (left - need.length)
          ((b, k.w, 0) :: l, q)

/-- One clk of writes of a ZERO on write generator n; the last one completes it (R286, R295, R296). -/
def zeroStep (n : Nat) (s : State) : State :=
  match s.mov.wg.getD n none with
  | some g =>
    let k := (genStream g.e).k
    let (els, p) := zeroSpan k 4096 g.line none (2 * genRate s)
    let (t, bad) := writeElems els s
    let t := movUe g.e 6 bad t
    if p ≥ walkSize k then complete g.e.id (setWg n none t) else setWg n (some { g with line := p }) t
  | none => s

/-- ZERO starts and makes its first writes (R286, R295, R296). -/
def execZero (s : State) : Host.Outcome State Fault Refusal :=
  match headFor s 4 5, idleGen s.mov.wg with
  | some e, some n =>
    let t := dequeue 4 s
    if genOk s e then .next (zeroStep n (setWg n (some (Gen.begin e)) t))
    else .next (descBound 4 e t)
  | _, _ => .next s

/-- RD (R290, R291). -/
def execRd (s : State) : Host.Outcome State Fault Refusal := .next (startRead 1 s)
/-- WR (R290, R291). -/
def execWr (s : State) : Host.Outcome State Fault Refusal := .next (startWrite 2 s)
/-- RDM (R294). -/
def execRdm (s : State) : Host.Outcome State Fault Refusal := .next (startRead 3 s)
/-- WRM (R294). -/
def execWrm (s : State) : Host.Outcome State Fault Refusal := .next (startWrite 4 s)

/-- The generator may move one more line in this clk (R296). -/
def genMay (s : State) (g : Gen) : Bool := engOk s 4 && (g.clk != s.clock.ek || decide (g.count < genRate s))

/-- One line moved by a generator in this clk. -/
def Gen.moved (g : Gen) (c : Nat) : Gen := { g with line := g.line + 1, clk := c, count := if g.clk = c then g.count + 1 else 1 }

/-- No earlier instruction still pushes to, or pops, channel c: instructions of one channel end take turns in queue order
(R100, R104; log 30). -/
def endFree (gs : List (Option Gen)) (c : Entry → Bool) (left : Gen → Bool) (e : Entry) : Bool :=
  !gs.any fun g => match g with
    | some x => decide (x.e.id < e.id) && c x.e && left x
    | none => false

/-- GENERATOR_LINE_PUSH: read generator g pushes its next line in the clk after its data have returned, while the channel has
room; its last line frees it (R286, R296, R330). -/
def execGeneratorLinePush (g : BitVec 4) (s : State) : Host.Outcome State Fault Refusal :=
  match s.mov.rg.getD g.toNat none with
  | some r =>
    match r.buf with
    | (due, v) :: rest =>
      if genMay s r && decide (due ≤ s.clock.ek) && decide (chRoom s r.e.chOut ≥ 1) &&
          endFree s.mov.rg (fun x => x.chOut == r.e.chOut) (fun _ => true) r.e then
        let t := chPush r.e.chOut (plainLines [v]) s
        if r.line + 1 ≥ genLines (genStream r.e) then .next (complete r.e.id (setRg g.toNat none t))
        else .next (setRg g.toNat (some { r.moved s.clock.ek with buf := rest }) t)
      else .next s
    | [] => .next s
  | none => .next s

/-- GENERATOR_LINE_POP: write generator g pops its next line, whose bytes land 3 clk later (R296). -/
def execGeneratorLinePop (g : BitVec 3) (s : State) : Host.Outcome State Fault Refusal :=
  match s.mov.wg.getD g.toNat none with
  | some r =>
    if genMay s r && r.e.op != 5 && decide (r.line < genLines (genStream r.e)) &&
        endFree s.mov.wg (fun x => x.op != 5 && x.chX == r.e.chX) (fun x => decide (x.line < genLines (genStream x.e))) r.e then
      match chTake r.e.chX 6 1 s with
      | some (ls, t) =>
        .next (setWg g.toNat (some { r.moved s.clock.ek with
          land := r.land ++ [(s.clock.ek + 3, r.line, (ls.map (·.data)).headD 0)] }) t)
      | none => .next s
    else .next s
  | none => .next s

/-- The lines of a write generator that land in this clk, in order (R296, R297). -/
def landLines (g : Gen) : List (Nat × Nat × Nat) → State → State
  | [], s => s
  | (_, l, v) :: rest, s =>
    let (t, bad) := writeLine (genStream g.e) l v s
    landLines g rest (movUe g.e 6 bad t)

/-- One clk of write generator n: bytes land; the last byte completes it (R286, R296, R330). -/
def landGen (n : Nat) (s : State) : State :=
  match s.mov.wg.getD n none with
  | some g =>
    if !engOk s 4 then s
    else if g.e.op = 5 then zeroStep n s
    else
      let now := g.land.takeWhile fun x => decide (x.1 ≤ s.clock.ek)
      let t := landLines g now s
      let rest := g.land.drop now.length
      if rest.isEmpty && decide (g.line ≥ genLines (genStream g.e)) then complete g.e.id (setWg n none t)
      else setWg n (some { g with land := rest }) t
  | none => s

/-- One clk of every write generator, in ascending number (R280); part of the tick. -/
def wgTick (s : State) : State := (List.range 8).foldl (fun t n => landGen n t) s

/-! ## Transposing buffers, inline (R298 to R301) -/

/-- A transposing buffer. -/
def getTb (s : State) (b : Nat) : Option Tin := if b = 0 then s.mov.tb0 else s.mov.tb1

/-- The permuting copy of a transposing buffer. -/
def getCopy (s : State) (b : Nat) : Option TileCopy := if b = 0 then s.mov.cp0 else s.mov.cp1

/-- A permuting copy replaced. -/
def setCopy (b : Nat) (t : Option TileCopy) (s : State) : State :=
  if b = 0 then { s with mov := { s.mov with cp0 := t } } else { s with mov := { s.mov with cp1 := t } }

/-- Transposing buffer b performs an operation (R298). -/
def tbBusy (s : State) (b : Nat) : Bool := (getTb s b).isSome || (getCopy s b).isSome

/-- A transposing buffer replaced. -/
def setTb (b : Nat) (t : Option Tin) (s : State) : State :=
  if b = 0 then { s with mov := { s.mov with tb0 := t } } else { s with mov := { s.mov with tb1 := t } }

/-- H of a TIN descriptor (R300). -/
def tinH (e : Entry) : Nat := e.d.fld 0 18 18 + 1
/-- NUNIT (R300). -/
def tinUnits (e : Entry) : Nat := e.d.fld 1 24 0
/-- Element bits of a TIN. -/
def tinBits (e : Entry) : Nat := fmtBits (e.d.fld 0 22 19)
/-- Scale lines of a unit (R299). -/
def tinScaleLines (e : Entry) : Nat := blockScaleLines (8 * fmtScaleBytes (e.d.fld 0 22 19)) (tinH e)
/-- Lines of a unit (R299). -/
def tinUnitLines (e : Entry) : Nat := tinScaleLines e + groupLines (tinBits e) (32 * tinH e)

/-- TIN starts on buffer b if it is idle (R298). -/
def startTin (b : Nat) (s : State) : State :=
  match headFor s 4 (0x10 + b) with
  | some e =>
    if tbBusy s b then s
    else
      let t := dequeue 4 s
      if 1 ≤ tinUnits e ∧ tinUnits e ≤ 2 ^ 24 then setTb b (some ⟨e, 0, [], [], 0, [], 0, 0⟩) t else descBound 4 e t
  | none => s

/-- TIN0 (R299). -/
def execTin0 (s : State) : Host.Outcome State Fault Refusal := .next (startTin 0 s)
/-- TIN1 (R299). -/
def execTin1 (s : State) : Host.Outcome State Fault Refusal := .next (startTin 1 s)

/-- Lines of groups that TIN accepts, and emits, in a clk: at most 8 groups and 256 bytes (R301). -/
def tinRate (e : Entry) : Nat := if tinBits e = 4 then 2 else 4

/-- Lines that TIN accepts in a clk, scale lines not counted (R301). -/
def tinAccept (e : Entry) (have_ : Nat) : Nat :=
  min ((tinScaleLines e - have_) + tinRate e) (tinUnitLines e - have_)

/-- Units held, the one being emitted among them (R298, R301). -/
def Tin.full (t : Tin) : Bool := decide (t.held.length + (if t.outq.isEmpty then 0 else 1) ≥ 2)

/-- One clk of a buffer's acceptance (R301); part of the tick, since the table has no row for it (log 2). -/
def tinTick (b : Nat) (s : State) : State :=
  match getTb s b with
  | some t =>
    let e := t.e
    if !engOk s 4 || t.full || decide (t.units ≥ tinUnits e) then s
    else
      let n := min (tinAccept e t.lines.length) (chAvail s e.chX (7 + b))
      match chTake e.chX (7 + b) n s with
      | some (ls, s) =>
        let lines := t.lines ++ ls.map (·.data)
        if lines.length ≥ tinUnitLines e then
          setTb b (some { t with lines := [], units := t.units + 1, held := t.held ++ [(lines, s.clock.ek)] }) s
        else setTb b (some { t with lines := lines }) s
      | none => s
  | none => s

/-- Element i of group q among group lines. -/
def groupElem (w : Nat) (lines : List Nat) (q i : Nat) : Nat :=
  if w = 32 then packedElem 32 (lines.getD (2 * q + i / 16) 0) (i % 16)
  else
    let g := if w = 16 then 1 else if w = 4 then 4 else 2
    packedElem w (lines.getD (q / g) 0) (32 * (q % g) + i)

/-- A unit turned: scale lines unchanged, element i of output group (k, h) is element k of input group 32h + i (R299). -/
def turnUnit (e : Entry) (lines : List Nat) : List Nat :=
  let w := tinBits e
  let h := tinH e
  let sl := tinScaleLines e
  let src := lines.drop sl
  let groups := (List.range (32 * h)).map fun q =>
    packElems w ((List.range 32).map fun i => groupElem w src (32 * (q % h) + i) (q / h))
  let g := if w = 16 then 1 else if w = 4 then 4 else 2
  let out :=
    if w = 32 then groups.flatMap fun v => [v % 2 ^ 512, v >>> 512]
    else (List.range (32 * h / g)).map fun l => packElems (32 * w) ((groups.drop (g * l)).take g)
  lines.take sl ++ out

/-- TIN_UNIT_EMIT: a unit accepted in an earlier clk is turned, and its lines are pushed at the rate of R301 as the channel has
room; scale lines take no part of the rate. -/
def execTinUnitEmit (b : BitVec 1) (s : State) : Host.Outcome State Fault Refusal :=
  let n := b.toNat
  match getTb s n with
  | some t =>
    if !engOk s 4 then .next s
    else
      let t := match t.outq, t.held with
        | [], (ls, c) :: rest =>
          if c < s.clock.ek then { t with outq := turnUnit t.e ls, held := rest, emitted := t.emitted + 1 } else t
        | _, _ => t
      let now := if t.outClk = s.clock.ek then t.outN else 0
      let scales := t.outq.length - groupLines (tinBits t.e) (32 * tinH t.e)
      let k := min (scales + (tinRate t.e - now)) (min (chRoom s t.e.chOut) t.outq.length)
      let s := chPush t.e.chOut (plainLines (t.outq.take k)) s
      let t := { t with outq := t.outq.drop k, outClk := s.clock.ek, outN := now + (k - scales) }
      if t.outq.isEmpty && decide (t.emitted ≥ tinUnits t.e) then .next (complete t.e.id (setTb n none s))
      else .next (setTb n (some t) s)
  | none => .next s

/-! ## Permuting copies (R302 to R305) -/

/-- The walk of a copy descriptor. -/
def copyWalk (d : W8) : Walk := { walkOf d (fmtBits (d.fld 0 22 19)) with group := false }

/-- The start checks of one walk of a copy (R302, R303, R320). -/
def copyOk (s : State) (d : W8) : Bool :=
  let k := copyWalk d
  walkAligned k (d.fld 0 1 0) (packUnit k.w) && walkInArea s (d.fld 0 18 16) k && k.ext.getD 0 1 == 32 && k.ext.getD 1 1 == 32 &&
    k.cut0 == 0 && k.cut1 == 0

/-- The elements of tile (i2, i3, i4, i5) of a walk in walk order: position (i0, i1) at 32·i1 + i0. -/
def tileBits (k : Walk) (hi : List Nat) : List (Nat × Nat) :=
  (List.range 1024).map fun p => (walkBit k ([p % 32, p / 32] ++ hi), k.w)

/-- Codes written to a tile with i0 and i1 exchanged (R302). -/
def tileWrites (k : Walk) (hi : List Nat) (codes : List Nat) : List (Nat × Nat × Nat) :=
  codes.mapIdx fun p c => (walkBit k ([p / 32, p % 32] ++ hi), k.w, c)

/-- The tiles of a walk in walk order: indices i2 to i5. -/
def tilesOf (ext : List Nat) : List (List Nat) :=
  (List.range ((ext.drop 2).foldl (· * ·) 1)).map (walkIdx (ext.drop 2))

/-- The tile pairs of TPCI in order: i4 and i5 outer, (i2, i3) with i2 ≤ i3 ascending (R303). -/
def tilePairs (ext : List Nat) : List (List Nat × List Nat) :=
  let n := ext.getD 2 1
  (List.range (ext.getD 4 1 * ext.getD 5 1)).flatMap fun p =>
    let up := [p % max 1 (ext.getD 4 1), p / max 1 (ext.getD 4 1)]
    (List.range n).flatMap fun i => (List.range (n - i)).map fun j => ([i, i + j] ++ up, [i + j, i] ++ up)

/-- The destination walk of a copy: of TPCI its one walk. -/
def copyDest (e : Entry) : Walk := copyWalk (if e.op = 0x12 ∨ e.op = 0x13 then e.d1 else e.d)

/-- What a copy moves, in order: a tile, or a pair of tiles (R302, R303). -/
def copyUnits (e : Entry) : List (List Nat × List Nat) :=
  let ext := (copyWalk e.d).ext
  if e.op = 0x12 ∨ e.op = 0x13 then (tilesOf ext).map fun t => (t, t) else tilePairs ext

/-- The elements that a unit reads: a tile, or the two tiles of a pair. -/
def unitReads (e : Entry) (u : List Nat × List Nat) : List (Nat × Nat) :=
  let k := copyWalk e.d
  tileBits k u.1 ++ (if u.1 = u.2 then [] else tileBits k u.2)

/-- The elements that a unit writes, from the codes it has read: the first tile of a pair goes to the place of the second and the
second to that of the first, both with i0 and i1 exchanged. -/
def unitWrites (e : Entry) (u : List Nat × List Nat) (codes : List Nat) : List (Nat × Nat × Nat) :=
  let k := copyDest e
  tileWrites k u.2 (codes.take 1024) ++ (if u.1 = u.2 then [] else tileWrites k u.1 (codes.drop 1024))

/-- One clk of a copy on unit u: elements read while some are left to read, else elements written, in 8 row accesses (R303, R305;
log 42). The first word that could not be read or written. -/
def copyUnitClk (c : TileCopy) (u : List Nat × List Nat) (s : State) : TileCopy × State × Option Nat :=
  let rest := (unitReads c.e u).drop c.got.length
  if !rest.isEmpty then
    let (s, codes, bad) := readElems (rest.take (rowSpan rest [] 8)) s
    ({ c with got := c.got ++ codes }, s, bad)
  else
    let ws := (unitWrites c.e u c.got).drop c.put
    let n := rowSpan (ws.map fun x => (x.1, x.2.1)) [] 8
    let (s, bad) := writeElems (ws.take n) s
    (if ws.length ≤ n then { c with left := c.left.tail, got := [], put := 0 } else { c with put := c.put + n }, s, bad)

/-- One clk of the copy of buffer b; its last byte completes it (R298, R330). Part of the tick, since the table has no row for
it (log 2). -/
def copyTick (b : Nat) (s : State) : State :=
  match getCopy s b with
  | some c =>
    if !engOk s 4 then s
    else
      match c.left with
      | [] => complete c.e.id (setCopy b none s)
      | u :: _ =>
        match copyUnitClk c u s with
        | (_, t, some x) => poolUe 4 c.e x (7 + b) t
        | (d, t, none) => if d.left.isEmpty then complete c.e.id (setCopy b none t) else setCopy b (some d) t
  | none => s

/-- TPC on buffer b begins its copy (R302, R304). -/
def startTpc (b : Nat) (s : State) : State :=
  match headFor s 4 (0x12 + b) with
  | some e =>
    if tbBusy s b then s
    else
      let t := dequeue 4 s
      let src := copyWalk e.d
      let dst := copyWalk e.d1
      if !(copyOk s e.d && copyOk s e.d1 && src.ext == dst.ext) then descBound 4 e t
      else
        let a := walkRange src
        let c := walkRange dst
        if a.1 ≤ c.2 ∧ c.1 ≤ a.2 then raiseInst 0x08 4 e t
        else setCopy b (some ⟨e, copyUnits e, [], 0⟩) t
  | none => s

/-- TPCI on buffer b begins its copy (R303). -/
def startTpci (b : Nat) (s : State) : State :=
  match headFor s 4 (0x14 + b) with
  | some e =>
    if tbBusy s b then s
    else
      let t := dequeue 4 s
      let k := copyWalk e.d
      if !(copyOk s e.d && k.ext.getD 2 1 == k.ext.getD 3 1) then descBound 4 e t
      else setCopy b (some ⟨e, copyUnits e, [], 0⟩) t
  | none => s

/-- TPC0 (R302). -/
def execTpc0 (s : State) : Host.Outcome State Fault Refusal := .next (startTpc 0 s)
/-- TPC1 (R302). -/
def execTpc1 (s : State) : Host.Outcome State Fault Refusal := .next (startTpc 1 s)
/-- TPCI0 (R303). -/
def execTpci0 (s : State) : Host.Outcome State Fault Refusal := .next (startTpci 0 s)
/-- TPCI1 (R303). -/
def execTpci1 (s : State) : Host.Outcome State Fault Refusal := .next (startTpci 1 s)

end Sys2Proof.Machine
end

