-- ==== Sys2Proof/Machine/Scl.lean ====
section
/-! DEFINITION. The SCL engine (03_program R118 to R126, R489): starts, results and their landing. -/

namespace Sys2Proof.Machine

/-! ## Fields (R121) -/

/-- SD or S. -/
def sclD (e : Entry) : Nat := wfld e.w 25 20
/-- SA, or SLOT of the TRK form. -/
def sclA (e : Entry) : Nat := wfld e.w 19 14
/-- SB, or CH of the CHAN form. -/
def sclB (e : Entry) : Nat := wfld e.w 13 8
/-- IMM14, zero-extended. -/
def sclImm (e : Entry) : Word := word (wfld e.w 13 0)
/-- IMM14, sign-extended. -/
def sclImmS (e : Entry) : Int := sext 14 (wfld e.w 13 0)

/-- sat32 (R82, R123). -/
def sat32 (x : Int) : Word := BitVec.ofInt 32 (satInt 32 x)

/-! ## Starts (R100, R122, R123) -/

/-- An SCL result has yet to land in S register n; S0 always holds its value. -/
def sregBusy (s : State) (n : Nat) : Bool :=
  n != 0 && s.scl.fly.any fun f => sclTarget f.e.w == some (.inl n)

/-- A result in flight is a division's. -/
def divBusy (s : State) : Bool := s.scl.fly.any fun f => f.e.op == 0x1A || f.e.op == 0x1B

/-- The head of the SCL queue, if opcode op may start in this clk: every register it reads holds its result (R123). -/
def sclHead (s : State) (op : Nat) (reads : Entry → List Nat) : Option Entry :=
  match headFor s 6 op with
  | some e => if (reads e).any (sregBusy s) then none else some e
  | none => none

/-- A result in flight lands lat clk later. -/
def sclFly (e : Entry) (lat : Nat) (r : SclRes) (s : State) : State :=
  { s with scl := { s.scl with fly := s.scl.fly ++ [⟨e, s.clock.ek + lat, r⟩] } }

/-- An instruction that reads registers and writes SD lat clk later. -/
def sclOp (op lat : Nat) (reads : Entry → List Nat) (val : State → Entry → Word) (s : State) : State :=
  match sclHead s op reads with
  | some e => sclFly e lat (.reg (sclD e) (val s e)) (dequeue 6 s)
  | none => s

/-- A REG form on the values of SA and SB. -/
def sclReg (op lat : Nat) (f : Word → Word → Word) (s : State) : State :=
  sclOp op lat (fun e => [sclA e, sclB e]) (fun t e => f (sreg t (sclA e)) (sreg t (sclB e))) s

/-- An IMM form on the value of SA and the instruction. -/
def sclImmOp (op : Nat) (f : Word → Entry → Word) (s : State) : State :=
  sclOp op 1 (fun e => [sclA e]) (fun t e => f (sreg t (sclA e)) e) s

/-- 1 or 0 as a word. -/
def boolWord (b : Bool) : Word := word (b2n b)

/-- ADD (R122, R123). -/
def execSclAdd (s : State) : Host.Outcome State Fault Refusal :=
  .next (sclReg 1 1 (fun a b => sat32 (a.toInt + b.toInt)) s)
/-- SUB (R122, R123). -/
def execSclSub (s : State) : Host.Outcome State Fault Refusal :=
  .next (sclReg 2 1 (fun a b => sat32 (a.toInt - b.toInt)) s)
/-- MUL (R122, R123). -/
def execSclMul (s : State) : Host.Outcome State Fault Refusal :=
  .next (sclReg 3 3 (fun a b => sat32 (a.toInt * b.toInt)) s)
/-- AND (R122). -/
def execSclAnd (s : State) : Host.Outcome State Fault Refusal := .next (sclReg 4 1 (fun a b => a &&& b) s)
/-- OR (R122). -/
def execSclOr (s : State) : Host.Outcome State Fault Refusal := .next (sclReg 5 1 (fun a b => a ||| b) s)
/-- XOR (R122). -/
def execSclXor (s : State) : Host.Outcome State Fault Refusal := .next (sclReg 6 1 (fun a b => a ^^^ b) s)
/-- SHL (R122). -/
def execShl (s : State) : Host.Outcome State Fault Refusal := .next (sclReg 7 1 (fun a b => a <<< wfld b 4 0) s)
/-- SHR (R122). -/
def execShr (s : State) : Host.Outcome State Fault Refusal := .next (sclReg 8 1 (fun a b => a >>> wfld b 4 0) s)
/-- SRA (R122). -/
def execSra (s : State) : Host.Outcome State Fault Refusal := .next (sclReg 9 1 (fun a b => a.sshiftRight (wfld b 4 0)) s)
/-- MIN (R122). -/
def execSclMin (s : State) : Host.Outcome State Fault Refusal :=
  .next (sclReg 0x0A 1 (fun a b => if a.toInt ≤ b.toInt then a else b) s)
/-- MAX (R122). -/
def execSclMax (s : State) : Host.Outcome State Fault Refusal :=
  .next (sclReg 0x0B 1 (fun a b => if a.toInt ≤ b.toInt then b else a) s)
/-- MINU (R122). -/
def execMinu (s : State) : Host.Outcome State Fault Refusal :=
  .next (sclReg 0x0C 1 (fun a b => if a.toNat ≤ b.toNat then a else b) s)
/-- MAXU (R122). -/
def execMaxu (s : State) : Host.Outcome State Fault Refusal :=
  .next (sclReg 0x0D 1 (fun a b => if a.toNat ≤ b.toNat then b else a) s)
/-- SLT (R122). -/
def execSlt (s : State) : Host.Outcome State Fault Refusal :=
  .next (sclReg 0x0E 1 (fun a b => boolWord (decide (a.toInt < b.toInt))) s)
/-- SLTU (R122). -/
def execSltu (s : State) : Host.Outcome State Fault Refusal :=
  .next (sclReg 0x0F 1 (fun a b => boolWord (decide (a.toNat < b.toNat))) s)
/-- ADDI (R121, R122). -/
def execAddi (s : State) : Host.Outcome State Fault Refusal :=
  .next (sclImmOp 0x10 (fun a e => sat32 (a.toInt + sclImmS e)) s)
/-- ANDI (R121, R122). -/
def execAndi (s : State) : Host.Outcome State Fault Refusal := .next (sclImmOp 0x11 (fun a e => a &&& sclImm e) s)
/-- ORI (R121, R122). -/
def execOri (s : State) : Host.Outcome State Fault Refusal := .next (sclImmOp 0x12 (fun a e => a ||| sclImm e) s)
/-- XORI (R121, R122). -/
def execXori (s : State) : Host.Outcome State Fault Refusal := .next (sclImmOp 0x13 (fun a e => a ^^^ sclImm e) s)
/-- SHLI (R122). -/
def execShli (s : State) : Host.Outcome State Fault Refusal := .next (sclImmOp 0x14 (fun a e => a <<< wfld e.w 4 0) s)
/-- SHRI (R122). -/
def execShri (s : State) : Host.Outcome State Fault Refusal := .next (sclImmOp 0x15 (fun a e => a >>> wfld e.w 4 0) s)
/-- SRAI (R122). -/
def execSrai (s : State) : Host.Outcome State Fault Refusal :=
  .next (sclImmOp 0x16 (fun a e => a.sshiftRight (wfld e.w 4 0)) s)

/-- CMOV: SD takes SB where SA is not 0 (R122). -/
def execCmov (s : State) : Host.Outcome State Fault Refusal :=
  match sclHead s 0x17 (fun e => [sclA e, sclB e]) with
  | some e =>
    let r := if sreg s (sclA e) = 0 then SclRes.none else .reg (sclD e) (sreg s (sclB e))
    .next (sclFly e 1 r (dequeue 6 s))
  | none => .next s

/-- LI: the sign-extended IMM20 (R122). -/
def execLi (s : State) : Host.Outcome State Fault Refusal :=
  .next (sclOp 0x18 1 (fun _ => []) (fun _ e => BitVec.ofInt 32 (sext 20 (wfld e.w 19 0))) s)
/-- LUI: IMM20 shifted up by 12 (R122). -/
def execLui (s : State) : Host.Outcome State Fault Refusal :=
  .next (sclOp 0x19 1 (fun _ => []) (fun _ e => word (wfld e.w 19 0 <<< 12)) s)

/-- A division starts once the one before it has completed (R123). -/
def sclDiv (op : Nat) (f : Nat → Nat → Word) (s : State) : State :=
  if divBusy s then s else sclReg op 34 (fun a b => f a.toNat b.toNat) s

/-- DIVU (R122). -/
def execDivu (s : State) : Host.Outcome State Fault Refusal :=
  .next (sclDiv 0x1A (fun a b => if b = 0 then 0xFFFFFFFF else word (a / b)) s)
/-- REMU (R122). -/
def execRemu (s : State) : Host.Outcome State Fault Refusal :=
  .next (sclDiv 0x1B (fun a b => if b = 0 then word a else word (a % b)) s)

/-! ## Descriptors, channels, trackers (R122, R124 to R126) -/

/-- What a landed result writes. -/
def landRes (r : SclRes) (s : State) : State :=
  match r with
  | .reg n v => setSreg n v s
  | .desc cls n wd v => descSet cls n ((descGet s cls n).set wd v) s
  | .scaleCfg sl sel v => scaleEvent sl (.cfg sel v) s
  | .scaleCommit sl => scaleEvent sl .commit s
  | .none => s

/-- The state after every SCL result in flight: what DRD and TRD read (R124; log 19). -/
def afterFly (s : State) : State := s.scl.fly.foldl (fun t f => landRes f.res t) s

/-- DRD: its read can meet an uncorrectable error (R112, R122, R124). -/
def execDrd (s : State) : Host.Outcome State Fault Refusal :=
  match sclHead s 0x20 (fun _ => []) with
  | some e =>
    let cls := wfld e.w 19 17
    let n := wfld e.w 7 2
    match descReads [(cls, n)] s with
    | (u, true) => .next (sclFly e 2 (.reg (sclD e) ((descGet (afterFly u) cls n).get (wfld e.w 16 14))) (dequeue 6 u))
    | (u, false) => .next u
  | none => .next s

/-- DWR (R122, R124). -/
def execDwr (s : State) : Host.Outcome State Fault Refusal :=
  match sclHead s 0x21 (fun e => [sclD e]) with
  | some e => .next (sclFly e 2 (.desc (wfld e.w 19 17) (wfld e.w 7 2) (wfld e.w 16 14) (sreg s (sclD e))) (dequeue 6 s))
  | none => .next s

/-- CPOP: the next count of CH, which it pops in its start clk (R122, R125). -/
def execCpop (s : State) : Host.Outcome State Fault Refusal :=
  match headFor s 6 0x28 with
  | some e =>
    match chTake (sclB e) 13 1 s with
    | some (ls, t) => .next (sclFly e 2 (.reg (sclD e) (word ((ls.map (·.data)).headD 0))) (dequeue 6 t))
    | none => .next s
  | none => .next s

/-- CPUSH: S pushed as a count in the start clk (R122, R125). -/
def execCpush (s : State) : Host.Outcome State Fault Refusal :=
  match sclHead s 0x29 (fun e => [sclD e]) with
  | some e =>
    if chRoom s (sclB e) ≥ 1 then
      .next (sclFly e 1 .none (dequeue 6 (chPush (sclB e) [((sreg s (sclD e)).toNat, false, false)] s)))
    else .next s
  | none => .next s

/-- A tracker operation on slot sl lands no earlier than those before it on that slot (R87; log 19). -/
def trkLat (s : State) (sl lat : Nat) : Nat :=
  s.scl.fly.foldl (fun m f => match f.res with
    | .scaleCfg n _ _ => if n = sl then max m (f.due - s.clock.ek) else m
    | .scaleCommit n => if n = sl then max m (f.due - s.clock.ek) else m
    | _ => m) lat

/-- The S value of a TCFG is one that the record accepts (R126). -/
def tcfgOk (sel : Nat) (v : Word) : Bool :=
  match sel with
  | 0 => decide (wfld v 12 9 ≤ 11)
  | 1 => wfld v 7 0 != 0x80
  | _ => !wbit v 31 && wfld v 30 23 != 0xFF

/-- TCFG (R126). -/
def execTcfg (s : State) : Host.Outcome State Fault Refusal :=
  match sclHead s 0x30 (fun e => [sclD e]) with
  | some e =>
    let v := sreg s (sclD e)
    let sel := wfld e.w 13 12
    let sl := sclA e
    if tcfgOk sel v then .next (sclFly e (trkLat s sl 2) (.scaleCfg sl sel v) (dequeue 6 s))
    else .next (raise 0x09 (FaultCtx.ofEntry 6 e sl v.toNat) (dequeue 6 s))
  | none => .next s

/-- TCOMMIT (R85, R122). -/
def execTcommit (s : State) : Host.Outcome State Fault Refusal :=
  match headFor s 6 0x31 with
  | some e => .next (sclFly e (trkLat s (sclA e) 4) (.scaleCommit (sclA e)) (dequeue 6 s))
  | none => .next s

/-- TRD (R83, R122). -/
def execTrd (s : State) : Host.Outcome State Fault Refusal :=
  .next (sclOp 0x32 2 (fun _ => []) (fun t e => (scaleGet (afterFly t) (sclA e)).word (wfld e.w 13 9)) s)

/-- JREAD: JOB_ID or JOB_NRANKS (R122). -/
def execJread (s : State) : Host.Outcome State Fault Refusal :=
  .next (sclOp 0x38 1 (fun _ => [])
    (fun t e => if wfld e.w 13 0 = 0 then word t.job.id.toNat else word t.job.nranks) s)

/-! ## Landing (R122, R330, R489) -/

/-- The result in flight with the earliest due clk. -/
def nextLanding : List SclFly → Option SclFly
  | [] => none
  | f :: t =>
    match nextLanding t with
    | some g => if f.due ≤ g.due then some f else some g
    | none => some f

/-- The descriptor of which a result writes one word, and so reads the rest (R112). -/
def resDescs : SclRes → List (Nat × Nat)
  | .desc cls n _ _ => [(cls, n)]
  | _ => []

/-- SCL_COMPLETE: a result whose latency has passed lands, the earliest first (R122, R330). -/
def execSclComplete (s : State) : Host.Outcome State Fault Refusal :=
  match nextLanding s.scl.fly with
  | some f =>
    if engOk s 6 && decide (f.due ≤ s.clock.ek) then
      match descReads (resDescs f.res) { s with scl := { s.scl with fly := s.scl.fly.erase f } } with
      | (u, true) => .next (complete f.e.id (landRes f.res u))
      | (u, false) => .next u
    else .next s
  | none => .next s

end Sys2Proof.Machine
end

