-- ==== Sys2Proof/Machine/Vector.lean ====
section
/-! DEFINITION. The vector engine (07_vector R217 to R253): starts with their checks, the flow of a chain, its steps and its
pushes. -/

namespace Sys2Proof.Machine

/-! ## Fields (R224, R225) -/

/-- Format and source of operand 0 X, 1 Y, 2 Z. -/
def Entry.vFmt (e : Entry) (o : Nat) : Nat := if o = 0 then e.d.fld 0 22 19 else if o = 1 then e.d.fld 0 18 15 else e.d.fld 0 14 11
/-- SRC of an operand (R219). -/
def Entry.vSrc (e : Entry) (o : Nat) : Nat := if o = 0 then e.d.fld 0 10 8 else if o = 1 then e.d.fld 0 7 5 else e.d.fld 0 4 2
/-- Channel or link queue of an operand. -/
def Entry.vCh (e : Entry) (o : Nat) : Nat := if o = 0 then e.chX else if o = 1 then e.chY else e.d.fld 2 9 4
/-- The opcode uses an operand as an element operand (R228). -/
def Entry.vUses (e : Entry) (o : Nat) : Bool :=
  if o = 0 then vecUsesX e.op else if o = 1 then vecUsesY e.op (e.d.fld 0 1 0) else vecUsesZ e.op
/-- ROWLEN (R225). -/
def Entry.rowLen (e : Entry) : Nat := e.d.fld 2 31 16 + 1
/-- LEN (R225). -/
def Entry.vLen (e : Entry) : Nat := e.d.fld 1 24 0
/-- OPT (R225). -/
def Entry.opt (e : Entry) : Nat := e.d.fld 3 7 0
/-- MPOL 0b01: pass X (R224). -/
def Entry.passX (e : Entry) : Bool := e.d.fld 0 1 0 == 1
/-- First element of the cache operand, counted in elements of w bits (R219). -/
def Entry.oce (e : Entry) (w : Nat) : Nat := e.d.fld 3 19 9 * 512 / w
/-- Group size of PERM and SHUF, else 1 (R240, R241). -/
def Entry.group (e : Entry) : Nat :=
  if e.op = 0x19 ∨ (e.op = 0x1A ∧ (e.opt / 16 = 0 ∨ e.opt / 16 = 1)) then 2 ^ (e.opt % 8 + 1) else 1

/-- Element format of the result (R226, R229). -/
def Entry.vRes (e : Entry) : Nat := vecResFmt e.op e.d
/-- The instruction produces a mask. -/
def Entry.vMask (e : Entry) : Bool := vecMakesMask e.op e.opt

/-- Latency P of an opcode (R228). -/
def vecLatency (op : Nat) : Nat :=
  if op ≥ 0x2B then 10
  else if op = 0x19 ∨ op = 0x1A ∨ op = 0x1B ∨ op = 0x1C ∨ op = 0x1D ∨ op = 0x28 ∨ op = 0x29 ∨ op = 0x2A then 8
  else 6

/-- Element widths that count toward wmax (R218). -/
def countedWidths (e : Entry) : List Nat :=
  let ops := [0, 1, 2].filterMap fun o => if e.vUses o && e.vSrc o == 0 then some (fmtBits (e.vFmt o)) else none
  if e.vMask || e.op == 0x2A then ops else ops ++ [fmtBits e.vRes]

/-- V of R218 over a whole chain, raised to the largest group of its members (log 81). -/
def stepElems (s : State) (es : List Entry) : Nat :=
  let wmax := (es.flatMap countedWidths).foldl max 8
  es.foldl (fun v e => max v e.group) (lanesOn s * 32 / wmax)

/-! ## Start (R221, R236, R250, R252) -/

/-- A range of cache elements 0 to n − 1 from OC_BASE lies in lines that exist and are powered (R221). -/
def cacheOk (s : State) (e : Entry) (w n : Nat) : Bool :=
  let first := e.d.fld 3 19 9
  let last := ((e.oce w + n) * w - 1) / 512
  let q := ocLines s / 4
  decide (last < ocLines s) && (List.range 4).all fun g => decide (last < g * q) || decide (first ≥ (g + 1) * q) || pdOn s (113 + g)

/-- The start checks of R252 with length L; with LSRC = 1 also with LEN in its place (R236). -/
def vecStartOk (s : State) (e : Entry) (len : Nat) : Bool :=
  let n := e.vLen
  let r := e.rowLen
  let both (k : Nat) : Bool := len % k == 0 && n % k == 0
  let block := (e.vUses 0 && e.vSrc 0 ≤ 1 && fmtBlock (e.vFmt 0)) ||
    (!e.vMask && e.op != 0x2A && e.op != 0x20 && fmtBlock e.vRes)
  decide (1 ≤ n) && decide (n ≤ 2 ^ 24) &&
    (!block || (r % 32 == 0 && decide (r ≤ 4096) && both 32)) &&
    both e.group &&
    ([0, 1, 2].all fun o => !e.vUses o ||
      (if e.vSrc o == 3 then cacheOk s e (fmtBits (e.vFmt o)) (min n r)
       else if e.vSrc o == 4 then cacheOk s e (fmtBits (e.vFmt o)) ((n - 1) / r + 1)
       else true)) &&
    (e.op != 0x20 || cacheOk s e (fmtBits e.vRes) n)

/-- The chain at the head of the queue has issued its closing member in an earlier clk (R250). -/
def chainIssued (s : State) : Bool :=
  match s.q.vec.find? fun x => !x.b0 with
  | some c => decide (c.clk < s.clock.clk)
  | none => false

/-- A started member enters the chain that waits for its flow, or faults at its start checks. -/
def startMember (e : Entry) (len : Nat) (s : State) : State :=
  let s := dequeue 2 s
  if len > e.vLen || !vecStartOk s e len then descBound 2 e s
  else
    let m : Member := ⟨e, len, InStream.init, InStream.init, InStream.init, InStream.init, 0, s.clock.ek⟩
    { s with vec := { s.vec with started := s.vec.started ++ [m] } }

/-- A VEC instruction starts: with LSRC = 1 once its count can be popped (R236, R250). -/
def startVec (op : Nat) (s : State) : State :=
  match headFor s 2 op with
  | none => s
  | some e =>
    if !chainIssued s then s
    else if wbit e.d.w1 31 then
      match chTake (e.d.fld 1 30 25) 3 1 s with
      | none => s
      | some (ls, t) => startMember e ((ls.map (·.data)).headD 0 % 2 ^ 32) t
    else startMember e e.vLen s

/-! ## Flow start (R222, R233, R250) -/

/-- The first chain among the started members, if it is whole. -/
def startedChain : List Member → Option (List Member × List Member)
  | [] => none
  | m :: t =>
    if m.e.b0 then (startedChain t).map fun p => (m :: p.1, p.2)
    else some ([m], t)

/-- First and last cache line that a chain member reads, for each cache operand; and that OCW writes. -/
def cacheReads (m : Member) : List (Nat × Nat) :=
  [0, 1, 2].filterMap fun o =>
    let w := fmtBits (m.e.vFmt o)
    let n := if m.e.vSrc o = 3 then min m.len m.e.rowLen else (m.len - 1) / m.e.rowLen + 1
    if m.e.vUses o && m.e.vSrc o ≥ 3 && m.len > 0 then some (m.e.d.fld 3 19 9, ((m.e.oce w + n) * w - 1) / 512) else none

/-- An output has pushed everything. -/
def OutStream.finished (o : OutStream) : Bool := o.ended && o.steps.isEmpty && o.out.lineq.isEmpty && o.cnt.isNone

/-- A cache write of an earlier chain in flight overlaps what this chain reads (R222). -/
def cacheBusy (s : State) (ms : List Member) : Bool :=
  let writes := s.vec.outs.filterMap fun o =>
    if o.e.op = 0x20 ∧ !o.finished then
      let w := fmtBits o.e.vRes
      some (o.e.d.fld 3 19 9, ((o.e.oce w + max o.out.total 1) * w - 1) / 512)
    else none
  (ms.flatMap cacheReads).any fun r => writes.any fun w => decide (r.1 ≤ w.2) && decide (w.1 ≤ r.2)

/-- Elements that a member pushes (R241). -/
def resultLen (e : Entry) (len : Nat) : Nat :=
  match e.op with
  | 0x1B => 2 * len
  | 0x1C => (len + 1) / 2
  | 0x1D => len / 2
  | _ => len

/-- A member has an output of its own: a declared channel, a cache write, a count, or it closes the chain. -/
def hasOut (m : Member) (last : Bool) : Bool := last || m.e.op == 0x20 || m.e.chOut < 56

/-- The outputs of a chain. -/
def chainOuts (ms : List Member) : List OutStream :=
  let n := ms.length
  (ms.zipIdx.filter fun p => hasOut p.1 (p.2 + 1 == n)).map fun p =>
    let e := p.1.e
    let total := resultLen e p.1.len
    let out := if e.vMask then LineOut.ofBits 1 total else LineOut.ofFmt e.vRes total total
    let out := if e.vMask then out else { out with rowlen := e.rowLen }
    ⟨e, ms.map (·.e.id), e.op != 0x20 && e.op != 0x2A && e.chOut < 56, out, [], [], none, 0, false⟩

/-- A chain of length 0: no data, counts of 0, complete (R236). -/
def emptyChain (outs : List OutStream) (due : Nat) : List OutStream :=
  outs.map fun o => { o with
    steps := [⟨due, [], [], [], if o.e.op = 0x28 ∨ o.e.op = 0x2A then some 0 else none, true⟩], ended := true }

/-- CHAIN_FLOW_START (R250). -/
def execChainFlowStart (s : State) : Host.Outcome State Fault Refusal :=
  match startedChain s.vec.started with
  | none => .next s
  | some (ms, rest) =>
    let lastClk := ms.foldl (fun c m => max c m.clk) 0
    if engOk s 2 && s.vec.flow.isNone && decide (lastClk < s.clock.ek) && decide (s.vec.lastFlow < s.clock.ek ∨ s.vec.lastFlow = 0) &&
        !cacheBusy s ms then
      let len := (ms.headD ⟨Entry.zero, 0, .init, .init, .init, .init, 0, 0⟩).len
      let s := { s with vec := { s.vec with started := rest } }
      if ms.any (fun m => m.len != len) then
        raiseInst 0x0C 2 (ms.getLastD ⟨Entry.zero, 0, .init, .init, .init, .init, 0, 0⟩).e s |> .next
      else
        let outs := chainOuts ms
        if len = 0 then .next (touch { s with vec := { s.vec with outs := s.vec.outs ++ emptyChain outs s.clock.ek } })
        else
          let f : Flow := ⟨ms, 0, len, s.clock.ek, 0, s.ocache⟩
          .next (touch { s with vec := { s.vec with outs := s.vec.outs ++ outs, flow := some f } })
    else .next s

/-! ## Operand values (R219, R220) -/

/-- Index of element e in an operand's stream (R219). -/
def srcIndex (e : Entry) (o i : Nat) : Nat := if e.vSrc o = 1 then i / e.rowLen else i

/-- Elements in an operand's stream of an instruction of length L. -/
def srcLen (e : Entry) (o len : Nat) : Nat := if e.vSrc o = 1 then ceilDiv len e.rowLen else len

/-- The stream of operand o of a member. -/
def Member.str (m : Member) (o : Nat) : InStream := if o = 0 then m.x else if o = 1 then m.y else m.z

/-- The stream of operand o replaced. -/
def Member.setStr (m : Member) (o : Nat) (t : InStream) : Member :=
  if o = 0 then { m with x := t } else if o = 1 then { m with y := t } else { m with z := t }

/-- The S register copy that a SCALAR operand reads (R219). -/
def scalarCode (e : Entry) (o : Nat) : Nat :=
  let earlier := (List.range o).any fun p => e.vUses p && e.vSrc p == 2
  (if earlier then e.s1 else e.s0).toNat % 2 ^ fmtBits (e.vFmt o)

/-- An element of the operand cache, of 8, 16 or 32 bits (R219, R221). -/
def cacheCode (oc : List (Nat × Byte)) (e : Entry) (o i : Nat) : Nat :=
  let w := fmtBits (e.vFmt o)
  let k := e.oce w + (if e.vSrc o = 3 then i % e.rowLen else i / e.rowLen)
  leNat (readBytes oc (k * w / 8) (w / 8))

/-- Code and block scale of element i of operand o. -/
def operandAt (oc : List (Nat × Byte)) (m : Member) (o i : Nat) : Nat × Nat :=
  if m.e.vSrc o ≤ 1 then (m.str o).at (srcIndex m.e o i)
  else if m.e.vSrc o = 2 then (scalarCode m.e o, 0)
  else (cacheCode oc m.e o i, 0)

/-! ## What a step pops (R217, R234, R250) -/

/-- Vectors that a link queue holds at most (R107). -/
def linkDepth : Nat := 4

/-- The vectors on link queue c, 56 to 63. -/
def linkQueue (s : State) (c : Nat) : List (List (Nat × Nat)) := s.vec.links.getD (c - 56) []

/-- Link queue c replaced. -/
def setLink (c : Nat) (q : List (List (Nat × Nat))) (s : State) : State :=
  { s with vec := { s.vec with links := s.vec.links.set (c - 56) q } }

/-- A vector pushed on link queue c: none where the queue is full (R107). -/
def linkPush (c : Nat) (v : List (Nat × Nat)) (s : State) : Option State :=
  if (linkQueue s c).length < linkDepth then some (setLink c (linkQueue s c ++ [v]) s) else none

/-- The next vector of link queue c added to a stream (R250). -/
def linkPop (c : Nat) (t : InStream) (s : State) : InStream × State :=
  match linkQueue s c with
  | v :: q => ({ t with ready := t.ready ++ v }, setLink c q s)
  | [] => (t, s)

/-- n more elements of w bits of a stream at channel or link c. -/
def feed (c w n : Nat) (t : InStream) (s : State) : Option (InStream × State) :=
  if c ≥ 56 then some (linkPop c t s) else fetchElems 3 c w n t s

/-- The number of elements that must be ready so that index i − 1 is. -/
def upto (t : InStream) (i : Nat) : Nat := i - t.taken

/-- Operand o of a member made ready for elements below hi: none where its lines cannot be popped. -/
def readyOperand (hi o : Nat) (m : Member) (s : State) : Option (Member × State) :=
  let e := m.e
  let c := e.vCh o
  if !e.vUses o || e.vSrc o ≥ 2 then some (m, s)
  else
    let t := m.str o
    let k := upto t (srcIndex e o (hi - 1) + 1)
    if fmtBlock (e.vFmt o) && c < 56 then (if k ≤ t.ready.length then some (m, s) else none)
    else (feed c (fmtBits (e.vFmt o)) k t s).map fun p => (m.setStr o p.1, p.2)

/-- The mask operands of a member made ready: MASK_CH, or CH_X and CH_Y of the mask operations (R235). -/
def readyMasks (n : Nat) (m : Member) (s : State) : Option (Member × State) :=
  let e := m.e
  if vecMaskOp e.op then
    match feed e.chX 1 n m.x s with
    | none => none
    | some (x, s) =>
      if e.op = 0x13 ∨ e.op = 0x14 then (feed e.chY 1 n m.y s).map fun p => ({ m with x := x, y := p.1 }, p.2)
      else some ({ m with x := x }, s)
  else if e.b1 then (feed (e.d.fld 2 15 10) 1 n m.m s).map fun p => ({ m with m := p.1 }, p.2)
  else some (m, s)

/-- X of EXPAND made ready: as many elements as mask bits are 1 (R238). -/
def readyExpand (n : Nat) (m : Member) (s : State) : Option (Member × State) :=
  let k := (m.m.ready.take n).foldl (fun a p => a + p.1) 0
  (fetchElems 3 m.e.chX (fmtBits (m.e.vFmt 0)) k m.x s).map fun p => ({ m with x := p.1 }, p.2)

/-- All inputs of a member for elements lo to hi − 1. -/
def readyMember (lo hi : Nat) (m : Member) (s : State) : Option (Member × State) := do
  let (m, s) ← readyMasks (hi - lo) m s
  let (m, s) ← if m.e.op = 0x29 then readyExpand (hi - lo) m s else readyOperand hi 0 m s
  let (m, s) ← readyOperand hi 1 m s
  readyOperand hi 2 m s

/-- The inputs after elements below hi have been used. -/
def dropMember (hi used : Nat) (m : Member) : Member :=
  let e := m.e
  let drop (o : Nat) (t : InStream) : InStream :=
    t.dropTo (if e.vSrc o = 1 ∧ e.vUses o then hi / e.rowLen else hi)
  { m with x := if e.op = 0x29 then m.x.dropTo (m.x.taken + used) else drop 0 m.x
           y := drop 1 m.y
           z := drop 2 m.z
           m := m.m.dropTo hi }

/-- Lines that a step cannot pop all in its own clk are popped ahead of it: those of a block-scaled operand as they come (R217),
and those of an operand that takes more than one channel end moves in a clk (R109, log 81). -/
def prefetch (hi : Nat) (m : Member) (s : State) : Member × State :=
  let e := m.e
  let ahead (o : Nat) (p : Member × State) : Member × State :=
    let c := e.vCh o
    if e.vUses o && decide (e.vSrc o ≤ 1) && !fmtBlock (e.vFmt o) && decide (c < 56) && e.op != 0x29 then
      let t := p.1.str o
      let r := fetchAhead 3 c (fmtBits (e.vFmt o)) (upto t (srcIndex e o (hi - 1) + 1)) t p.2
      (p.1.setStr o r.1, r.2)
    else p
  let block (p : Member × State) : Member × State :=
    if e.vUses 0 && decide (e.vSrc 0 ≤ 1) && fmtBlock (e.vFmt 0) && decide (e.chX < 56) then
      let x := p.1.x
      let k := upto x (srcIndex e 0 (hi - 1) + 1)
      let r := pullBlocks 3 e.chX (e.vFmt 0) e.rowLen (srcLen e 0 m.len) k (k / 32 + 1) x p.2
      ({ p.1 with x := r.1 }, r.2)
    else p
  ahead 2 (ahead 1 (ahead 0 (block (m, s))))

/-! ## Results of one member (R227 to R230, R235 to R244) -/

/-- The mask bit of element i, 1 where the member takes no mask. -/
def maskAt (m : Member) (i : Nat) : Bool := !m.e.b1 || (m.m.at i).1 == 1

/-- Step 1 of R227 for classes A, C and F: the exact result of an element. -/
def exactResult (s : State) (e : Entry) (sel : Bool) (x y z : FVal) : FVal :=
  match e.op with
  | 0x01 => x.add y
  | 0x02 => x.sub y
  | 0x03 => x.mul y
  | 0x04 => (x.mul y).add z
  | 0x05 => (x.mul y).sub z
  | 0x06 => z.sub (x.mul y)
  | 0x07 => (x.mul y).mul z
  | 0x08 => x.abs
  | 0x09 => x.neg
  | 0x0A => fminv x y
  | 0x0B => fmaxv x y
  | 0x0C => if x.isNan || y.isNan || z.isNan then .nan else fminv (fmaxv x y) z
  | 0x0D => (x.sub y).mul (x.sub y)
  | 0x0E => if cmpVal (e.opt % 8) x y then FVal.ofNat 1 else FVal.zero false
  | 0x0F => if sel then x else y
  | 0x18 => x
  | 0x20 => x
  | 0x28 => x
  | op => fnEval s op e.opt x

/-- Bit-pattern results of classes B and P (R228, R240 to R242). -/
def bitResult (oc : List (Nat × Byte)) (m : Member) (i : Nat) : Nat :=
  let e := m.e
  let g := e.group
  let base := i / g * g
  let x := (operandAt oc m 0 i).1
  let y := (operandAt oc m 1 i).1
  match e.op with
  | 0x10 => x &&& y
  | 0x11 => x ||| y
  | 0x12 => x ^^^ y
  | 0x19 => (operandAt oc m 0 (base + (sext 8 y).toNat % g)).1
  | 0x1A => (operandAt oc m 0 (if e.opt / 16 = 0 then base + g - 1 - i % g else base)).1
  | 0x1E => x + (y <<< fmtBits (e.vFmt 0))
  | 0x1F =>
    let w := fmtBits (e.vFmt 0) / 2
    if e.opt % 2 = 1 then x >>> w else x % 2 ^ w
  | _ => x

/-- The opcode yields bit patterns without conversion. -/
def vecBits (op : Nat) : Bool :=
  (0x10 ≤ op && op ≤ 0x12) || (0x19 ≤ op && op ≤ 0x1F) || op == 0x29

/-- Step 3 of R227. -/
def scaledResult (e : Entry) (r : FVal) : FVal := scaleR86 (e.e2 - e.e0) r

/-- Step 4 of R227 for the elements from index i0 on: for block-scaled results each block takes its index in its row
(R77). -/
def convElems (s : State) (e : Entry) (i0 : Nat) (ys : List FVal) : List (Nat × Nat) :=
  let f := e.vRes
  if fmtBlock f then
    ((chunks32 (ys.length + 1) ys).zipIdx).flatMap fun p =>
      convVals f e.conv s.job.seed e.srKey ((i0 + 32 * p.2) % e.rowLen) p.1
  else convVals f e.conv s.job.seed e.srKey i0 ys

/-- What a member makes of the elements of a step: codes, values to fold with the element's position in the output, cache
writes, the new running count, a count to push, an element fault (index, offending value). -/
structure MemberRes where
  codes : List (Nat × Nat)
  folds : List (Nat × FVal)
  cache : List (Nat × Nat × Nat)
  run : Nat
  used : Nat
  fault : Option (Nat × Int)

/-- Elements as conversion inputs: the value after step 3, and the value to fold where the element is not masked. -/
def valueElem (s : State) (oc : List (Nat × Byte)) (m : Member) (i : Nat) : FVal × Option FVal :=
  let e := m.e
  let val (o : Nat) : FVal := if e.vUses o then elemVal (e.vFmt o) (operandAt oc m o i) else FVal.zero false
  let sel := maskAt m i
  let masked := !sel && e.op != 0x0F
  if masked then (if e.passX then scaledResult e (val 0) else FVal.zero false, none)
  else
    let r := exactResult s e sel (val 0) (val 1) (val 2)
    (scaledResult e r, some r)

/-- RNG in value modes (R244): raw words as bits, or uniform values. -/
def rngElem (s : State) (m : Member) (i : Nat) : FVal × Option FVal :=
  if maskAt m i then
    let r := FVal.fin false ((rngWord s.job.seed m.e.srKey i).toNat / 256) 1 (-24)
    (scaledResult m.e r, some r)
  else (FVal.zero false, none)

/-- Mask results (R228, R230, R234, R244). -/
def maskElem (s : State) (oc : List (Nat × Byte)) (m : Member) (i : Nat) : Nat :=
  let e := m.e
  match e.op with
  | 0x13 => (m.x.at i).1 &&& (m.y.at i).1
  | 0x14 => (m.x.at i).1 ||| (m.y.at i).1
  | 0x15 => 1 - (m.x.at i).1
  | 0x0E => b2n (maskAt m i && cmpVal (e.opt % 8) (elemVal (e.vFmt 0) (operandAt oc m 0 i)) (elemVal (e.vFmt 1) (operandAt oc m 1 i)))
  | _ => b2n (maskAt m i && decide ((rngWord s.job.seed e.srKey i).toNat < e.s0.toNat))

/-- The first element of a step with a PERM index out of range (R240). -/
def permFault (oc : List (Nat × Byte)) (m : Member) (is : List Nat) : Option (Nat × Int) :=
  if m.e.op = 0x19 then
    is.findSome? fun i =>
      let v := sext 8 (operandAt oc m 1 i).1
      if maskAt m i && (decide (v < 0) || decide (v ≥ m.e.group)) then some (i, v) else none
  else none

/-- EXPAND (R238): codes in order, each mask bit of 1 taking the next element of X. -/
def expandCodes (oc : List (Nat × Byte)) (m : Member) : List Nat → Nat → List (Nat × Nat) × Nat
  | [], k => ([], k)
  | i :: is, k =>
    if (m.m.at i).1 = 1 then
      let r := expandCodes oc m is (k + 1)
      ((m.x.ready.getD k (0, 0)) :: r.1, r.2)
    else
      let r := expandCodes oc m is k
      ((if m.e.passX then operandAt oc m 1 i else (0, 0)) :: r.1, r.2)

/-- Bit results with their masking (R235): +0, or X's bit pattern. -/
def maskedBits (oc : List (Nat × Byte)) (m : Member) (i : Nat) : Nat × Nat :=
  if maskAt m i then (bitResult oc m i, 0)
  else if m.e.passX then ((operandAt oc m 0 i).1, 0) else (0, 0)

/-- The result of one member over elements lo to hi − 1. A masked element of ZIP gives both its places what a masked element gives
(R235; DESIGN CHOICE, log 88). -/
def memberResult (s : State) (oc : List (Nat × Byte)) (lo hi : Nat) (m : Member) : MemberRes :=
  let e := m.e
  let is := (List.range (hi - lo)).map (· + lo)
  let r0 : MemberRes := ⟨[], [], [], m.outPos, 0, none⟩
  if e.op = 0x2A then { r0 with run := m.outPos + (is.map fun i => (m.x.at i).1).foldl (· + ·) 0 }
  else if e.vMask then { r0 with codes := is.map fun i => (maskElem s oc m i, 0) }
  else if e.op = 0x29 then
    let r := expandCodes oc m is 0
    { r0 with codes := r.1, used := r.2 }
  else if e.op = 0x1B then
    { r0 with codes := is.flatMap fun i =>
        if maskAt m i then [((operandAt oc m 0 i).1, 0), ((operandAt oc m 1 i).1, 0)]
        else [maskedBits oc m i, maskedBits oc m i] }
  else if e.op = 0x1C ∨ e.op = 0x1D then
    { r0 with codes := (is.filter fun i => i % 2 == e.op - 0x1C).map fun i =>
        if maskAt m i || e.passX then ((operandAt oc m 0 i).1, 0) else (0, 0) }
  else if vecBits e.op then { r0 with codes := is.map (maskedBits oc m), fault := permFault oc m is }
  else if e.op = 0x2B ∧ e.opt % 4 = 0 then
    { r0 with codes := is.map fun i => (if maskAt m i then (rngWord s.job.seed e.srKey i).toNat else 0, 0) }
  else
    let js := if e.op = 0x28 then is.filter (fun i => (m.m.at i).1 == 1) else is
    let vs := js.map fun i => if e.op = 0x2B then rngElem s m i else valueElem s oc m i
    let p0 := if e.op = 0x28 then m.outPos else lo
    let codes := convElems s e p0 (vs.map (·.1))
    let folds := (vs.zipIdx.filterMap fun p => p.1.2.map fun v => (p0 + p.2, v))
    let w := fmtBits e.vRes
    { r0 with
      codes := codes
      folds := if e.foldSlot.isSome then folds else []
      cache := if e.op = 0x20 then codes.mapIdx fun k c => ((e.oce 512 * 512) + (lo + k) * w, w, c.1) else []
      run := m.outPos + js.length }

/-! ## A step of the chain (R250) -/

/-- One member after another over elements lo to hi − 1: the members, what they produced, the first fault with its entry. -/
def stepMembers (oc : List (Nat × Byte)) (lo hi : Nat) : List Member → State → Option (List (Member × MemberRes) × State)
  | [], s => some ([], s)
  | m :: ms, s =>
    match readyMember lo hi m s with
    | none => none
    | some (m, s) =>
      let r := memberResult s oc lo hi m
      match (if m.e.op != 0x20 && m.e.chOut ≥ 56 then linkPush m.e.chOut r.codes s else some s) with
      | none => none
      | some s =>
        let m := { dropMember hi r.used m with outPos := r.run }
        match stepMembers oc lo hi ms s with
        | none => none
        | some (t, s) => some ((m, r) :: t, s)

/-- Values of a member to fold, each with the number of elements of the stream out that completes it: the value's own place for a
stream with one element for each, the count kept so far for a CMPRS. -/
def foldsOf (kept : Option Nat) (p : Member × MemberRes) : List (Nat × Nat × FVal) :=
  match p.1.e.foldSlot with
  | some sl => p.2.folds.map fun f => (kept.getD (f.1 + 1), sl, f.2)
  | none => []

/-- The results of a step handed to the chain's outputs: the folds of members without an output go with the last one (R84). -/
def handOut (due : Nat) (last : Bool) (rs : List (Member × MemberRes)) (outs : List OutStream) : List OutStream :=
  let n := rs.length
  let kept := match rs.getLast? with
    | some p => if p.1.e.op = 0x28 then some p.1.outPos else none
    | none => none
  let linkFolds := (rs.zipIdx.filter fun p => !hasOut p.1.1 (p.2 + 1 == n)).flatMap fun p => foldsOf kept p.1
  let lastId := match rs.getLast? with
    | some p => p.1.e.id
    | none => 0
  outs.map fun o =>
    match rs.find? fun p => p.1.e.id == o.e.id with
    | none => o
    | some (m, r) =>
      let cnt := if last && (o.e.op == 0x28 || o.e.op == 0x2A) then some m.outPos else none
      let st : StepOut := ⟨due, r.codes, (if o.e.id = lastId then linkFolds else []) ++ foldsOf none (m, r), r.cache, cnt, last⟩
      { o with steps := o.steps ++ [st], ended := last }

/-- The cache words of 8 bytes that a step reads, each with its member (R219, R221). -/
def cacheWords (f : Flow) (lo hi : Nat) : List (Entry × Nat) :=
  (f.members.flatMap fun m => [0, 1, 2].flatMap fun o =>
    if m.e.vUses o && m.e.vSrc o ≥ 3 then
      let w := fmtBits (m.e.vFmt o)
      (List.range (hi - lo)).map fun j =>
        let i := lo + j
        (m.e, (m.e.oce w + (if m.e.vSrc o = 3 then i % m.e.rowLen else i / m.e.rowLen)) * w / 64)
    else []).eraseDups

/-- The cache words that a step reads checked (R221): corrections are counted, and the first uncorrectable word with its member. -/
def cacheCheck (f : Flow) (lo hi : Nat) (s : State) : State × Option (Entry × Nat) :=
  if s.ocUpset.isEmpty then (s, none)
  else
    let ws := cacheWords f lo hi
    let found (p : Entry × Nat) : Nat := secDed s p.2 (mget 0 s.ocUpset p.2)
    let n := (ws.filter fun p => found p == 1).length
    ({ s with err := { s.err with ocCe := satCount 16 (s.err.ocCe + n) } }, ws.find? fun p => found p == 2)

/-- VEC_STEP: V elements of the chain in flow (R250). -/
def execVecStep (s : State) : Host.Outcome State Fault Refusal :=
  match s.vec.flow with
  | none => .next s
  | some f =>
    let es := f.members.map (·.e)
    let n := f.members.length
    let cost := if es.any (fun e => e.op == 0x1B) then 2 * n else n
    if !engOk s 2 || decide (s.clock.ek < f.step) then .next s
    else
      let lo := f.elem
      let hi := min f.len (lo + max 1 (stepElems s es))
      match cacheCheck f lo hi s with
      | (s, some (e, w)) =>
        .next (raise 0x41 (FaultCtx.ofEntry 2 e (w / 8) 0) { s with err := { s.err with ocUe := satCount 8 (s.err.ocUe + 1) } })
      | (u, none) =>
        let s0 := s
        let (ms, s) := f.members.foldl (fun (acc : List Member × State) m =>
          let r := prefetch hi m acc.2
          (acc.1 ++ [r.1], r.2)) ([], s0)
        match stepMembers f.oc lo hi ms { s with err := u.err } with
        | none => .next { s with vec := { s.vec with flow := some { f with members := ms } } }
        | some (rs, s) =>
          match rs.findSome? fun p => p.2.fault.map fun x => (p.1.e, x) with
          | some (e, x) => .next (raise 0x0D (FaultCtx.ofEntry 2 e x.1 (toCode 32 x.2)) s)
          | none =>
            let last := decide (hi ≥ f.len)
            let pc := (es.map fun e => vecLatency e.op).foldl (· + ·) 0 + n - 1
            let outs := handOut (s.clock.ek + pc) last rs s.vec.outs
            let endClk := s.clock.ek + cost
            let g : Flow := { f with members := rs.map (·.1), elem := hi, step := endClk }
            .next (touch (bump 0x020 1 { s with vec := { s.vec with
              outs := outs, flow := if last then none else some g, lastFlow := endClk - 1 } }))

/-! ## Pushes (R217, R222, R237, R239, R250) -/

/-- One element written into the cache at a bit position (R243). -/
def cacheWrite (oc : List (Nat × Byte)) (x : Nat × Nat × Nat) : List (Nat × Byte) :=
  let a := x.1 / 8
  let off := x.1 % 8
  let n := (off + x.2.1 + 7) / 8
  let old := leNat (readBytes oc a n)
  writeBytes oc a (leBytes n (setFld old (off + x.2.1 - 1) off x.2.2))

/-- The next step of an output is taken into its stream: its cache writes take effect. -/
def takeStep (o : OutStream) (st : StepOut) (s : State) : OutStream × State :=
  let s := if st.cache.isEmpty then s
    else touch { s with ocache := st.cache.foldl cacheWrite s.ocache
                        ocUpset := st.cache.foldl (fun u x => mset 0 u (x.1 / 64) 0) s.ocUpset }
  let out := if o.push then (let p := o.out.put st.codes; if st.last then p.finish else p) else o.out
  ({ o with steps := o.steps.tail, out := out, held := o.held ++ st.folds, cnt := st.cnt.orElse fun _ => o.cnt }, s)

/-- Lines of an output pushed, and the folds of the elements they carry; without a channel the folds of the steps taken (R84). -/
def pushOut (o : OutStream) (s : State) : OutStream × State :=
  let before := o.out.lineq.length
  let (out, s) := if o.push then o.out.drain o.e.chOut s else (o.out, s)
  let ready (h : Nat × Nat × FVal) : Bool := !o.push || decide (h.1 ≤ out.sent)
  let s := foldAll ((o.held.filter ready).map (·.2)) s
  let moved := decide (out.lineq.length < before)
  ({ o with out := out, held := o.held.filter fun h => !ready h, lastPush := if moved then s.clock.ek else o.lastPush }, s)

/-- The count of an output, once its last line has been pushed in an earlier clk (R237, R239). -/
def pushCount (o : OutStream) (s : State) : OutStream × State :=
  let c := if o.e.op = 0x28 then o.e.d.fld 2 9 4 else o.e.chOut
  match o.cnt with
  | some n =>
    if o.steps.isEmpty && o.out.lineq.isEmpty && decide (o.lastPush < s.clock.ek ∨ o.lastPush = 0) && decide (chRoom s c ≥ 1) then
      ({ o with cnt := none }, chPush c [(n, false, false)] s)
    else (o, s)
  | none => (o, s)

/-- The channels that an output pushes, and 64 for the cache that OCW writes. -/
def OutStream.ends (o : OutStream) : List Nat :=
  (if o.e.op = 0x20 then [64] else []) ++ (if o.push then [o.e.chOut] else []) ++
    (if o.e.op = 0x28 then [o.e.d.fld 2 9 4] else if o.e.op = 0x2A then [o.e.chOut] else [])

/-- An earlier output that has not finished pushes on a channel of this one: streams leave in the order of their instructions. -/
def OutStream.behind (earlier : List OutStream) (o : OutStream) : Bool :=
  earlier.any fun p => !p.finished && p.ends.any fun c => o.ends.contains c

/-- One output in one clk. -/
def serveOut (o : OutStream) (s : State) : OutStream × State :=
  let (o, s) := match o.steps with
    | st :: _ =>
      let lines := decide (o.push ∧ (o.out.bits.len + o.out.w * st.codes.length ≥ 512 ∨ st.last))
      if decide (st.due ≤ s.clock.ek) && o.out.lineq.isEmpty && (!lines || st.codes.isEmpty || decide (chRoom s o.e.chOut ≥ 1)) then
        takeStep o st s
      else (o, s)
    | [] => (o, s)
  let (o, s) := pushOut o s
  pushCount o s

/-- The chains at the front whose outputs have all finished complete, in order (R330, R335): their members' ids, and the outputs
that stay. -/
def finishChains : Nat → List OutStream → List Nat × List OutStream
  | 0, outs => ([], outs)
  | n + 1, outs =>
    match outs with
    | [] => ([], [])
    | o :: _ =>
      let mine (p : OutStream) : Bool := p.chain == o.chain
      if (outs.filter mine).all OutStream.finished then
        let r := finishChains n (outs.filter fun p => !mine p)
        (o.chain ++ r.1, r.2)
      else ([], outs)

/-- VEC_RESULT_PUSH: every output of the chains in flight takes its due step and pushes what its channel has room for
(R250). -/
def execVecResultPush (s : State) : Host.Outcome State Fault Refusal :=
  if engOk s 2 then
    let (outs, s) := s.vec.outs.foldl (fun (acc : List OutStream × State) o =>
      if o.behind acc.1 then (acc.1 ++ [o], acc.2)
      else
        let r := serveOut o acc.2
        (acc.1 ++ [r.1], r.2)) ([], s)
    let r := finishChains outs.length outs
    .next { completeAll r.1 s with vec := { s.vec with outs := r.2 } }
  else .next s

/-! ## Starts, one for each opcode of R228 -/

/-- ADD starts (R228); its chain flow gives its results. -/
def execVecAdd (s : State) : Host.Outcome State Fault Refusal := .next (startVec 0x01 s)
/-- SUB starts (R228); its chain flow gives its results. -/
def execVecSub (s : State) : Host.Outcome State Fault Refusal := .next (startVec 0x02 s)
/-- MUL starts (R228); its chain flow gives its results. -/
def execVecMul (s : State) : Host.Outcome State Fault Refusal := .next (startVec 0x03 s)
/-- FMA starts (R228); its chain flow gives its results. -/
def execFma (s : State) : Host.Outcome State Fault Refusal := .next (startVec 0x04 s)
/-- FMS starts (R228); its chain flow gives its results. -/
def execFms (s : State) : Host.Outcome State Fault Refusal := .next (startVec 0x05 s)
/-- FNMA starts (R228); its chain flow gives its results. -/
def execFnma (s : State) : Host.Outcome State Fault Refusal := .next (startVec 0x06 s)
/-- MUL3 starts (R228); its chain flow gives its results. -/
def execMul3 (s : State) : Host.Outcome State Fault Refusal := .next (startVec 0x07 s)
/-- ABS starts (R228); its chain flow gives its results. -/
def execAbs (s : State) : Host.Outcome State Fault Refusal := .next (startVec 0x08 s)
/-- NEG starts (R228); its chain flow gives its results. -/
def execNeg (s : State) : Host.Outcome State Fault Refusal := .next (startVec 0x09 s)
/-- MIN starts (R228); its chain flow gives its results. -/
def execVecMin (s : State) : Host.Outcome State Fault Refusal := .next (startVec 0x0A s)
/-- MAX starts (R228); its chain flow gives its results. -/
def execVecMax (s : State) : Host.Outcome State Fault Refusal := .next (startVec 0x0B s)
/-- CLAMP starts (R228); its chain flow gives its results. -/
def execClamp (s : State) : Host.Outcome State Fault Refusal := .next (startVec 0x0C s)
/-- SQD starts (R228); its chain flow gives its results. -/
def execSqd (s : State) : Host.Outcome State Fault Refusal := .next (startVec 0x0D s)
/-- CMP starts (R228); its chain flow gives its results. -/
def execCmp (s : State) : Host.Outcome State Fault Refusal := .next (startVec 0x0E s)
/-- SEL starts (R228); its chain flow gives its results. -/
def execSel (s : State) : Host.Outcome State Fault Refusal := .next (startVec 0x0F s)
/-- AND starts (R228); its chain flow gives its results. -/
def execVecAnd (s : State) : Host.Outcome State Fault Refusal := .next (startVec 0x10 s)
/-- OR starts (R228); its chain flow gives its results. -/
def execVecOr (s : State) : Host.Outcome State Fault Refusal := .next (startVec 0x11 s)
/-- XOR starts (R228); its chain flow gives its results. -/
def execVecXor (s : State) : Host.Outcome State Fault Refusal := .next (startVec 0x12 s)
/-- MAND starts (R228); its chain flow gives its results. -/
def execMand (s : State) : Host.Outcome State Fault Refusal := .next (startVec 0x13 s)
/-- MOR starts (R228); its chain flow gives its results. -/
def execMor (s : State) : Host.Outcome State Fault Refusal := .next (startVec 0x14 s)
/-- MNOT starts (R228); its chain flow gives its results. -/
def execMnot (s : State) : Host.Outcome State Fault Refusal := .next (startVec 0x15 s)
/-- CVT starts (R228); its chain flow gives its results. -/
def execCvt (s : State) : Host.Outcome State Fault Refusal := .next (startVec 0x18 s)
/-- PERM starts (R228, R240); its chain flow gives its results. -/
def execPerm (s : State) : Host.Outcome State Fault Refusal := .next (startVec 0x19 s)
/-- SHUF starts (R228, R241); its chain flow gives its results. -/
def execShuf (s : State) : Host.Outcome State Fault Refusal := .next (startVec 0x1A s)
/-- ZIP starts (R228, R241); its chain flow gives its results. -/
def execZip (s : State) : Host.Outcome State Fault Refusal := .next (startVec 0x1B s)
/-- EVEN starts (R228, R241); its chain flow gives its results. -/
def execEven (s : State) : Host.Outcome State Fault Refusal := .next (startVec 0x1C s)
/-- ODD starts (R228, R241); its chain flow gives its results. -/
def execOdd (s : State) : Host.Outcome State Fault Refusal := .next (startVec 0x1D s)
/-- PACK starts (R228, R242); its chain flow gives its results. -/
def execPack (s : State) : Host.Outcome State Fault Refusal := .next (startVec 0x1E s)
/-- UNPACK starts (R228, R242); its chain flow gives its results. -/
def execUnpack (s : State) : Host.Outcome State Fault Refusal := .next (startVec 0x1F s)
/-- OCW starts (R228, R243); its chain flow gives its results. -/
def execOcw (s : State) : Host.Outcome State Fault Refusal := .next (startVec 0x20 s)
/-- CMPRS starts (R228, R237); its chain flow gives its results. -/
def execCmprs (s : State) : Host.Outcome State Fault Refusal := .next (startVec 0x28 s)
/-- EXPAND starts (R228, R238); its chain flow gives its results. -/
def execExpand (s : State) : Host.Outcome State Fault Refusal := .next (startVec 0x29 s)
/-- CNT starts (R228, R239); its chain flow gives its results. -/
def execCnt (s : State) : Host.Outcome State Fault Refusal := .next (startVec 0x2A s)
/-- RNG starts (R228, R244); its chain flow gives its results. -/
def execRng (s : State) : Host.Outcome State Fault Refusal := .next (startVec 0x2B s)
/-- EXP2 starts (R228, R248); its chain flow gives its results. -/
def execExp2 (s : State) : Host.Outcome State Fault Refusal := .next (startVec 0x30 s)
/-- LOG2 starts (R228, R248); its chain flow gives its results. -/
def execLog2 (s : State) : Host.Outcome State Fault Refusal := .next (startVec 0x31 s)
/-- RCP starts (R228, R248); its chain flow gives its results. -/
def execRcp (s : State) : Host.Outcome State Fault Refusal := .next (startVec 0x32 s)
/-- RSQRT starts (R228, R248); its chain flow gives its results. -/
def execRsqrt (s : State) : Host.Outcome State Fault Refusal := .next (startVec 0x33 s)
/-- SQRT starts (R228); its chain flow gives its results. -/
def execSqrt (s : State) : Host.Outcome State Fault Refusal := .next (startVec 0x34 s)
/-- TANH starts (R228, R246); its chain flow gives its results. -/
def execTanh (s : State) : Host.Outcome State Fault Refusal := .next (startVec 0x35 s)
/-- SIGM starts (R228, R246); its chain flow gives its results. -/
def execSigm (s : State) : Host.Outcome State Fault Refusal := .next (startVec 0x36 s)
/-- ERF starts (R228, R246); its chain flow gives its results. -/
def execErf (s : State) : Host.Outcome State Fault Refusal := .next (startVec 0x37 s)
/-- UTAB starts (R228, R246); its chain flow gives its results. -/
def execUtab (s : State) : Host.Outcome State Fault Refusal := .next (startVec 0x38 s)

end Sys2Proof.Machine
end

