-- ==== Sys2Proof/Machine/Forks.lean ====
section
/-! DEFINITION. Fork channels (03_program R108): the lines that both consumers pop together in a clk. How many lines a consumer is
ready to take is what its engine would use of the lines at hand in that clk (log 94). -/

namespace Sys2Proof.Machine

/-- The state that a command leaves, or the same one where it stops. -/
def orSame (s : State) : Host.Outcome State Fault Refusal → State
  | .next t => t
  | _ => s

/-- The clk of an array: the run, or the instruction at the head that may start (R164, R183). -/
def tryArray (a : Arr) (s : State) : State :=
  let run (r : ArrRun) : State := match fetchClk a r s with
    | some (_, t) => t
    | none => s
  if !mayBroadcast s a then s
  else match (getArr s a).run with
    | some r => run r
    | none =>
      match getQ s (Arr.slot a) with
      | e :: _ => if arrFree s a && arrBroadcasts e.op && (headFor s (Arr.slot a) e.op).isSome then run ⟨e, 0, [], [], [], [], [], []⟩ else s
      | [] => s

/-- The clk of the engine behind a consumer endpoint (R106). -/
def tryEnd (ep : Nat) (s : State) : State :=
  match ep with
  | 1 => tryArray .mxa s
  | 2 => tryArray .mxb s
  | 3 => orSame s (execVecStep s)
  | 4 => rsuTick s
  | 6 => ((List.range 8) ++ (List.range 8)).foldl (fun t g => orSame t (execGeneratorLinePop (BitVec.ofNat 3 g) t)) s
  | 7 => tinTick 0 s
  | 8 => tinTick 1 s
  | 9 => orSame s (execGatherEntryStart s)
  | 10 => acmpTick s
  | 11 => s.mov.fab.foldl (fun t o => if o.pops then (putAsk o t).getD t else t) (fabTick s)
  | _ => s

/-- The count channel of an instruction (R105, R125, R217, R306, R363). -/
def countChan (slot : Nat) (e : Entry) : Option Nat :=
  if slot = 2 ∨ slot = 3 then (if wbit e.d.w1 31 then some (e.d.fld 1 30 25) else none)
  else if slot = 4 then
    (if 0x18 ≤ e.op ∧ e.op ≤ 0x1A ∧ wbit e.d.w1 31 then some (e.d.fld 1 30 25)
     else if 0x28 ≤ e.op ∧ e.op ≤ 0x2B ∧ wbit e.d.w3 31 then some (e.d.fld 3 30 25) else none)
  else if slot = 6 ∧ e.op = 0x28 then some (sclB e)
  else none

/-- The slot whose instructions pop counts at an endpoint. -/
def countSlot (ep : Nat) : Option Nat :=
  match ep with
  | 3 => some 2
  | 4 => some 3
  | 9 => some 4
  | 11 => some 4
  | 13 => some 6
  | _ => none

/-- The instruction at the head of the endpoint's slot may start once it has popped a count of channel c. -/
def wantsCount (s : State) (c ep : Nat) : Bool :=
  match countSlot ep with
  | none => false
  | some slot =>
    match getQ s slot with
    | e :: _ => countChan slot e == some c && (headFor s slot e.op).isSome
    | [] => false

/-- MXB's end pops the pair's shared channel into the turn (R197). -/
def turnTakes (s : State) (c : Nat) : Bool :=
  let pair (e : Entry) : Bool := e.op == 0x10 && e.chY == c
  turnFree s && (match s.mxa.run with
    | some r => pair r.e
    | none => match s.q.mxa with
      | e :: _ => pair e
      | [] => false)

/-- The state in which endpoint ep holds the ripe lines of its fork channels too. -/
def preview (ep : Nat) (s : State) : State :=
  { s with chans := s.chans.mapIdx fun c x =>
      let more := x.lines.take (min (chRipe s c) (popBudget s c))
      if !isFork s c then x
      else if isSecond s c ep then { x with hold1 := x.hold1 ++ more }
      else if (chEnt s c).cons0 = ep then { x with hold0 := x.hold0 ++ more }
      else x }

/-- Lines of fork channel c that endpoint ep is ready to take in this clk, beside those it holds (R108). -/
def forkWant (s : State) (c ep : Nat) : Nat :=
  let p := preview ep s
  let all := (chHold p c ep).length
  let used := if ep = 2 && turnTakes s c then all
    else if wantsCount s c ep then 1
    else all - (chHold (tryEnd ep p) c ep).length
  used - (chHold s c ep).length

/-- Both consumers of fork channel c pop the smaller of what they are ready for (R108, R109). -/
def joinFork (c : Nat) (s : State) : State :=
  let n := min (min (chRipe s c) (popBudget s c)) (min (forkWant s c (chEnt s c).cons0) (forkWant s c (chEnt s c).cons1))
  if n = 0 then s else forkPop c n s

/-- Every fork channel that holds a line to pop. -/
def joinForks (s : State) : State :=
  ((List.range 56).filter fun c => isFork s c && !(chan s c).lines.isEmpty).foldl (fun t c => joinFork c t) s

end Sys2Proof.Machine
end

