-- ==== Sys2Proof/Machine/Arrive.lean ====
section
/-! DEFINITION. Packets that arrive at the fabric port (11_fabric_and_reduction R356 to R362, R378, R385, 01_boundary R28,
08_reduction_scan R269, 12_management R421, 14_faults_and_recovery R473, R474). -/

namespace Sys2Proof

open Machine

/-! ## Fields (R348) -/

/-- TYPE. -/
def Pkt.typ (p : Pkt) : Nat := wfld p.w0 31 27
/-- POISON. -/
def Pkt.poison (p : Pkt) : Bool := wbit p.w0 26
/-- PLEN. -/
def Pkt.plen (p : Pkt) : Nat := wfld p.w0 16 8
/-- TAGX. -/
def Pkt.tagx (p : Pkt) : Nat := wfld p.w0 7 0
/-- SPACE of the destination. -/
def Pkt.space (p : Pkt) : Nat := wfld p.w2 19 16
/-- Address bits [47:36]. -/
def Pkt.addrHi (p : Pkt) : Nat := wfld p.w2 15 4
/-- Core id of the destination, address bits [35:24]. -/
def Pkt.core (p : Pkt) : Nat := (wfld p.w2 3 0 <<< 8) + wfld p.w1 31 24
/-- Address bits [23:0]. -/
def Pkt.off (p : Pkt) : Nat := wfld p.w1 23 0
/-- SRC_CHIP. -/
def Pkt.srcChip (p : Pkt) : Nat := wfld p.w3 31 20
/-- SRC_CORE. -/
def Pkt.srcCore (p : Pkt) : Nat := wfld p.w3 19 8
/-- JOB. -/
def Pkt.job (p : Pkt) : Nat := wfld p.w4 31 22
/-- The header words. -/
def Pkt.hdr (p : Pkt) : W8 := ⟨p.w0, p.w1, p.w2, p.w3, p.w4, p.w5, p.w6, p.w7⟩
/-- The payload: PLEN bytes of what the flits carried. -/
def Pkt.data (p : Pkt) : List Byte := (p.payload ++ List.replicate p.plen (0 : Byte)).take p.plen

/-- The packet's source as R460 packs it. -/
def Pkt.src (p : Pkt) : Nat := chipCore p.srcChip p.srcCore

end Sys2Proof

namespace Sys2Proof.Machine

/-- TYPE names a packet of R349. -/
def knownType (t : Nat) : Bool := (1 ≤ t && t ≤ 6) || (8 ≤ t && t ≤ 0xE)
/-- The request types of R356. -/
def requestType (t : Nat) : Bool := t == 1 || t == 2 || t == 6 || t == 8 || t == 9 || t == 0xA || t == 0xC
/-- The types whose JOB is not checked (R356). -/
def jobFree (t : Nat) : Bool := t == 3 || t == 4 || t == 5 || t == 0xC || t == 0xD

/-! ## Checks (R356) -/

/-- The length of a packet's type (R349), of a RRES by its OP (log 33). -/
def plenOk (p : Pkt) : Bool :=
  let n := p.plen
  let t := p.typ
  if t = 1 ∨ t = 3 ∨ t = 6 then decide (4 ≤ n) && decide (n ≤ 256) && n % 4 == 0
  else if t = 9 then decide (8 ≤ n) && decide (n ≤ 256) && n % 8 == 0 && decide (wfld p.w4 8 3 + n / 8 ≤ 64)
  else if t = 0xB then n == (if wfld p.w4 21 20 = 1 then 4 else 256)
  else if t = 0xD then n == 32
  else if t = 0xA then true
  else n == 0

/-- The SPACE of a packet's type at a core, and the zero bits of its address (R347, R349, R356). -/
def addrOk (p : Pkt) : Bool :=
  let t := p.typ
  if t = 8 then p.space == 2 && p.addrHi == 0 && decide (p.off < 4096)
  else if t = 9 then p.space == 5 && p.addrHi == 0 && p.off == 0
  else if t = 0xC ∨ t = 0xE then p.space == 3 && p.addrHi == 0 && p.off == 0
  else p.space == 1 && p.addrHi == 0

/-- The form of a packet (R356 step 3). A GET asks for 4 to 256 bytes in words, a RACC names FP32 or BF16. -/
def formOk (p : Pkt) : Bool :=
  let t := p.typ
  let n := wfld p.w5 8 0
  knownType t && t != 0xA && plenOk p && addrOk p && (!(t == 1 || t == 2 || t == 6) || p.off % 4 == 0) &&
    (t != 2 || (decide (4 ≤ n) && decide (n ≤ 256) && n % 4 == 0)) && (t != 6 || wfld p.w4 3 0 ≤ 1)

/-- A reply to a packet's sender: type, POISON, W4, payload (R349, R353, R360). -/
def replyTo (p : Pkt) (typ : Nat) (poison : Bool) (w4 : Nat) (payload : List Byte) (s : State) : State :=
  queueReply { PktSpec.to s typ p.srcChip (fabAddr p.srcChip 1 (coreOffset p.srcCore 0)) with
    poison := poison, tagx := p.tagx, w4 := w4, payload := payload } s

/-- A NACK with a code of R359. -/
def nackTo (p : Pkt) (code : Nat) (s : State) : State := replyTo p 5 false ((p.typ <<< 8) + code) [] s

/-- A packet discarded and counted; a request is answered with a NACK (R356). -/
def refuse (p : Pkt) (code : Nat) (s : State) : State := if requestType p.typ then nackTo p code (fabDrop s) else fabDrop s

/-- A PUT or GET that reaches the REPLICA slot of a checkpoint area in use (R473). -/
def toReplica (s : State) (p : Pkt) : Bool :=
  let n := if p.typ = 2 then wfld p.w5 8 0 else p.plen
  (p.typ == 1 || p.typ == 2) && hitsReplica s p.off (p.off + n - 1)

/-! ## Effects (R357) -/

/-- The bytes lo to hi are storage that the fabric reaches (R357, R461). -/
def fabStore (s : State) (lo hi : Nat) : Bool := inAnyArea s lo hi && !hitsCkpt s lo hi

/-- PUT: the bytes are written, then acknowledged. -/
def putEffect (p : Pkt) (s : State) : State :=
  let a := p.off
  let rep := toReplica s p
  if !(if rep then inReplica s a (a + p.plen - 1) else fabStore s a (a + p.plen - 1)) then nackTo p 2 s
  else
    match poolWrite p.poison a p.data s with
    | (t, some b) => raise 0x40 (FaultCtx.args b 0xC) t
    | (t, none) => replyTo p 4 false 0 [] (if rep then replicaTake a p.data t else t)

/-- GET: the bytes as read, poisoned where a word was bad (R277). -/
def getEffect (p : Pkt) (s : State) : State :=
  let a := p.off
  let n := wfld p.w5 8 0
  if !(if toReplica s p then inReplica s a (a + n - 1) else fabStore s a (a + n - 1)) then nackTo p 2 s
  else
    let (t, bs, bad) := poolRead a n s
    replyTo p 3 bad.isSome 0 bs t

/-- RACC: each element adds with one rounding (R81, R82, R357). -/
def raccEffect (p : Pkt) (s : State) : State :=
  let a := p.off
  let f := wfld p.w4 3 0
  let n := fmtBits f / 8
  if !fabStore s a (a + p.plen - 1) then nackTo p 2 s
  else
    match poolRead a p.plen s with
    | (t, _, some b) => raise 0x40 (FaultCtx.args b 0xC) t
    | (t, old, none) =>
      let add (i : Nat) : List Byte :=
        let e (l : List Byte) : FVal := decodeElem f (leNat ((l.drop (n * i)).take n))
        leBytes n (convertElem f 0 0 ((e old).add (e p.data)))
      let (t, _) := poolWrite false a ((List.range (p.plen / n)).flatMap add) t
      replyTo p 4 false 0 [] t

/-- A remote flag add applied, or FLAG_LATE during a checkpoint copy (R323, R333). -/
def remoteAdd (f : Nat) (x : Int) (p : Pkt) (s : State) : State :=
  if s.ckpt.copy.isSome then raise 0x85 (FaultCtx.args ((f <<< 16) + (flagGet s f).toNat) p.src) s
  else addLater f x none p.src true s

/-- FADD (R323, R357). -/
def faddEffect (p : Pkt) (s : State) : State := remoteAdd p.off (sext 16 (wfld p.w4 15 0)) p s

/-- CARRY: records into CR[DREG] onward and the flag, both at the end of the clk (R269). -/
def carryEffect (p : Pkt) (s : State) : State :=
  let recs := (List.range (p.plen / 8)).map fun i =>
    (wfld p.w4 8 3 + i, BitVec.ofNat 64 (leNat ((p.data.drop (8 * i)).take 8)))
  let t := touch { s with fab := { s.fab with carries := s.fab.carries ++ recs } }
  if wbit p.w4 21 then remoteAdd (wfld p.w4 20 9) 1 p t else t

/-- The carry records of the clk that ends land, after the RSU's own writes (R269). -/
def landCarries (s : State) : State :=
  s.fab.carries.foldl (fun t x => crSet x.1 x.2 t) { s with fab := { s.fab with carries := [] } }

/-- The outstanding request of a TAGX, of GET kind or of another kind. -/
def requestOf (s : State) (tag : Nat) (get : Bool) : Option Outst :=
  s.fab.outst.find? fun o => o.tagx == tag && (o.typ == 2) == get

/-- GETR (R357, R358): its length is the one asked for (R349). -/
def getrEffect (p : Pkt) (s : State) : State :=
  match requestOf s p.tagx true with
  | some o => if o.len = p.plen then getrRequest o p.data p.poison s else fabDrop s
  | none => fabDrop s

/-- ACK (R355, R357). -/
def ackEffect (p : Pkt) (s : State) : State :=
  match requestOf s p.tagx false with
  | some o => ackRequest o s
  | none => fabDrop s

/-- NACK (R357, R460): FAB_NACK; the NACK of a FADD or CARRY matches no request. -/
def nackEffect (p : Pkt) (s : State) : State :=
  let a0 := wfld p.w4 12 0
  let a1 := p.src + p.tagx
  let rt := wfld p.w4 12 8
  if rt = 8 ∨ rt = 9 then raise 0x61 (FaultCtx.args a0 a1) s
  else
    match s.fab.outst.find? fun o => o.tagx == p.tagx with
    | some o =>
      let ctx := match requestEntry s o with
        | some e => FaultCtx.ofEntry 4 e a0 a1
        | none => FaultCtx.args a0 a1
      raise 0x61 ctx (endRequest o s)
    | none => fabDrop s

/-- RRES (R368, R378). -/
def rresEffect (p : Pkt) (s : State) : State :=
  redDeliver ⟨wfld p.w5 31 16, wfld p.w6 31 8, wfld p.w4 21 20, wfld p.w6 4 0, wfld p.w4 16 0, wbit p.w4 18, wbit p.w6 5, true, p.data⟩ s

/-- PROBE (R360). -/
def probeEffect (p : Pkt) (s : State) : State := replyTo p 0xD false 0 (wordsBytes (identWords s)) s

/-- PROBER: it answers the arm check if it comes from the partner, and is of no use otherwise (R357, R465). -/
def proberEffect (p : Pkt) (s : State) : State :=
  if s.ckpt.state = 1 ∧ s.ckpt.probe.isSome ∧ p.srcChip = chipOf s.ckpt.partner ∧ p.srcCore = coreOf s.ckpt.partner then
    armAnswer p.data s
  else fabDrop s

/-- RESET: a reset of the reach it names, source bit 7 (R361, R430). -/
def resetEffect (p : Pkt) (s : State) : State :=
  match wfld p.w4 1 0 with
  | 1 => assertReset 7 2 s
  | 2 => assertReset 7 3 s
  | _ => fabDrop s

/-! ## The path of a packet -/

/-- What stops an accepted packet before its effect: pond_halt (R358), a checkpoint copy (R474); the codes answer requests. -/
def stopped (s : State) (p : Pkt) : Bool :=
  let t := p.typ
  !toReplica s p &&
    ((s.pins.pondHalt && (t == 1 || t == 6 || t == 8 || t == 9 || t == 0xB)) ||
      (s.ckpt.copy.isSome && (t == 1 || t == 6 || t == 9 || t == 0xB)))

/-- The job check, or its stand-in for the REPLICA slot (R356 step 5, R473; log 26). -/
def jobOk (s : State) (p : Pkt) : Bool :=
  if toReplica s p then replicaOk s p.srcChip p.srcCore p.job else jobFree p.typ || p.job == s.job.id.toNat

/-- The checks of R356 in order, then the effect. -/
def process (act : Pkt → State → State) (p : Pkt) (s : State) : State :=
  if p.flits ≠ flitsOf p.plen ∨ p.contig = false then raise 0x63 FaultCtx.none s
  else if packetCrc p.hdr p.data ≠ p.w7 then
    if p.typ = 0xC then fabDrop s else raise 0x62 (FaultCtx.args p.w3.toNat p.w0.toNat) s
  else if !formOk p then refuse p 3 s
  else if p.core ≠ s.straps.core.toNat then refuse p 6 s
  else if !jobOk s p then refuse p 4 s
  else if stopped s p then (if p.typ = 1 ∨ p.typ = 6 then nackTo p 5 (fabDrop s) else fabDrop s)
  else act p (bump (0x100 + 2 * p.typ + 1) 1 s)

/-- The effect of an accepted packet by its type. -/
def effectOf (p : Pkt) : State → State :=
  match p.typ with
  | 1 => putEffect p
  | 2 => getEffect p
  | 3 => getrEffect p
  | 4 => ackEffect p
  | 5 => nackEffect p
  | 6 => raccEffect p
  | 8 => faddEffect p
  | 9 => carryEffect p
  | 0xB => rresEffect p
  | 0xC => probeEffect p
  | 0xD => proberEffect p
  | 0xE => resetEffect p
  | _ => fun s => s

/-- An installation parks these types (R421). -/
def parkType (t : Nat) : Bool := t == 1 || t == 2 || t == 3 || t == 6 || t == 9 || t == 0xB

/-- Steps 3 to 5 of an installation run (R421). -/
def installing (s : State) : Bool :=
  match s.issue.stop with
  | .imgRun _ _ _ _ => true
  | .actRun _ _ _ => true
  | _ => false

/-- Receive credits of a channel. -/
def rxCredit (s : State) (ch : Nat) : Nat := if ch = 0 then s.fab.rxCred0 else s.fab.rxCred1

/-- Receive credits of a channel spent, or given back. -/
def setRxCredit (ch n : Nat) (s : State) : State :=
  if ch = 0 then { s with fab := { s.fab with rxCred0 := n } } else { s with fab := { s.fab with rxCred1 := n } }

/-- Packets that the staging buffer holds in an installation (R421). -/
def stagingRoom : Nat := 56

/-- A packet that arrives at clk c joins those that wait: of one clk, channel 0 before channel 1 (R324). -/
def joinArrivals (c : Nat) (p : Pkt) (l : List (Nat × Pkt)) : List (Nat × Pkt) :=
  let after (x : Nat × Pkt) : Bool := p.ch == 0 && x.1 == c && x.2.ch == 1
  (l.filter fun x => !after x) ++ [(c, p)] ++ l.filter after

/-- A packet waits in the receive buffer, whose credits it holds (R385, R421). -/
def hold (p : Pkt) (s : State) : State :=
  setRxCredit p.ch.toNat (rxCredit s p.ch.toNat - p.flits)
    { s with fab := { s.fab with rxbuf := joinArrivals s.clock.clk p s.fab.rxbuf } }

/-- A packet waits in the staging buffer of an installation; its credits come back (R421). -/
def park (p : Pkt) (s : State) : State := { s with fab := { s.fab with parked := s.fab.parked ++ [p] } }

/-- A packet that has arrived in this clk is processed; the flag adds that it causes stand with those of its channel (R324). -/
def processNow (act : Pkt → State → State) (p : Pkt) (s : State) : State :=
  let n := s.fab.adds.length
  let t := process act p s
  { t with fab := { t.fab with adds := t.fab.adds.mapIdx fun i a => if i ≥ n then { a with rank := 1 + p.ch.toNat } else a } }

/-- A packet at the receive channel: the port held by a reset discards it (R443), a flit without a credit faults (R28), a
packet that cannot be processed in this clk waits in arrival order. -/
def arrive (act : Pkt → State → State) (p : Pkt) (s : State) : State :=
  if !awake s then s
  else if !stepDone s 7 then fabDrop s
  else
    let s := bump 0x141 p.flits s
    if p.flits > rxCredit s p.ch.toNat then raise 0x63 FaultCtx.none s
    else if s.clock.skip || (!s.fab.parked.isEmpty && !installing s) then hold p s
    else if installing s && parkType p.typ then (if s.fab.parked.length < stagingRoom then park p s else hold p s)
    else processNow act p s

/-- A packet row takes its own TYPE, and any packet whose TYPE it cannot trust or that names none (log 20). -/
def rowTakes (t : Nat) (p : Pkt) : Bool := p.typ == t || !knownType p.typ

/-- PUT (R357). -/
def execPutPacket (p : Pkt) (s : State) : Host.Outcome State Fault Refusal :=
  if rowTakes 1 p then .next (arrive putEffect p s) else .next s
/-- GET (R357). -/
def execGetPacket (p : Pkt) (s : State) : Host.Outcome State Fault Refusal :=
  if rowTakes 2 p then .next (arrive getEffect p s) else .next s
/-- GETR (R357). -/
def execGetrPacket (p : Pkt) (s : State) : Host.Outcome State Fault Refusal :=
  if rowTakes 3 p then .next (arrive getrEffect p s) else .next s
/-- ACK (R357). -/
def execAckPacket (p : Pkt) (s : State) : Host.Outcome State Fault Refusal :=
  if rowTakes 4 p then .next (arrive ackEffect p s) else .next s
/-- NACK (R357). -/
def execNackPacket (p : Pkt) (s : State) : Host.Outcome State Fault Refusal :=
  if rowTakes 5 p then .next (arrive nackEffect p s) else .next s
/-- RACC (R357). -/
def execRaccPacket (p : Pkt) (s : State) : Host.Outcome State Fault Refusal :=
  if rowTakes 6 p then .next (arrive raccEffect p s) else .next s
/-- FADD (R323, R357). -/
def execFaddPacket (p : Pkt) (s : State) : Host.Outcome State Fault Refusal :=
  if rowTakes 8 p then .next (arrive faddEffect p s) else .next s
/-- CARRY (R269). -/
def execCarryPacket (p : Pkt) (s : State) : Host.Outcome State Fault Refusal :=
  if rowTakes 9 p then .next (arrive carryEffect p s) else .next s
/-- RCON: a core serves none; the form check answers it (R356). -/
def execRconPacket (p : Pkt) (s : State) : Host.Outcome State Fault Refusal :=
  if rowTakes 0xA p then .next (arrive (fun _ t => t) p s) else .next s
/-- RRES (R378). -/
def execRresPacket (p : Pkt) (s : State) : Host.Outcome State Fault Refusal :=
  if rowTakes 0xB p then .next (arrive rresEffect p s) else .next s
/-- PROBE (R360). -/
def execProbePacket (p : Pkt) (s : State) : Host.Outcome State Fault Refusal :=
  if rowTakes 0xC p then .next (arrive probeEffect p s) else .next s
/-- PROBER (R465). -/
def execProberPacket (p : Pkt) (s : State) : Host.Outcome State Fault Refusal :=
  if rowTakes 0xD p then .next (arrive proberEffect p s) else .next s
/-- RESET (R361). -/
def execResetPacket (p : Pkt) (s : State) : Host.Outcome State Fault Refusal :=
  if rowTakes 0xE p then .next (arrive resetEffect p s) else .next s

/-- A packet processed that has waited; one that meets the port held by a reset is discarded (R443). -/
def processHeld (p : Pkt) (s : State) : State := if stepDone s 7 then process (fun q => effectOf q) p s else fabDrop s

/-- Credits of a packet that leaves the receive buffer come back (R28). -/
def giveCredit (p : Pkt) (s : State) : State := setRxCredit p.ch.toNat (rxCredit s p.ch.toNat + p.flits) s

/-- The next packet of the receive buffer taken, or left there for want of room in the staging buffer (R421). -/
def takeHeld (x : Nat × Pkt) (s : State) : State :=
  if installing s && parkType x.2.typ then
    if s.fab.parked.length < stagingRoom then giveCredit x.2 (park x.2 s)
    else { s with fab := { s.fab with rxbuf := s.fab.rxbuf ++ [x] } }
  else processHeld x.2 (giveCredit x.2 s)

/-- The waiting packets in arrival order: those of the staging buffer once the installation is complete, then those of the receive
buffer (R385, R421); part of the tick. -/
def drainParked (s : State) : State :=
  if s.clock.skip || !stepDone s 7 || !awake s then s
  else
    let ps := if installing s then [] else s.fab.parked
    let t := ps.foldl (fun u p => processHeld p u) { s with fab := { s.fab with parked := s.fab.parked.drop ps.length } }
    t.fab.rxbuf.foldl (fun u x => takeHeld x u) { t with fab := { t.fab with rxbuf := [] } }

end Sys2Proof.Machine
end

