-- ==== Sys2Proof/Machine/Beat.lean ====
section
/-! DEFINITION. The spring's beat, level, halt and droop signals, and what a beat edge does (01_boundary R19 to R27, R35,
10_flags_and_beat R337, R339, 12_management R421, R426, 13_reset_and_power R446, R447, 14_faults_and_recovery R468, R469). -/

namespace Sys2Proof.Machine

/-! ## What pond_halt undoes (R23) -/

/-- What the edge or the commit of this clk finds is kept for a rise of pond_halt in the same clk. -/
def keepUndo (s : State) : State :=
  match s.undo with
  | some _ => s
  | none =>
    { s with undo := some ⟨s.s63, s.issue, s.sync.holdMax, s.cnt, s.fab.active, s.fab.commit, s.pwr, s.err.fresh, s.st.failNow⟩ }

/-- The counters without the beat edge of this clk (source 0x005, R428) and its snapshot. -/
def Cnt.undoEdge (old now : Cnt) : Cnt :=
  let mine := (List.range 16).filter fun i => now.sel.getD i 0 == 5
  let m := mine.foldl (fun a i => a + (1 <<< i)) 0
  { now with
    val := now.val.mapIdx fun i v => if mine.contains i then old.val.getD i 0 else v
    ovf := ((now.ovf ||| m) ^^^ m) ||| (old.ovf &&& m)
    snaps := old.snaps
    cycSnap := old.cycSnap
    snapBeat := old.snapBeat }

/-- The beat edge and the commit of a clk in which pond_halt is 1 have not happened (R23): the beat number, the stop and its mark,
the in-force copy of BEAT_HOLD_MAX, the counters' snapshot, the route table in force, the level and the errors they raised. -/
def undoEdge (s : State) : State :=
  match s.undo with
  | none => s
  | some u =>
    { s with
      undo := none
      s63 := u.s63
      issue := { s.issue with stop := u.issue.stop, mark := u.issue.mark, act := u.issue.act, mayEnter := u.issue.mayEnter
                              resumeAt := u.issue.resumeAt, lastEdge := u.issue.lastEdge, idleRun := u.issue.idleRun }
      sync := { s.sync with holdMax := u.holdMax }
      cnt := u.cnt.undoEdge s.cnt
      fab := { s.fab with active := u.active, commit := u.commit }
      pwr := { s.pwr with state := u.pwr.state, hwhy := u.pwr.hwhy, level := u.pwr.level, target := u.pwr.target, ready := u.pwr.ready
                          vout := u.pwr.vout, slewFrom := u.pwr.slewFrom, slewAt := u.pwr.slewAt, awaitCommit := u.pwr.awaitCommit }
      err := { s.err with fresh := s.err.fresh.filter fun f => u.fresh.contains f || !(f.code == 0x86 || f.code == 0xA3) }
      st := { s.st with failNow := u.failNow } }

/-! ## Level and regulator (R24, R25, R27, R446) -/

/-- The regulator output in 0.1 mV: in each whole ref_clk after the move of its target it moves by 0.1 mV, which is 10 mV/µs,
toward it (R24). -/
def voltNow (s : State) : Nat :=
  let d := s.clock.refc - s.pwr.slewAt - 1
  let t := 50 * s.pwr.vout
  if s.pwr.slewFrom ≤ t then min t (s.pwr.slewFrom + d) else max t (s.pwr.slewFrom - d)

/-- The regulator target and pl_ready follow the level in force and the clamped pl_target (R24, R25). -/
def retarget (s : State) : State :=
  let t := min s.pins.plTarget.toNat (plLimit s)
  let s := { s with pwr := { s.pwr with target := BitVec.ofNat 2 t } }
  if voltTarget s ≠ s.pwr.vout then
    { s with pwr := { s.pwr with vout := voltTarget s, slewFrom := voltNow s, slewAt := s.clock.refc, ready := false } }
  else if s.pins.plTarget.toNat > plLimit s then { s with pwr := { s.pwr with ready := false } }
  else s

/-- The core listens to the spring: its receiver is released and it is awake (R446). -/
def rcvUp (s : State) : Bool := stepDone s 8 && awake s

/-- PL_TARGET_CHANGE (R24). -/
def execPlTargetChange (level : BitVec 2) (s : State) : Host.Outcome State Fault Refusal :=
  let t := { s with pins := { s.pins with plTarget := level } }
  .next (if rcvUp s then retarget t else t)

/-- PL_BREACH (R25, R460): pl_target and the level in force. -/
def plBreach (s : State) : State :=
  raise 0x86 (FaultCtx.args s.pins.plTarget.toNat s.pwr.level.toNat) s

/-- PL_COMMIT: with beat_edge the clamped pl_target is in force from this clk; a raise at pl_ready 0, or a commit without
beat_edge, is a breach (R23, R25, R446). -/
def execPlCommit (edge : Bool) (s : State) : Host.Outcome State Fault Refusal :=
  if s.pins.pondHalt || !rcvUp s then .next s
  else if !edge then .next (plBreach (keepUndo s))
  else
    let s := keepUndo s
    let t := min s.pins.plTarget.toNat (plLimit s)
    let u := if t > s.pwr.level.toNat && !s.pwr.ready then plBreach s else s
    .next (retarget { u with pwr := { u.pwr with level := BitVec.ofNat 2 t, awaitCommit := false } })

/-- PL_READY_RISE: the slew has ended at the voltage of a pl_target within the limit (R24, R25). -/
def execPlReadyRise (s : State) : Host.Outcome State Fault Refusal :=
  if !s.pwr.ready && rcvUp s && !s.pwr.mode && decide (s.pins.plTarget.toNat ≤ plLimit s) && voltNow s == 50 * s.pwr.vout then
    .next { s with pwr := { s.pwr with ready := true } }
  else .next s

/-! ## pond_halt (R23) -/

/-- POND_HALT_RISE: a beat edge or a commit of the same clk does not count, the engines stop, the core leaves beat service, core_late is 0
(R20, R23). -/
def execPondHaltRise (s : State) : Host.Outcome State Fault Refusal :=
  let s := undoEdge s
  let t := lowerLate { s with pins := { s.pins with pondHalt := true }, issue := { s.issue with service := false } }
  .next (haltEngines t)

/-- POND_HALT_FALL (R23). -/
def execPondHaltFall (s : State) : Host.Outcome State Fault Refusal :=
  .next { s with pins := { s.pins with pondHalt := false } }

/-! ## Droop throttling (R35, R339) -/

/-- The clk in progress lies in a window, or one is about to begin (R339). -/
def inWindow (s : State) : Bool :=
  s.clock.winFirst.isSome && (match s.clock.winLast with | some l => decide (s.clock.clk ≤ l) | none => true)

/-- DROOP_ALERT_RISE: a window opens 2 to 4 clk later, or the present one is extended. In Shallows and Off no clk runs that could be
skipped, and an alert that is still high at the wake opens no window (DESIGN CHOICE, log 91). -/
def execDroopAlertRise (s : State) : Host.Outcome State Fault Refusal :=
  let t := { s with pins := { s.pins with droopAlert := true } }
  if s.pins.droopAlert || !awake s then .next t
  else if inWindow s then .next { t with clock := { t.clock with winLast := none } }
  else
    let (k, u) := freshNat 2 4 t
    .next { u with clock := { u.clock with winFirst := some (u.clock.clk + k), winLast := none } }

/-- DROOP_ALERT_FALL: the last clk of the window lies 16 to 19 clk later. -/
def execDroopAlertFall (s : State) : Host.Outcome State Fault Refusal :=
  let t := { s with pins := { s.pins with droopAlert := false } }
  if s.pins.droopAlert && s.clock.winFirst.isSome then
    let (k, u) := freshNat 16 19 t
    .next { u with clock := { u.clock with winLast := some (u.clock.clk + k) } }
  else .next t

/-- DROOP_WINDOW_END: the window's last clk has passed. -/
def execDroopWindowEnd (s : State) : Host.Outcome State Fault Refusal :=
  match s.clock.winLast with
  | some l =>
    if l < s.clock.clk then .next { s with clock := { s.clock with skip := false, winFirst := none, winLast := none } }
    else .next s
  | none => .next s

/-- Droop throttling skips clk c: the window's first clk and every second one after it (R339). -/
def skips (k : Clocks) (c : Nat) : Bool :=
  match k.winFirst with
  | some f => decide (f ≤ c) && (c - f) % 2 == 0 && (match k.winLast with | some l => decide (c ≤ l) | none => true)
  | none => false

/-! ## beat_due (R19, R421, R469) -/

/-- The stop, or the missing mark, makes the core late at this beat_due (R19, R421, R469). -/
def lateAtDue (s : State) : Bool :=
  match s.issue.stop with
  | .none => s.issue.service && !s.issue.mark
  | .actRun _ _ _ => s.issue.service && !s.issue.mark
  | .imgWait _ _ edges => decide (edges ≥ 1)
  | .imgRun _ _ edges _ => decide (edges ≥ 1)
  | .ckptWait _ _ edges => decide (edges ≥ stopBeats s)
  | .ckptReady _ _ edges nb => decide (edges ≥ nb)
  | .ckptCopy _ _ edges nb => decide (edges + 1 ≥ nb)
  | .ckptDone _ _ _ _ => false
  | .imgDone _ _ => false
  | .holdWait _ => false
  | .hold _ => false

/-- BEAT_DUE: the beat's length is known (R21), and a late core raises core_late (R19). -/
def execBeatDue (s : State) : Host.Outcome State Fault Refusal :=
  if s.pins.pondHalt || !rcvUp s then .next s
  else
    let t := { s with issue := { s.issue with beatLen := s.clock.clk - s.issue.lastEdge + 4, lastDue := some s.clock.clk } }
    if !halted s && !s.out.coreLate && lateAtDue s then
      .next { t with out := { t.out with coreLate := true }, issue := { t.issue with lateRun := 0 } }
    else .next t

/-- BEAT_OVERRUN: core_late has been 1 for more than BEAT_HOLD_MAX clk (R22, R337). -/
def execBeatOverrun (s : State) : Host.Outcome State Fault Refusal :=
  if s.out.coreLate && decide (s.issue.lateRun ≥ s.sync.holdMax + 1) then .next (raise 0x80 FaultCtx.none s) else .next s

/-! ## beat_edge -/

/-- The swap of the active and the shadow route table (R352). -/
def routeSwap (s : State) : State := { s with fab := { s.fab with active := !s.fab.active, commit := false } }

/-- The counter snapshot of a beat edge, from before this clk's increments (R426). -/
def snapCounters (s : State) : State :=
  if s.cnt.snap then { s with cnt := { s.cnt with snaps := s.cnt.base, cycSnap := s.cnt.cyc } } else s

/-- S63 after a beat edge: not incremented in a clk in which BEAT_NO sets it (R119, R139). -/
def beatNumber (s : State) : State :=
  if stepDone s 9 && s.issue.s63Set != some s.clock.clk then { s with s63 := s.s63 + 1 } else s

/-- Hold ends (R20, R140, R447). -/
def leaveHold (s : State) : State :=
  { s with
    issue := { s.issue with stop := .none, mayEnter := true, resumeAt := none, idleRun := 0 }
    pwr := { s.pwr with state := if s.pwr.state = 2 then 1 else s.pwr.state, hwhy := 0 } }

/-- A RESUME accepted before this clk ends a Hold entered at an earlier edge (R140). -/
def resumes (s : State) (e0 : Nat) : Bool :=
  match s.issue.resumeAt with
  | some r => decide (r < s.clock.clk) && decide (e0 < s.clock.clk)
  | none => false

/-- Stop x stands. -/
def setStop (x : Stop) (s : State) : State := { s with issue := { s.issue with stop := x } }

/-- The restart edge of a checkpoint stop (R468): issue restarts; a failed self-test faults with ST_FAIL (R487). -/
def ckptRestart (s : State) : State :=
  let t := setStop .none { s with pwr := { s.pwr with state := 1, hwhy := 0 } }
  if t.st.failNow then
    raise 0xA3 ⟨none, none, none, stStatusWord t, 0⟩ { t with st := { t.st with failNow := false } }
  else t

/-- A stop with ARG 0 takes the self-test that is queued (R486). -/
def takeTest (s : State) : State :=
  match s.st.queued with
  | some cmd => { s with st := { s.st with queued := none, stopTest := some cmd } }
  | none => s

/-- The action of the mark that ends this beat (R20, R128, R140, R421, R468). A CKPT mark waits out an installation. -/
def markEdge (s : State) : State :=
  if !s.issue.mark then s
  else
    let c := s.clock.clk
    let done (t : State) : State := { t with issue := { t.issue with mark := false, act := none } }
    match s.issue.act, s.issue.stop with
    | some .hold, .actRun slot _ due => done { s with issue := { s.issue with stop := .actRun slot (some c) due, service := false } }
    | some .hold, _ => done { s with issue := { s.issue with stop := .holdWait c, service := false } }
    | some (.imgsw slot), _ => done (setStop (.imgWait slot c 0) s)
    | some (.ckpt _), .actRun _ _ _ => s
    | some (.ckpt snap), _ => done (setStop (.ckptWait snap c 0) (if snap then s else takeTest s))
    | _, _ => done s

/-- What the edge does to the stop in progress, or to the mark of the beat it ends. -/
def stopEdge (s : State) : State :=
  match s.issue.stop with
  | .none => markEdge s
  | .holdWait e0 => if resumes s e0 then leaveHold s else s
  | .hold e0 => if resumes s e0 then leaveHold s else s
  | .imgWait slot e0 edges => setStop (.imgWait slot e0 (edges + 1)) s
  | .imgRun slot e0 edges due => setStop (.imgRun slot e0 (edges + 1) due) s
  | .imgDone e0 edges =>
    if edges + 1 ≥ 2 then setStop .none { s with pwr := { s.pwr with state := 1, hwhy := 0 } }
    else setStop (.imgDone e0 (edges + 1)) s
  | .actRun slot held due =>
    match held with
    | some e0 => if resumes s e0 then setStop (.actRun slot none due) (leaveHold s) else s
    | none => markEdge s
  | .ckptWait snap e0 edges => setStop (.ckptWait snap e0 (edges + 1)) s
  | .ckptReady snap e0 _ nb => setStop (.ckptCopy snap e0 0 nb) s
  | .ckptCopy snap e0 edges nb => setStop (.ckptCopy snap e0 (edges + 1) nb) s
  | .ckptDone snap e0 edges nb =>
    if edges + 1 ≥ nb && s.st.run.isNone then ckptRestart s else setStop (.ckptDone snap e0 (edges + 1) nb) s

/-- BEAT_EDGE: the next beat starts (R10, R20, R119, R128, R337, R352, R426). pond_halt makes the core ignore it (R23). -/
def execBeatEdge (s : State) : Host.Outcome State Fault Refusal :=
  if s.pins.pondHalt || !rcvUp s then .next s
  else
    let s := keepUndo s
    let t := bump 0x005 1 (beatNumber (snapCounters s))
    let t := if t.cnt.snap then { t with cnt := { t.cnt with snapBeat := t.s63 } } else t
    let t := { t with issue := { t.issue with lastEdge := s.clock.clk }, sync := { t.sync with holdMax := t.sync.holdMaxReg } }
    let t := if t.fab.commit && !installing t then routeSwap t else t
    let t := synBeatEdge t
    .next (if t.out.coreFault then t else stopEdge t)

/-! ## Hold and Idle (R447) -/

/-- HOLD_ENTRY: the work issued before the HOLD mark has completed (R447). -/
def execHoldEntry (s : State) : Host.Outcome State Fault Refusal :=
  match s.issue.stop with
  | .holdWait e0 =>
    if workDone s && !halted s then .next (setStop (.hold e0) { s with pwr := { s.pwr with state := 2, hwhy := 0 } })
    else .next s
  | _ => .next s

/-- IDLE_ENTRY: 32 consecutive clk with nothing issuable and nothing in flight (R447). -/
def execIdleEntry (s : State) : Host.Outcome State Fault Refusal :=
  if s.pwr.state = 0 ∧ s.issue.idleRun ≥ 32 then .next { s with pwr := { s.pwr with state := 1 } } else .next s

end Sys2Proof.Machine
end

