-- ==== Sys2Proof/Machine/Image.lean ====
section
/-! DEFINITION. Shape images (12_management R412 to R423, R427, 13_reset_and_power R454): the check, loading, activation and
installation. -/

namespace Sys2Proof.Machine

/-! ## Sections (R412, R413) -/

/-- A section: tag, flags, value. -/
structure Sect where
  tag : Nat
  flags : Nat
  val : List Byte
  deriving DecidableEq, Repr

/-- The first n sections of a byte list and the bytes after them; none where one overruns or its CRC fails (R150, R416). -/
def sections : Nat → List Byte → Option (List Sect × List Byte)
  | 0, bs => some ([], bs)
  | n + 1, bs =>
    let len := hdrField bs 4 4
    let pad := (len + 3) / 4 * 4
    if bs.length < 12 + pad then none
    else if crc32c (bs.take (8 + pad)) ≠ word (hdrField bs (8 + pad) 4) then none
    else match sections n (bs.drop (12 + pad)) with
      | some (l, r) => some (⟨hdrField bs 0 2, hdrField bs 2 2, (bs.drop 8).take len⟩ :: l, r)
      | none => none

/-- The required tags. -/
def tagsRequired : List Nat := [0x101, 0x102, 0x103, 0x104, 0x105, 0x107, 0x108]
/-- The optional tags. -/
def tagsOptional : List Nat := [0x106, 0x109, 0x10A]

/-- The set of sections is one that R413 allows, with FLAGS 0. -/
def setOk (l : List Sect) : Bool :=
  l.all (fun x => x.flags == 0 && (tagsRequired ++ tagsOptional).contains x.tag) &&
    tagsRequired.all (fun t => (l.filter fun x => x.tag == t).length == 1) &&
    tagsOptional.all (fun t => decide ((l.filter fun x => x.tag == t).length ≤ 1))

/-- The value of a tag, if the section is there. -/
def sectVal (l : List Sect) (t : Nat) : Option (List Byte) := (l.find? fun x => x.tag == t).map (·.val)

/-- The words of a tag's value. -/
def sectWords (l : List Sect) (t : Nat) : List Word :=
  match sectVal l t with
  | some v => bytesWords (v.length / 4) v
  | none => []

/-! ## Contents (R105, R106, R159, R218, R245, R282, R351, R414, R454) -/

/-- A channel table entry (R105). -/
def chanOfNat (n : Nat) : ChanEntry :=
  ⟨fld n 63 60, fld n 59 56, fld n 55 52, fld n 51 50, fld n 49 46, fld n 45 36, fld n 35 26⟩

/-- A pool area (R282). -/
def areaOfWord (w : Word) : Area := ⟨wfld w 5 0, wfld w 12 6, wbit w 31⟩

/-- A function table from its 1,032 words (R245). -/
def tableOfWords (ws : List Word) : FTable :=
  let h := ws.getD 0 0
  ⟨wfld h 31 28, wfld h 27 26, wfld h 25 24, ws.getD 1 0, ws.getD 2 0, ws.getD 3 0, ws.getD 4 0, ws.getD 5 0, ws.getD 6 0,
    ws.getD 7 0, ws.drop 8⟩

/-- The tables that LOADED names, from the words that follow it. -/
def tablesOf (loaded : Nat) : Nat → Nat → List Word → List (Option FTable)
  | 0, _, _ => []
  | n + 1, i, ws =>
    if loaded.testBit i then some (tableOfWords (ws.take 1032)) :: tablesOf loaded n (i + 1) (ws.drop 1032)
    else none :: tablesOf loaded n (i + 1) ws

/-- The power map (R453): five words. -/
def powerOf (ws : List Word) : Nat := leNat (wordsBytes (ws.take 5))

/-- The image that well-formed sections spell. -/
def imageOf (l : List Sect) (hash : Nat) : Image :=
  let chans := (List.range 56).map fun i => chanOfNat (hdrField ((sectVal l 0x103).getD []) (8 * i) 8)
  let ft := sectWords l 0x106
  let rt := sectWords l 0x10A
  { fuse := wbit ((sectWords l 0x101).getD 0 0) 0
    areas := ((sectWords l 0x102).take 5).map areaOfWord
    chans := chans.map fun c => if c.kind = 0 then ChanEntry.unused else c
    lanes := ((sectWords l 0x104).getD 0 0).toNat
    formats := ((sectWords l 0x105).getD 0 0).toNat
    ftables := tablesOf (ft.getD 0 0).toNat 8 0 ft.tail
    power := powerOf (sectWords l 0x107)
    plimit := ((sectWords l 0x108).getD 0 0).toNat
    counters := (sectVal l 0x109).map fun _ => (sectWords l 0x109).map BitVec.toNat
    routes := (sectVal l 0x10A).map fun _ => (wfld (rt.getD 0 0) 11 0, rt.tail)
    hash := hash }

/-- The section lengths of R413. -/
def lensOk (l : List Sect) : Bool :=
  let len (t : Nat) : Nat := ((sectVal l t).getD []).length
  let w0 (t : Nat) : Word := (sectWords l t).getD 0 0
  len 0x101 == 4 && len 0x102 == 32 && len 0x103 == 448 && len 0x104 == 4 && len 0x105 == 4 && len 0x107 == 20 && len 0x108 == 4 &&
    (!(sectVal l 0x106).isSome || (decide (len 0x106 ≥ 4) && len 0x106 == 4 + 4128 * popcount 8 (w0 0x106).toNat)) &&
    (!(sectVal l 0x109).isSome || len 0x109 == 64) &&
    (!(sectVal l 0x10A).isSome || (decide (len 0x10A ≥ 4) && len 0x10A == 4 + 4 * wfld (w0 0x10A) 28 16))

/-- The counter sources of R428. -/
def srcKnown (n : Nat) : Bool :=
  decide (n ≤ 0x008) || (decide (0x010 ≤ n) && decide (n ≤ 0x016)) || (decide (0x018 ≤ n) && decide (n ≤ 0x01D)) ||
    (decide (0x020 ≤ n) && decide (n ≤ 0x021)) || (decide (0x028 ≤ n) && decide (n ≤ 0x02A)) ||
    (decide (0x030 ≤ n) && decide (n ≤ 0x033)) || (decide (0x040 ≤ n) && decide (n ≤ 0x13F)) ||
    (decide (0x140 ≤ n) && decide (n ≤ 0x142)) || (decide (0x150 ≤ n) && decide (n ≤ 0x155)) ||
    (decide (0x160 ≤ n) && decide (n ≤ 0x165))

/-- Reserved bits are 0, and reserved codes are not used. -/
def reservedOk (l : List Sect) : Bool :=
  let w (t i : Nat) : Word := (sectWords l t).getD i 0
  let rt := sectWords l 0x10A
  decide ((w 0x101 0).toNat < 2) &&
    ((sectWords l 0x102).take 5).all (fun x => wfld x 30 13 == 0) &&
    ((sectWords l 0x102).drop 5).all (· == 0) &&
    (List.range 56).all (fun i => fld (hdrField ((sectVal l 0x103).getD []) (8 * i) 8) 25 0 == 0) &&
    decide ((w 0x105 0).toNat < 4096) && wbit (w 0x105 0) 0 && wbit (w 0x105 0) 1 &&
    decide ((w 0x106 0).toNat < 256) && decide ((w 0x107 4).toNat < 2) && decide ((w 0x108 0).toNat < 4) &&
    (sectWords l 0x109).all (fun x => srcKnown x.toNat) &&
    (!(sectVal l 0x10A).isSome ||
      (wfld (w 0x10A 0) 15 12 == 0 && wfld (w 0x10A 0) 31 29 == 0 && decide (1 ≤ wfld (w 0x10A 0) 28 16) &&
        decide (wfld (w 0x10A 0) 28 16 ≤ 4096) && decide (wfld (w 0x10A 0) 11 0 + wfld (w 0x10A 0) 28 16 ≤ 4096) &&
        rt.tail.all fun x => wfld x 28 24 == 0))

/-- Domain d is on in a power map. -/
def on (power d : Nat) : Bool := power.testBit d
/-- Domains lo to lo + n − 1 are all on. -/
def onAll (power lo n : Nat) : Bool := (List.range n).all fun i => power.testBit (lo + i)
/-- Domains lo to lo + n − 1 are all off. -/
def offAll (power lo n : Nat) : Bool := (List.range n).all fun i => !power.testBit (lo + i)

/-- The partition (R282): ranges, shared banks, banks powered. -/
def partitionOk (im : Image) : Bool :=
  let ar := im.areas
  ar.all (fun a => decide (a.nb ≤ 64) && decide (a.first + a.nb ≤ 64) && (a.nb != 0 || a.first == 0) && onAll im.power a.first a.nb) &&
    (List.range 64).all fun b => decide ((ar.filter fun a => decide (a.first ≤ b) && decide (b < a.first + a.nb)).length ≤ 1)

/-- Endpoint codes that may produce on a channel of this kind (R106); count: KIND 0b10. -/
def prodOk (count : Bool) (p : Nat) : Bool :=
  if count then [3, 9, 0xD].contains p else [1, 2, 3, 4, 5, 7, 8, 9, 0xA, 0xC].contains p
/-- Endpoint codes that may consume (R106). -/
def consOk (count : Bool) (c : Nat) : Bool :=
  if count then [3, 4, 9, 0xB, 0xD].contains c else [1, 2, 3, 4, 6, 7, 8, 9, 0xA, 0xB].contains c

/-- The domains of an endpoint are on (R416, R453), and its unit is present (R43). -/
def endpointOn (c : Cfg) (im : Image) (e : Nat) : Bool :=
  let p := im.power
  let arr (a : Nat) : Bool := onAll p (64 + 4 * a) 4
  match e with
  | 1 => arr 0 && (!c.wide || arr 2) && (!(c.wide && im.fuse) || (arr 1 && arr 3))
  | 2 => arr 1 && (!c.wide || arr 3)
  | 4 => on p 121
  | 7 => on p 117
  | 8 => c.tb1 && on p 118
  | 9 => on p 119
  | 0xA => c.acmp && on p 120
  | 0xB => on p 126
  | 0xC => on p 126
  | _ => true

/-- A used channel table entry (R105, R106, R454). -/
def chanOk (c : Cfg) (im : Image) (x : ChanEntry) : Bool :=
  let count := x.kind == 2
  let last := x.base + x.depth
  x.kind != 3 && decide (x.width ≤ 4) && decide (last < 1024) && prodOk count x.prod && consOk count x.cons0 &&
    (x.cons1 == 15 || consOk count x.cons1) && (x.prod != x.cons0 || x.prod == 3) &&
    endpointOn c im x.prod && endpointOn c im x.cons0 && (x.cons1 == 15 || endpointOn c im x.cons1) &&
    (decide (x.base ≥ 512) || on im.power 123) && (decide (last < 512) || on im.power 124)

/-- No line belongs to two used entries. -/
def linesDisjoint : List ChanEntry → Bool
  | [] => true
  | x :: t => t.all (fun y => decide (x.base + x.depth < y.base) || decide (y.base + y.depth < x.base)) && linesDisjoint t

/-- The channel table (R105, R106). -/
def chansOk (c : Cfg) (im : Image) : Bool :=
  let used := im.chans.filter fun x => x.kind != 0
  used.all (chanOk c im) && linesDisjoint used && decide ((used.filter fun x => x.cons1 != 15).length ≤ 4)

/-- The lane groups (R218): groups 0 to G − 1, powered. -/
def lanesOk (c : Cfg) (im : Image) : Bool :=
  ([4, 8, 16] ++ (if c.vw256 then [32] else [])).any fun g => im.lanes == 2 ^ g - 1 &&
    (List.range g).all fun i => on im.power (80 + i)

/-- A loadable table (R245). -/
def ftableOk (t : FTable) : Bool :=
  let fin (w : Word) : Bool := !(f32 w).nonfinite
  decide (t.red ≤ 2) && t.loTail != 3 && t.hiTail != 3 && fin t.dLo && fin t.scale && fin t.dHi && fin t.loVal && fin t.loSlope &&
    fin t.hiVal && fin t.hiSlope && (FVal.zero false).lt (f32 t.scale) && (f32 t.dLo).lt (f32 t.dHi)

/-- The loadable tables and their header words' reserved bits; the function unit is powered (R245, R416). -/
def ftablesOk (l : List Sect) (im : Image) : Bool :=
  !(sectVal l 0x106).isSome ||
    (on im.power 112 && im.ftables.all (fun t => match t with | some t => ftableOk t | none => true) &&
      (List.range (popcount 8 ((sectWords l 0x106).getD 0 0).toNat)).all fun i =>
        wfld ((sectWords l 0x106).getD (1 + 1032 * i) 0) 23 0 == 0)

/-- The power map (R43, R453, R454). -/
def powerOk (c : Cfg) (im : Image) : Bool :=
  let p := im.power
  onAll p 125 4 && (List.range 4).all (fun a => onAll p (64 + 4 * a) 4 || offAll p (64 + 4 * a) 4) &&
    (c.wide || offAll p 72 8) && (c.vw256 || offAll p 96 16) && (c.tb1 || !on p 118) && (c.acmp || !on p 120)

/-- SCONT passes (R416). -/
def contentOk (c : Cfg) (l : List Sect) : Bool :=
  let im := imageOf l 0
  lensOk l && reservedOk l && (c.wide || !im.fuse) && partitionOk im && chansOk c im && lanesOk c im && ftablesOk l im && powerOk c im

/-! ## The check (R416) -/

/-- The header is well formed: MAGIC, VERSION, NSECT and the reserved bytes; TARGET is compared whole afterwards. -/
def imgHeaderOk (bs : List Byte) : Bool :=
  bs.take 4 == [0x43, 0x59, 0x4E, 0x53] && hdrField bs 4 2 == 1 && hdrField bs 6 2 == 0 && decide (7 ≤ hdrField bs 0x0C 2) &&
    decide (hdrField bs 0x0C 2 ≤ 10) && hdrField bs 0x0E 2 == 0 && hdrField bs 0x34 12 == 0

/-- The status of a loaded image against an expected hash: 3 VALID or the first failure; the body's hash; the image. -/
def checkImage (c : Cfg) (expect : Nat) (bs : List Byte) : Nat × Nat × Option Image :=
  let len := hdrField bs 8 4
  if bs.length ≠ len ∨ len % 4 ≠ 0 ∨ len < 64 ∨ 65536 < len then (0xF, 0, none)
  else if !imgHeaderOk bs then (8, 0, none)
  else if hdrField bs 0x10 4 ≠ structId c then (9, 0, none)
  else
    let body := bs.drop 64
    let h := sha256 body
    let hash := leNat h
    if h ≠ (bs.drop 0x14).take 32 then (0xA, hash, none)
    else if hash ≠ expect then (0xB, hash, none)
    else match sections (hdrField bs 0x0C 2) body with
      | none => (0xC, hash, none)
      | some (l, rest) =>
        if !rest.isEmpty then (0xC, hash, none)
        else if !setOk l then (0xD, hash, none)
        else if !contentOk c l then (0xE, hash, none)
        else (3, hash, some (imageOf l hash))

/-! ## Slots and loading (R417 to R420) -/

/-- The state after a register access and the NACK code it meets (R394); 0 is ACK. -/
abbrev RegRes := State × Nat

/-- A slot: false A, true B. -/
def imgSlot (s : State) (slot : Bool) : ImgSlot := if slot then s.img.b else s.img.a

/-- A slot replaced. -/
def setImgSlot (slot : Bool) (x : ImgSlot) (s : State) : State :=
  if slot then { s with img := { s.img with b := x } } else { s with img := { s.img with a := x } }

/-- Area x keeps its contents at a switch from one partition to another (R285). -/
def areaKept (a b : List Area) (x : Nat) : Bool :=
  let p := a.getD x ⟨0, 0, false⟩
  let q := b.getD x ⟨0, 0, false⟩
  p.first == q.first && p.nb == q.nb && p.keep && q.keep && p.nb != 0

/-- Every bank of the pool is in a kept area (R285). -/
def allKept (a b : List Area) : Bool :=
  (List.range 64).all fun k => (List.range 5).any fun x =>
    let r := b.getD x ⟨0, 0, false⟩
    areaKept a b x && decide (r.first ≤ k) && decide (k < r.first + r.nb)

/-- Clks of steps 3 to 5 of an installation (R421, R455). -/
def switchClk (s : State) (im : Image) : Nat :=
  let old := s.img.cur
  let up := ((List.range 129).filter fun d => on im.power d && !on old.power d).length
  let tables := 65 * (im.ftables.filter Option.isSome).length
  let banks := if allKept old.areas im.areas then 0 else if s.cfg.wide then 2048 else 1024
  let segs := if onAll old.power 113 4 && onAll im.power 113 4 then 0 else if s.cfg.wide then 512 else 256
  let routes := match im.routes with
    | some (_, l) => ceilDiv l.length 16
    | none => 0
  64 + (if up = 0 then 0 else 16 * ceilDiv up 8 + 32) + max (max tables banks) (max segs routes)

/-- The clk in which an installation that begins now is complete. -/
def installDue (s : State) (slot : Bool) : Nat :=
  match (imgSlot s slot).image with
  | some im => s.clock.clk + switchClk s im - 1
  | none => s.clock.clk

/-- The slot that an ACTIVATE is installing. -/
def activating (s : State) : Option Bool :=
  match s.issue.stop with
  | .actRun slot _ _ => some slot
  | _ => none

/-- Word w of a slot in the list of the image store's words with wrong bits. -/
def imgKey (slot : Bool) (w : Nat) : Nat := 8192 * b2n slot + w

/-- The words of a slot that hold wrong bits. -/
def imgFlaws (slot : Bool) (s : State) : List (Nat × Nat) :=
  s.imgUpset.filter fun p => decide (imgKey slot 0 ≤ p.1) && decide (8 * (p.1 - imgKey slot 0) < (imgSlot s slot).bytes.length)

/-- A slot is read from the store, which is critical state (R416): whether it could be used. -/
def imgRead (slot : Bool) (s : State) : State × Bool := critReads (imgFlaws slot s) s

/-- A slot in force, or the target of a pending switch (R418, R420). -/
def slotInUse (s : State) (slot : Bool) : Bool :=
  (s.img.infV && s.img.inf == slot) || (s.img.pend && s.img.pslot == slot) || activating s == some slot

/-- The hash register of a slot, eight words. -/
def slotHash (s : State) (slot : Bool) : List Word := if slot then s.img.hashB else s.img.hashA

/-- BEGIN (R418). -/
def imgBeginReg (slot : Bool) (s : State) : RegRes :=
  let o := (imgSlot s !slot).status
  if slotInUse s slot || o == 1 || o == 2 then (s, 5)
  else
    let t := setImgSlot slot ⟨1, [], none, 0⟩ { s with imgUpset := s.imgUpset.filter fun p => p.1 / 8192 != b2n slot }
    ({ t with img := { t.img with bytes := 0 } }, 0)

/-- END (R418). -/
def imgEndReg (slot : Bool) (s : State) : RegRes :=
  let x := imgSlot s slot
  if x.status = 1 then (setImgSlot slot { x with status := 2 } s, 0) else (s, 7)

/-- ABORT (R418). -/
def imgAbortReg (slot : Bool) (s : State) : RegRes :=
  if slotInUse s slot then (s, 5) else (setImgSlot slot ImgSlot.empty s, 0)

/-- IMG_WINDOW (R418). -/
def imgWindowReg (w : Word) (s : State) : RegRes :=
  let go (slot : Bool) : RegRes :=
    let x := imgSlot s slot
    let n := s.img.bytes + 4
    if n > 65536 || (decide (x.bytes.length ≥ 12) && decide (hdrField x.bytes 8 4 < n)) then
      (setImgSlot slot { x with status := 0xF } s, 7)
    else
      let u := { s with imgUpset := mset 0 s.imgUpset (imgKey slot (x.bytes.length / 8)) 0 }
      let t := setImgSlot slot { x with bytes := x.bytes ++ wordBytes w } u
      ({ t with img := { t.img with bytes := n } }, 0)
  if s.img.a.status = 1 then go false else if s.img.b.status = 1 then go true else (s, 7)

/-- A write of word i of a hash register (R420). -/
def imgHashReg (slot : Bool) (i : Nat) (w : Word) (s : State) : RegRes :=
  let h := slotHash s slot
  if slotInUse s slot && h.getD i 0 != w then (s, 5)
  else
    let h' := h.set i w
    let t := if slot then { s with img := { s.img with hashB := h' } } else { s with img := { s.img with hashA := h' } }
    let x := imgSlot t slot
    if x.status = 3 && !slotInUse s slot && leNat (wordsBytes h') != x.body then (setImgSlot slot { x with status := 0xB } t, 0)
    else (t, 0)

/-- ACTIVATE (R419): the installation begins, from Idle or from a Hold that a HOLD mark began; a core that an installation or a
checkpoint stop reports as Hold (R447) is in neither, nor is one whose release is under way. -/
def activateReg (slot : Bool) (s : State) : RegRes :=
  if (imgSlot s slot).status ≠ 3 then (s, 7)
  else if (s.pwr.state ≠ 1 ∧ s.pwr.state ≠ 2) ∨ !queuesEmpty s ∨ (firstBusyChan s).isSome ∨ s.img.pend ∨ !stepDone s 9 then (s, 5)
  else
    let go (held : Option Nat) : RegRes :=
      ({ s with pwr := { s.pwr with state := 2, hwhy := 2 }, issue := { s.issue with stop := .actRun slot held (installDue s slot) } }, 0)
    match s.issue.stop with
    | .none => go none
    | .hold e0 => go (some e0)
    | .holdWait e0 => go (some e0)
    | _ => (s, 5)

/-- IMAGE_CHECK_COMPLETE: the check of the slot in CHECKING ends (R416). -/
def execImageCheckComplete (s : State) : Host.Outcome State Fault Refusal :=
  let go (slot : Bool) : State :=
    match imgRead slot s with
    | (t, false) => t
    | (t, true) =>
      let x := imgSlot t slot
      let (st, hash, im) := checkImage t.cfg (leNat (wordsBytes (slotHash t slot))) x.bytes
      setImgSlot slot { x with status := st, image := im, body := hash } t
  if !awake s || !stepDone s 5 then .next s
  else if s.img.a.status = 2 then .next (go false) else if s.img.b.status = 2 then .next (go true) else .next s

/-! ## Installation (R285, R421, R423, R427, R477) -/

/-- Bytes of the residue and persistent areas of a partition, in banks. -/
def copyBanks (a : List Area) : Nat := (a.getD 3 ⟨0, 0, false⟩).nb + (a.getD 4 ⟨0, 0, false⟩).nb

/-- The checkpoint's valid bits after a change of partition: kept says whether the channel-spill area kept its contents
(R477). -/
def ckptAfter (sameL kept : Bool) (k : Ckpt) : Ckpt :=
  if sameL && kept then k
  else { k with arm := false, lvalid := false, rvalid := false, rx := none, state := if k.state = 2 then 0 else k.state }

/-- The shadow route table with entries from index i on; an entry written has no wrong bits (R351, R430). -/
def shadowWrite (i : Nat) : List Word → State → State
  | [], s => s
  | w :: ws, s =>
    let s := { s with routeUpset := mset 0 s.routeUpset (4096 * b2n (shadowCopy s) + i) 0 }
    let t := if shadowCopy s then { s with fab := { s.fab with routes1 := mset 0 s.fab.routes1 i w } }
      else { s with fab := { s.fab with routes0 := mset 0 s.fab.routes0 i w } }
    shadowWrite (i + 1) ws t

/-- The owner's writes that wait take effect in order, up to a COPY, which the rest wait for (R352). -/
def routeWrites : List (Option (Nat × Word)) → State → State
  | [], s => { s with fab := { s.fab with waiting := [] } }
  | none :: l, s => { s with fab := { s.fab with copying := true, waiting := l } }
  | some p :: l, s => routeWrites l (shadowWrite p.1 [p.2] s)

/-- The ROUTE_DATA writes and copies that waited take effect, unless a COPY is in progress (R352). -/
def flushRoutes (s : State) : State := if s.fab.copying then s else routeWrites s.fab.waiting s

/-- Operand-cache lines of a segment that is powered in both maps keep their contents (R223). -/
def cacheKeep (p q : Nat) (s : State) : List (Nat × Byte) :=
  s.ocache.filter fun c =>
    let seg := c.1 / (ocLines s / 4 * 64)
    on p (113 + seg) && on q (113 + seg)

/-- n free values of 64 bits in a row, canonical beside d. -/
def freeStore (d : BitVec 64) (n : Nat) (s : State) : List (Nat × BitVec 64) :=
  storeOf d 0 ((List.range n).map fun i => Config.freeValue 64 (s.free + i))

/-- n scale records of free words. -/
def freeScales (n : Nat) (s : State) : List (Nat × ScaleRec) :=
  storeOf ScaleRec.init 0 ((List.range n).map fun i => ScaleRec.ofWords ((List.range 18).map fun w => Config.freeValue 32 (s.free + 18 * i + w)))

/-- The carry registers and the scale slots when their domains switch off: their contents are lost (R455); what they then hold is
free (log 59). -/
def loseUnits (p q : Nat) (s : State) : State :=
  let s := if on p 121 && !on q 121 then { s with crs := freeStore crDefault 64 s, free := s.free + 64 } else s
  if on p 122 && !on q 122 then { s with scales := freeScales 64 s, free := s.free + 1152 } else s

/-- The image of a slot comes into force (R421). -/
def install (slot : Bool) (im : Image) (s : State) : State :=
  let old := s.img.cur
  let bb := bankBytes s
  let keep (a : Nat) : Bool := (List.range 5).any fun x =>
    let r := im.areas.getD x ⟨0, 0, false⟩
    areaKept old.areas im.areas x && decide (r.first * bb ≤ a) && decide (a < (r.first + r.nb) * bb)
  let t := loseUnits old.power im.power (poolKeep keep s)
  let t := { t with
    pool := { t.pool with patrolRow := if old.power % 2 ^ 64 = im.power % 2 ^ 64 then t.pool.patrolRow else [] }
    ocache := cacheKeep old.power im.power t
    ocUpset := t.ocUpset.filter fun c => let seg := c.1 / (ocLines t / 4 * 8); on old.power (113 + seg) && on im.power (113 + seg)
    mxa := { t.mxa with acc := [], isOpen := false }
    mxb := { t.mxb with acc := [], isOpen := false }
    turn := Turn.init
    cnt := match im.counters with
      | some l => if t.cnt.keep then t.cnt else { t.cnt with sel := l }
      | none => t.cnt
    ckpt := ckptAfter (copyBanks old.areas == copyBanks im.areas) (areaKept old.areas im.areas 1) t.ckpt
    img := { t.img with cur := im, infV := true, inf := slot, pend := false } }
  let t := match im.routes with
    | some (f, l) =>
      let u := shadowWrite f l t
      { u with fab := { u.fab with active := !u.fab.active } }
    | none => t
  retarget (flushRoutes (lowerLate t))

/-- IMAGE_INSTALL_START: the work issued before an IMGSW mark has completed (R421 steps 1 and 2). -/
def execImageInstallStart (s : State) : Host.Outcome State Fault Refusal :=
  match s.issue.stop with
  | .imgWait slot e0 edges =>
    if !workDone s || halted s then .next s
    else
      let st := (imgSlot s slot).status
      let busy (t : State) : State := match firstBusyChan s with
        | some c => raise 0x0F (FaultCtx.args (b2n slot) c) t
        | none => t
      if st ≠ 3 then .next (busy (raise 0xA0 (FaultCtx.args (b2n slot) st) (setStop .none s)))
      else if (firstBusyChan s).isSome then .next (busy (setStop .none s))
      else .next (setStop (.imgRun slot e0 edges (installDue s slot)) { s with pwr := { s.pwr with state := 2, hwhy := 2 } })
  | _ => .next s

/-- The installation of a slot's image: the store is read (R416) and, where it can be used, the image comes into force and the
stop becomes x. -/
def installSlot (slot : Bool) (due : Nat) (x : Stop) (after : State → State) (s : State) : State :=
  match (imgSlot s slot).image with
  | none => s
  | some im =>
    if s.clock.clk < due then s
    else match imgRead slot s with
      | (t, false) => t
      | (t, true) => setStop x (after (install slot im t))

/-- Idle or Hold is reported after an ACTIVATE's installation. -/
def actEnd (held : Option Nat) (s : State) : State :=
  { s with pwr := { s.pwr with state := if held.isSome then 2 else 1, hwhy := 0 } }

/-- INSTALLATION_COMPLETE (R421): once the steps' time has passed the image is in force; a switch waits for its restart edge, an ACTIVATE returns to the Idle
or the Hold it began from. -/
def execInstallationComplete (s : State) : Host.Outcome State Fault Refusal :=
  match s.issue.stop with
  | .imgRun slot e0 edges due => .next (installSlot slot due (.imgDone e0 edges) id s)
  | .actRun slot held due =>
    .next (installSlot slot due (match held with | some e0 => .hold e0 | none => .none) (actEnd held) s)
  | _ => .next s

end Sys2Proof.Machine
end

