-- ==== Sys2Proof/Machine/Mgmt.lean ====
section
/-! DEFINITION. Writes of the management window (12_management R396, R400 to R420, R424, 13_reset_and_power R438, R439,
R449, R452, 14_faults_and_recovery R459, R465, R478, R479, R486, R488, 10_flags_and_beat R337, R338, R342,
11_fabric_and_reduction R352, R362, R381). -/

namespace Sys2Proof.Machine

/-! ## The order of checks (R396) -/

/-- A register whose writable fields are RWL: NACK RO while LOCK is 1, then VALUE, then the write. -/
def rwl (s : State) (bad : Bool) (t : State) : RegRes := if s.own.lock then (s, 3) else if bad then (s, 4) else (t, 0)

/-- A register with fields that stay writable: NACK VALUE, or the write. -/
def rw (s : State) (bad : Bool) (t : State) : RegRes := if bad then (s, 4) else (t, 0)

/-- A write that sets a bit of mask, where the register has no field. -/
def sets (w : Word) (mask : Nat) : Bool := (w &&& word mask) != 0

/-! ## Ownership and enrolment (R400, R404, R407) -/

/-- The number of the valid ENROL entry of a station. -/
def enrolIdx (s : State) (station : Byte) : Option Nat :=
  (List.range 16).find? fun i => let e := s.own.enrol.getD i EnrolEnt.init; e.v && e.station == station

/-- A station that masters use, 0x40 to 0xFE (R392). -/
def isMaster (b : Byte) : Bool := decide (0x40 ≤ b.toNat) && decide (b.toNat ≤ 0xFE)

/-- OWN_HANDOVER (R404). Without an owner there is nothing to hand over: STATE. -/
def handoverReg (w : Word) (s : State) : RegRes :=
  let succ := BitVec.ofNat 8 (wfld w 7 0)
  let known := match enrolIdx s succ with
    | some i => (s.own.enrol.getD i EnrolEnt.init).claim
    | none => false
  if sets w 0xFFFF0000 then (s, 4)
  else if succ = 0xFF then
    ({ s with own := { s.own with succ := 0xFF, win := 0, state := if s.own.state = 2 then 1 else s.own.state } }, 0)
  else if !known then (s, 4)
  else if s.own.state = 0 then (s, 7)
  else ({ s with own := { s.own with succ := succ, win := 8, state := 2 } }, 0)

/-- An ENROL entry (R400): VALUE, then STATE for the owner's or the successor's entry. -/
def enrolReg (n : Nat) (w : Word) (s : State) : RegRes :=
  let old := s.own.enrol.getD n EnrolEnt.init
  let st := BitVec.ofNat 8 (wfld w 7 0)
  let held := match enrolIdx s st with
    | some i => i != n
    | none => false
  let guarded := old.v && ((s.own.state != 0 && old.station == s.own.owner) || (s.own.state == 2 && old.station == s.own.succ))
  let new : EnrolEnt :=
    { v := wbit w 31, claim := wbit w 30, maxpri := BitVec.ofNat 8 (wfld w 23 16), station := st,
      last := if wbit w 31 && old.v && old.station == st then old.last else none }
  if sets w 0x3F00FF00 then (s, 4)
  else if wbit w 31 && (!isMaster st || held) then (s, 4)
  else if guarded && w != old.word then (s, 7)
  else ({ s with own := { s.own with enrol := s.own.enrol.set n new } }, 0)

/-- 0x0100 to 0x03FF. -/
def writeOwn (a : Nat) (w : Word) (s : State) : RegRes :=
  if a = 0x0100 then
    rw s (sets w 0x0F0000FF) { s with own := { s.own with lock := s.own.lock || wbit w 29, eopen := s.own.eopen && !wbit w 28 } }
  else if a = 0x0108 then
    rw s (sets w 0xFFFF0000 || wfld w 15 8 == 0) { s with own := { s.own with ticks := BitVec.ofNat 8 (wfld w 15 8) } }
  else if a = 0x010C then handoverReg w s
  else if a = 0x0110 then (({ s with own := { s.own with wnack := wfld w 31 16, cdeny := wfld w 15 0 } }, 0))
  else if a = 0x0114 then
    ({ s with own := { s.own with rxerr := wfld w 31 16, aband := wfld w 15 8, qovf := wfld w 7 0 } }, 0)
  else if 0x0140 ≤ a ∧ a < 0x0180 then enrolReg ((a - 0x0140) / 4) w s
  else (s, 3)

/-! ## Reset and power (R438, R439, R449, R452) -/

/-- The RST_CAUSE bits of the sources that are asserted (R438). -/
def assertedBits (s : State) : BitVec 10 := s.rst.srcs.foldl (fun c x => c ||| (1 <<< x.bit)) 0

/-- A request for Shallows or Off can be accepted (R449). -/
def sleepOk (s : State) : Bool :=
  (s.pwr.state == 1 || s.pwr.state == 2) && s.rcv.cmdq.isEmpty && s.fab.outst.isEmpty && s.fab.recv.isEmpty

/-- The bit changes of a word read cyclically (R452). -/
def cyclicChanges (w : Word) : Nat := popcount 32 (w ^^^ ((w >>> 1) ||| (w <<< 31))).toNat

/-- RST_CMD is legal (R439); the reset asserts after the reply. -/
def rstCmdReg (w : Word) (s : State) : RegRes :=
  let reach := wfld w 2 0
  if sets w 0xFFFFFF88 || reach == 0 || decide (reach > 4) || wfld w 6 4 == 7 then (s, 4)
  else if reach = 4 && s.pwr.state != 1 && s.pwr.state != 2 && !s.pins.pondHalt then (s, 7)
  else (s, 0)

/-- PWR_STATE (R449, R452); the sleep begins after the reply. -/
def pwrStateReg (w : Word) (s : State) : RegRes :=
  let req := wfld w 2 0
  if sets w 0xF8 || !(req == 0 || req == 3 || req == 4) then (s, 4)
  else if req ≠ 0 && !sleepOk s then (s, 7)
  else ({ s with pwr := { s.pwr with wcnt := wfld w 23 8 } }, 0)

/-- 0x0400 to 0x0FFF. -/
def writePower (a : Nat) (w : Word) (s : State) : RegRes :=
  if a = 0x0400 then
    rw s (sets w 0xFFFFFC00)
      { s with rst := { s.rst with cause := (s.rst.cause &&& ~~~(BitVec.ofNat 10 (wfld w 9 0))) ||| assertedBits s } }
  else if a = 0x0404 then rstCmdReg w s
  else if a = 0x0800 then pwrStateReg w s
  else if a = 0x0830 then
    let n := s.pwr.tarn / 2 ^ 32 * 2 ^ 32 + w.toNat
    rwl s (decide (popcount 64 n > 8)) { s with pwr := { s.pwr with tarn := n } }
  else if a = 0x0834 then
    let n := w.toNat * 2 ^ 32 + s.pwr.tarn % 2 ^ 32
    rwl s (decide (popcount 64 n > 8)) { s with pwr := { s.pwr with tarn := n } }
  else if a = 0x0840 then
    rwl s (sets w 0xFFFFFC00 || wfld w 9 0 == 0 || decide (wfld w 9 0 > 1000)) { s with pwr := { s.pwr with period := wfld w 9 0 } }
  else if a = 0x0844 then rwl s (decide (cyclicChanges w < 8)) { s with pwr := { s.pwr with sprout := w } }
  else (s, 3)

/-! ## Shape image, job, counters (R381, R417, R424) -/

/-- IMG_CTL (R417 to R419). -/
def imgCtlReg (w : Word) (s : State) : RegRes :=
  let slot := wbit w 4
  if sets w 0xFFFFFFE8 then (s, 4)
  else match wfld w 2 0 with
    | 1 => imgBeginReg slot s
    | 2 => imgEndReg slot s
    | 3 => imgAbortReg slot s
    | 4 => activateReg slot s
    | _ => (s, 4)

/-- 0x1000 to 0x1FFF. -/
def writeImage (a : Nat) (w : Word) (s : State) : RegRes :=
  let j := s.job
  if a = 0x1000 then imgCtlReg w s
  else if a = 0x100C then imgWindowReg w s
  else if 0x1020 ≤ a ∧ a < 0x1040 then imgHashReg false ((a - 0x1020) / 4) w s
  else if 0x1040 ≤ a ∧ a < 0x1060 then imgHashReg true ((a - 0x1040) / 4) w s
  else if a = 0x1800 then rwl s (sets w 0xFFFFFC00) { s with job := { j with id := BitVec.ofNat 10 w.toNat } }
  else if a = 0x1804 then rwl s (sets w 0xFFFF0000) { s with job := { j with rank := BitVec.ofNat 16 w.toNat } }
  else if a = 0x1808 then
    rwl s (w == 0 || decide (w.toNat > 65536)) { s with job := { j with nranks := w.toNat } }
  else if a = 0x180C then rwl s (decide (w.toNat > 2)) { s with job := { j with nfMode := w.toNat } }
  else if a = 0x1810 then rwl s (decide (w.toNat > 1)) { s with job := { j with lateMode := wbit w 0 } }
  else if a = 0x1814 then rwl s (decide (w.toNat > 2)) { s with job := { j with divMode := w.toNat } }
  else if a = 0x1818 then rwl s (sets w 0xFFFFFF00) { s with job := { j with dlb := BitVec.ofNat 8 w.toNat } }
  else if a = 0x181C then rwl s (sets w 0xFFFFFF00) { s with job := { j with dls := BitVec.ofNat 8 w.toNat } }
  else if a = 0x1820 then
    rwl s false { s with job := { j with seed := BitVec.ofNat 64 (j.seed.toNat / 2 ^ 32 * 2 ^ 32 + w.toNat) } }
  else if a = 0x1824 then
    rwl s false { s with job := { j with seed := BitVec.ofNat 64 (w.toNat * 2 ^ 32 + j.seed.toNat % 2 ^ 32) } }
  else (s, 3)

/-- Every counter value, snapshot and OVF bit cleared (R424). -/
def Cnt.clr (c : Cnt) : Cnt :=
  { c with val := List.replicate 16 0, base := List.replicate 16 0, snaps := List.replicate 16 0, ovf := 0, cyc := 0, cycSnap := 0, snapBeat := 0, cap := [] }

/-- CNT_CTL (R424). -/
def cntCtlReg (w : Word) (s : State) : RegRes :=
  let c := { s.cnt with en := wbit w 31, snap := wbit w 30, keep := wbit w 29, stream := wbit w 28,
                        sdst := BitVec.ofNat 8 (wfld w 27 20), sper := BitVec.ofNat 8 (wfld w 19 12),
                        sinceStream := if s.cnt.stream then s.cnt.sinceStream else 0 }
  rw s (sets w 0xFFE || wfld w 19 12 == 0 || !isMaster (BitVec.ofNat 8 (wfld w 27 20)))
    { s with cnt := if wbit w 0 then c.clr else c }

/-- 0x2000 to 0x2FFF. -/
def writeCounters (a : Nat) (w : Word) (s : State) : RegRes :=
  if a = 0x2000 then cntCtlReg w s
  else if a = 0x2004 then
    ({ s with cnt := { s.cnt with shed := wfld w 31 16, ovf := (BitVec.ofNat 16 s.cnt.ovf &&& ~~~(BitVec.ofNat 16 (wfld w 15 0))).toNat } }, 0)
  else if 0x2040 ≤ a ∧ a < 0x2080 then
    rw s (sets w 0xFFFFFC00 || !srcKnown w.toNat) { s with cnt := { s.cnt with sel := s.cnt.sel.set ((a - 0x2040) / 4) w.toNat } }
  else (s, 3)

/-! ## Errors, beat, fabric (R337, R338, R342, R352, R362, R459) -/

/-- 0x3000 to 0x3FFF. -/
def writeErrors (a : Nat) (w : Word) (s : State) : RegRes :=
  if a = 0x3000 then
    rw s (sets w 0x7FFF0000)
      (if wbit w 31 then { s with err := { s.err with v := false, more := 0, code := 0, info := Err.info0 } } else s)
  else if a = 0x3020 then rw s (sets w 0xFFE0) { s with err := { s.err with ovw := wfld w 31 16 } }
  else if a = 0x3024 then ({ s with err := { s.err with poolCe := wfld w 31 16, poolUe := wfld w 15 0 } }, 0)
  else if a = 0x3028 then
    ({ s with err := { s.err with ocCe := wfld w 31 16, critCe := wfld w 15 8, ocUe := wfld w 7 0 } }, 0)
  else if 0x3100 ≤ a ∧ a < 0x3300 ∧ a % 16 = 0 then
    let n := (a - 0x3100) / 16
    rw s (w != 0) { s with err := { s.err with log := s.err.log.set n { s.err.log.getD n LogEnt.init with v := false } } }
  else if a = 0x3800 then rwl s (sets w 0xFFFFE000) { s with sync := { s.sync with holdMaxReg := min 4096 w.toNat } }
  else if a = 0x3804 then rwl s (sets w 0xFE000000) { s with sync := { s.sync with stallLimit := w.toNat, stall := 0 } }
  else if a = 0x3808 then ({ s with sync := { s.sync with lateBeats := wfld w 31 16, lateMax := wfld w 15 0 } }, 0)
  else (s, 3)

/-- A write of the owner to the route registers takes effect now, or waits for a copy or an installation (R352). -/
def routeOp (x : Option (Nat × Word)) (s : State) : State :=
  let t := { s with fab := { s.fab with waiting := s.fab.waiting ++ [x] } }
  if installing s then t else flushRoutes t

/-- ROUTE_DATA (R351, R352): the entry; the index advances. A reserved bit is refused (R13). -/
def routeDataReg (w : Word) (s : State) : RegRes :=
  let t := routeOp (some (s.fab.routeIdx.toNat, w)) s
  rw s (sets w 0x1F000000) { t with fab := { t.fab with routeIdx := t.fab.routeIdx + 1 } }

/-- 0x4000 to 0x4FFF. -/
def writeFabric (a : Nat) (w : Word) (s : State) : RegRes :=
  if a = 0x4000 then rw s (sets w 0xFFFFF000) { s with fab := { s.fab with routeIdx := BitVec.ofNat 12 w.toNat } }
  else if a = 0x4004 then routeDataReg w s
  else if a = 0x4008 then
    let t := if wbit w 2 then routeOp none s else s
    rw s (sets w 0xFFFFFFF8) { t with fab := { t.fab with commit := t.fab.commit || wbit w 0 } }
  else if a = 0x400C then rw s (sets w 0x3F000000) { s with fab := { s.fab with norx := wfld w 7 0 } }
  else if a = 0x4010 then ({ s with fab := { s.fab with fabDrop := wfld w 31 16, sbStranger := wfld w 15 0 } }, 0)
  else (s, 3)

/-! ## Checkpoint (R465, R478, R479) -/

/-- A register of the checkpoint block that is BUSY while ARM is 1 (R478). -/
def ckptBusy (s : State) (bad : Bool) (t : State) : RegRes :=
  if s.own.lock then (s, 3) else if bad then (s, 4) else if s.ckpt.arm then (s, 5) else (t, 0)

/-- ARM of CKPT_CTL: 1 starts the arm check, unless the copy of an armed core runs; 0 disarms (R465). -/
def armReg (arm : Bool) (s : State) : State :=
  if arm then (if s.ckpt.arm && s.ckpt.copy.isSome then s else armStart s)
  else { s with ckpt := { s.ckpt with arm := false, probe := none, sameFeed := false,
                                      state := if s.ckpt.state = 1 ∨ s.ckpt.state = 2 then 0 else s.ckpt.state } }

/-- CKPT_CTL: fields, ARM, then CMD (R465, R478, R479). -/
def ckptCtlReg (w : Word) (s : State) : RegRes :=
  let cmd := wfld w 2 0
  if sets w 0x1FF8 || decide (cmd > 3) then (s, 4)
  else if cmd ≠ 0 && !restoreReady s then (s, 7)
  else
    let k := s.ckpt
    let t := { s with ckpt := { k with sameAck := if s.own.lock then k.sameAck else wbit w 30
                                       rcv := wbit w 29
                                       tseq := BitVec.ofNat 16 (wfld w 28 13) } }
    let t := armReg (wbit w 31) t
    (if cmd = 0 then t else restoreStart cmd t, 0)

/-- 0x5000 to 0x5FFF. -/
def writeCkpt (a : Nat) (w : Word) (s : State) : RegRes :=
  let k := s.ckpt
  if a = 0x5000 then ckptBusy s (sets w 0xFF) { s with ckpt := { k with partner := w } }
  else if a = 0x5004 then ckptBusy s (sets w 0xFF000000) { s with ckpt := { k with pbase := w } }
  else if a = 0x5008 then ckptBusy s (sets w 0xFF000000) { s with ckpt := { k with area := w } }
  else if a = 0x500C then rwl s (sets w 0xFF) { s with ckpt := { k with src := w } }
  else if a = 0x5010 then rwl s (sets w 0xFE) { s with ckpt := { k with snap := w } }
  else if a = 0x5014 then rwl s (sets w 0xFF000000) { s with ckpt := { k with sbase := w } }
  else if a = 0x5018 then rwl s (sets w 0xFFFFFC00) { s with ckpt := { k with srcJob := BitVec.ofNat 10 w.toNat } }
  else if a = 0x501C then ckptCtlReg w s
  else (s, 3)

/-! ## Self-test, debug (R411, R486) -/

/-- The core is in a checkpoint stop or an installation (R486). -/
def inStop (s : State) : Bool :=
  match s.issue.stop with
  | .none => false
  | .holdWait _ => false
  | .hold _ => false
  | _ => true

/-- ST_CTL (R486): queued or BUSY in Run and in a stop; at once in Idle, in Hold or while halted. -/
def selfTestReg (w : Word) (s : State) : RegRes :=
  let cmd := wfld w 2 0
  if sets w 0xFFFFFFE8 || cmd == 0 || decide (cmd > 4) then (s, 4)
  else if s.st.run.isSome || !stepDone s 9 then (s, 5)
  else if !halted s && (s.pwr.state == 0 || inStop s) then
    if wbit w 4 then ({ s with st := { s.st with queued := some cmd, state := 1 } }, 0) else (s, 5)
  else ({ s with out := { s.out with sprRdy := false }, st := { s.st with run := some (cmd, false), state := 2 } }, 0)

/-- PATCH_CTL (R411). The level of an applied patch is the file's own, which the spec does not give (log 7). -/
def patchCtlReg (w : Word) (s : State) : RegRes :=
  if sets w 0xFFFFFFF8 then (s, 4)
  else match wfld w 2 0 with
    | 1 => ({ s with dbg := { s.dbg with status := 1, bytes := [] } }, 0)
    | 2 => if s.dbg.status = 1 then ({ s with dbg := { s.dbg with status := 2 } }, 0) else (s, 7)
    | 3 =>
      if s.dbg.status = 3 ∧ s.pwr.state ≠ 0 then
        let (l, t) := freshBits 8 s
        ({ t with dbg := { t.dbg with level := l } }, 0)
      else (s, 7)
    | _ => (s, 4)

/-- PATCH_WINDOW (R411): at most 8 KiB. -/
def patchWindowReg (w : Word) (s : State) : RegRes :=
  if s.dbg.status ≠ 1 then (s, 7)
  else if s.dbg.bytes.length + 4 > 8192 then ({ s with dbg := { s.dbg with status := 0xF } }, 7)
  else ({ s with dbg := { s.dbg with bytes := s.dbg.bytes ++ wordBytes w } }, 0)

/-- 0x6000 to 0xFFFF. -/
def writeTest (a : Nat) (w : Word) (s : State) : RegRes :=
  if a = 0x6000 then selfTestReg w s
  else if a = 0x8000 then rw s (sets w 0xFFFFFFFE) { s with dbg := { s.dbg with lock := s.dbg.lock || wbit w 0 } }
  else if a = 0x8004 then patchCtlReg w s
  else if a = 0x800C then patchWindowReg w s
  else if 0x8020 ≤ a ∧ a < 0x8040 then ({ s with dbg := { s.dbg with hash := s.dbg.hash.set ((a - 0x8020) / 4) w } }, 0)
  else (s, 3)

/-! ## The window -/

/-- A whole-word write of the register at offset a: the state and the NACK code of R394, 0 for ACK (R396). -/
def regWrite (a : Nat) (w : Word) (s : State) : RegRes :=
  if (regValue s a).isNone then (s, 2)
  else match a / 4096 with
    | 0 => if a < 0x400 then writeOwn a w s else writePower a w s
    | 1 => writeImage a w s
    | 2 => writeCounters a w s
    | 3 => writeErrors a w s
    | 4 => writeFabric a w s
    | 5 => writeCkpt a w s
    | _ => writeTest a w s

/-- PATCH_CHECK_COMPLETE (R411): VALID or HASH. -/
def execPatchCheckComplete (s : State) : Host.Outcome State Fault Refusal :=
  if s.dbg.status = 2 then
    let ok := sha256 s.dbg.bytes == wordsBytes s.dbg.hash
    .next { s with dbg := { s.dbg with status := if ok then 3 else 0xB } }
  else .next s

/-- ROUTE_COPY_COMPLETE: the active entries are read, shadow := active, then the writes that waited (R352, R430). -/
def execRouteCopyComplete (s : State) : Host.Outcome State Fault Refusal :=
  if s.fab.copying && !installing s then
    let mine (c : Bool) (p : Nat × Nat) : Bool := p.1 / 4096 == b2n c
    match critReads (s.routeUpset.filter (mine (!shadowCopy s))) s with
    | (t, false) => .next t
    | (t, true) =>
      let f := t.fab
      let g := if shadowCopy t then { f with routes1 := f.routes0, copying := false } else { f with routes0 := f.routes1, copying := false }
      .next (flushRoutes { t with fab := g, routeUpset := t.routeUpset.filter fun p => !mine (shadowCopy t) p })
  else .next s

end Sys2Proof.Machine
end

