-- ==== Sys2Proof/Machine/Sideband.lean ====
section
/-! DEFINITION. The side-band bus: frames sent, frames taken, replies, collisions, enrolment by HELLO (12_management R386 to
R401). Frames are whole and take effect at once (log 6). -/

namespace Sys2Proof.Machine

/-! ## Sending -/

/-- The bytes 0 to 4 + LEN that the CRC covers (R392). -/
def frameBytes (f : Frame) : List Byte := [f.dst, f.src, f.typ, f.seq, f.len] ++ f.payload

/-- A frame of this core (R392). -/
def mkFrame (s : State) (dst typ seq : Byte) (payload : List Byte) : Frame :=
  let f : Frame := ⟨dst, s.straps.slot.zeroExtend 8, typ, seq, BitVec.ofNat 8 payload.length, payload, 0, true⟩
  { f with crc := crc32c (frameBytes f) }

/-- A frame is driven on the pair. -/
def drive (f : Frame) (s : State) : State := bump 0x161 1 { s with sb := { s.sb with out := s.sb.out ++ [f] } }

/-- The payload of IDENT and ANNOUNCE (R393). -/
def identPayload (s : State) : List Byte := wordsBytes (identWords s)

/-- A frame that the core starts on its own: its SEQ is free (R392, R393; log 7). -/
def driveOwn (dst typ : Byte) (payload : List Byte) (s : State) : State :=
  let (q, t) := freshBits 8 s
  drive (mkFrame t dst typ q payload) t

/-- ANNOUNCE (R397). -/
def announce (s : State) : State := driveOwn 0xFF 0x04 (identPayload s) s

/-- The MGC is released and awake: the core is on the bus (R31, R449). -/
def mgcUp (s : State) : Bool := awake s && stepDone s 3

/-! ## Replies (R393 to R395) -/

/-- A reply: its TYPE and payload. -/
abbrev Reply := Byte × List Byte

/-- ACK. -/
def rAck : Reply := (0x08, [])
/-- NACK with CODE and INDEX (R394). -/
def rNack (code index : Nat) : Reply := (0x09, [byte code, byte index, 0, 0])
/-- GRANT or DENY with PRIO and NONCE (R402). -/
def rClaim (typ : Byte) (prio : Byte) (nonce : BitVec 24) : Reply := (typ, prio :: leBytes 3 nonce.toNat)

/-! ## READ and WRITE (R396) -/

/-- ADDR, NWORDS and FLAGS of a payload. -/
def frameAddr (f : Frame) : Nat := leNat (f.payload.take 2)
/-- NWORDS. -/
def frameWords (f : Frame) : Nat := (f.payload.getD 2 0).toNat
/-- FLAGS. -/
def frameFlags (f : Frame) : Nat := (f.payload.getD 3 0).toNat

/-- ADDR, NWORDS and FLAGS fit a READ or a WRITE with n bytes of words. -/
def accessForm (f : Frame) (n : Nat) : Bool :=
  f.payload.length == 4 + n && decide (1 ≤ frameWords f) && decide (frameWords f ≤ 15) && decide (frameFlags f ≤ 1)

/-- The offset of word i. -/
def wordAddr (f : Frame) (i : Nat) : Nat := if frameFlags f = 1 then frameAddr f + 4 * i else frameAddr f

/-- The words of a READ, with the effects of reading. -/
def readWords (f : Frame) : Nat → Nat → State → List Word × State
  | 0, _, s => ([], s)
  | n + 1, i, s =>
    let a := wordAddr f i
    let r := readWords f n (i + 1) (readEffect a s)
    ((regValue s a).getD 0 :: r.1, r.2)

/-- READ: RDATA, or the NACK of the first word that no register answers (R396). -/
def doRead (f : Frame) (s : State) : Option Reply × State :=
  if !accessForm f 0 then (some (rNack 6 0), s)
  else
    let n := frameWords f
    match (List.range n).find? fun i => (regValue s (wordAddr f i)).isNone with
    | some i => (some (rNack 2 i), s)
    | none =>
      let r := readWords f n 0 s
      (some (0x06, f.payload.take 4 ++ wordsBytes r.1), r.2)

/-- The words of a WRITE in order, to the first NACK: the state, the NACK's code (0: none) and index, and the accepted
writes of RST_CMD and PWR_STATE, which act after the reply. -/
def writeWords (f : Frame) : List Word → Nat → State → List (Nat × Word) → State × Nat × Nat × List (Nat × Word)
  | [], i, s, l => (s, 0, i, l)
  | w :: ws, i, s, l =>
    let a := wordAddr f i
    match regWrite a w s with
    | (t, 0) => writeWords f ws (i + 1) t (if a = 0x0404 ∨ a = 0x0800 then l ++ [(a, w)] else l)
    | (t, c) => (t, c, i, l)

/-- WRITE (R396, R401): reply, state, and what acts after the reply. -/
def doWrite (f : Frame) (s : State) : Option Reply × State × List (Nat × Word) :=
  let broadcast := f.dst == 0xFF
  let reply (r : Reply) : Option Reply := if broadcast then none else some r
  if !accessForm f (4 * frameWords f) then (reply (rNack 6 0), s, [])
  else if s.own.state = 0 ∨ f.src ≠ s.own.owner then
    (reply (rNack 1 0), { s with own := { s.own with wnack := satCount 16 (s.own.wnack + 1) } }, [])
  else
    let (t, code, i, l) := writeWords f (bytesWords (frameWords f) (f.payload.drop 4)) 0 s []
    if code = 0 then (reply rAck, t, l) else (reply (rNack code i), t, l)

/-! ## Ownership frames (R402 to R405) -/

/-- Ownership ends (R405). -/
def endOwnership (s : State) : State :=
  { s with
    own := { s.own with state := 0, owner := 0xFF, prio := 0, nonce := 0, lock := false, remain := 0, succ := 0xFF, win := 0 }
    dbg := { s.dbg with lock := false } }

/-- A claim wins (R402, R403). -/
def startOwnership (c : Claim) (s : State) : State :=
  { s with own := { s.own with state := 1, owner := c.station, prio := c.prio, nonce := c.nonce, remain := s.own.ticks,
                               succ := 0xFF, win := 0 } }

/-- A claim denied or refused is counted (R407). -/
def countDeny (s : State) : State := { s with own := { s.own with cdeny := satCount 16 (s.own.cdeny + 1) } }

/-- CLAIM of enrolled entry e (R402). No reply while the window is open. -/
def doClaim (e : EnrolEnt) (f : Frame) (s : State) : Option Reply × State :=
  let c : Claim := ⟨f.src, f.payload.getD 0 0, BitVec.ofNat 24 (leNat (f.payload.drop 1)), f.seq⟩
  if f.payload.length ≠ 4 then (some (rNack 6 0), s)
  else if !e.claim || decide (e.maxpri < c.prio) then (some (rNack 8 0), countDeny s)
  else if s.own.state = 0 then
    let w := match s.own.window with
      | some (l, n) => (l.filter (fun x => x.station != c.station) ++ [c], n)
      | none => ([c], 2)
    (none, { s with own := { s.own with window := some w } })
  else if s.own.state = 2 ∧ f.src = s.own.succ then (some (rClaim 0x0B c.prio c.nonce), startOwnership c s)
  else if s.own.state = 1 ∧ f.src = s.own.owner then (some (rNack 7 0), countDeny s)
  else (some (rClaim 0x0C s.own.prio s.own.nonce), countDeny s)

/-- RENEW (R403). -/
def doRenew (f : Frame) (s : State) : Option Reply × State :=
  if f.payload.length ≠ 0 then (some (rNack 6 0), s)
  else if s.own.state ≠ 0 ∧ f.src = s.own.owner then (some rAck, { s with own := { s.own with remain := s.own.ticks } })
  else (some (rNack 1 0), s)

/-- RELEASE (R405). -/
def doRelease (f : Frame) (s : State) : Option Reply × State :=
  if f.payload.length ≠ 0 then (some (rNack 6 0), s)
  else if s.own.state ≠ 0 ∧ f.src = s.own.owner then (some rAck, endOwnership s)
  else (some (rNack 1 0), s)

/-- IDENT for a HELLO or a DISCOVER with no payload (R393). -/
def doIdent (f : Frame) (s : State) : Option Reply × State :=
  if f.payload.length ≠ 0 then (some (rNack 6 0), s) else (some (0x03, identPayload s), s)

/-! ## Taking a frame (R391, R392, R395, R399) -/

/-- TYPE is a request of R393. -/
def requestFrame (t : Byte) : Bool := [0x01, 0x02, 0x05, 0x07, 0x0A, 0x0D, 0x0E, 0x0F].contains t
/-- TYPE is one of R393. -/
def knownFrame (t : Byte) : Bool := decide (1 ≤ t.toNat) && decide (t.toNat ≤ 0x11)

/-- The frame as received is whole (R391). -/
def frameOk (f : Frame) : Bool :=
  f.wire && decide (f.len.toNat ≤ 64) && f.payload.length == f.len.toNat && crc32c (frameBytes f) == f.crc

/-- A stranger is counted (R362, R399). -/
def countStranger (s : State) : State :=
  bump 0x164 1 { s with fab := { s.fab with sbStranger := satCount 16 (s.fab.sbStranger + 1) } }

/-- The reply driven to the frame's source. -/
def replyFrame (f : Frame) (r : Reply) (s : State) : State := drive (mkFrame s f.src r.1 f.seq r.2) s

/-- A stranger's frame (R399, R400): HELLO and DISCOVER are answered; while EOPEN is 1 a HELLO of a master enrols it. -/
def stranger (f : Frame) (s : State) : State :=
  let s := countStranger s
  let ident := (f.typ == 0x01 && f.dst != 0xFF) || f.typ == 0x02
  if !ident || f.payload.length != 0 then s
  else if f.typ = 0x01 && s.own.eopen && isMaster f.src then
    match (List.range 16).find? fun i => !(s.own.enrol.getD i EnrolEnt.init).v with
    | some i =>
      let r : Reply := (0x03, identPayload s)
      let kept := (f.seq, f.typ, some (mkFrame s f.src r.1 f.seq r.2))
      replyFrame f r { s with own := { s.own with enrol := s.own.enrol.set i ⟨true, true, 0xFF, f.src, some kept⟩ } }
    | none => s
  else replyFrame f (0x03, identPayload s) s

/-- The request and reply kept for a station (R395). -/
def remember (station : Byte) (x : Byte × Byte × Option Frame) (s : State) : State :=
  match enrolIdx s station with
  | some i =>
    let e := s.own.enrol.getD i EnrolEnt.init
    { s with own := { s.own with enrol := s.own.enrol.set i { e with last := some x } } }
  | none => s

/-- What a frame of an enrolled source does by its TYPE: reply, state, what acts after the reply. -/
def frameEffect (e : EnrolEnt) (f : Frame) (s : State) : Option Reply × State × List (Nat × Word) :=
  let plain (r : Option Reply × State) : Option Reply × State × List (Nat × Word) := (r.1, r.2, [])
  match f.typ.toNat with
  | 0x01 => plain (doIdent f s)
  | 0x02 => plain (doIdent f s)
  | 0x05 => plain (doRead f s)
  | 0x07 => doWrite f s
  | 0x0A => plain (doClaim e f s)
  | 0x0D => plain (doRenew f s)
  | 0x0E => plain (doRelease f s)
  | 0x0F => plain (if f.payload.length ≠ 0 then (some (rNack 6 0), s) else (some rAck, s))
  | _ => plain (some (rNack 6 0), s)

/-- A broadcast is a request only as DISCOVER, WRITE or CLAIM (R393, R396). -/
def broadcastOk (t : Byte) : Bool := t == 0x02 || t == 0x07 || t == 0x0A

/-- A new request of enrolled entry e: its effect, its reply driven and kept, then what acts after the reply. -/
def serve (act : List (Nat × Word) → State → State) (e : EnrolEnt) (f : Frame) (s : State) : State :=
  let (r, t, l) := frameEffect e f s
  let (u, g) := match r with
    | some x => (replyFrame f x t, some (mkFrame t f.src x.1 f.seq x.2))
    | none => (t, none)
  let kept := f.dst != 0xFF || f.typ == 0x07 || f.typ == 0x0A
  act l (if kept then remember f.src (f.seq, f.typ, g) u else u)

/-- A frame whose DST is this core or 0xFF, from an enrolled source (R393, R395): a request, or a frame of a reserved TYPE, which is
answered with NACK FORMAT. A TYPE that only cores send, or an ACK, is no request. -/
def enrolled (act : List (Nat × Word) → State → State) (i : Nat) (f : Frame) (s : State) : State :=
  let e := s.own.enrol.getD i EnrolEnt.init
  if knownFrame f.typ && (!requestFrame f.typ || (f.dst == 0xFF && !broadcastOk f.typ)) then s
  else match e.last with
    | some (q, t, g) =>
      if q = f.seq ∧ t = f.typ then
        match g with
        | some g => drive g s
        | none => s
      else serve act e f s
    | none => serve act e f s

/-! ## Time (R402 to R404) -/

/-- The lease ends where REMAIN has reached 0 (R403). -/
def leaseExpiry (s : State) : State := if s.own.state ≠ 0 ∧ s.own.remain = 0 then endOwnership s else s

/-- LEASE_EXPIRY. -/
def execLeaseExpiry (s : State) : Host.Outcome State Fault Refusal := .next (leaseExpiry s)

/-- A handover ends where WIN has reached 0 (R404). -/
def handoverExpiry (s : State) : State :=
  if s.own.state = 2 ∧ s.own.win = 0 then { s with own := { s.own with state := 1, succ := 0xFF } } else s

/-- HANDOVER_WINDOW_EXPIRY. -/
def execHandoverWindowExpiry (s : State) : Host.Outcome State Fault Refusal := .next (handoverExpiry s)

/-- The better of two claims (R402). -/
def betterClaim (a b : Claim) : Claim :=
  let v (c : Claim) : Nat := c.prio.toNat * 2 ^ 24 + c.nonce.toNat
  if v b > v a ∨ (v b = v a ∧ b.station < a.station) then b else a

/-- The reply to one claimant of a window. -/
def closeReply (w : Claim) (c : Claim) (s : State) : State :=
  let win := c.station == w.station
  let r := rClaim (if win then 0x0B else 0x0C) w.prio w.nonce
  let g := mkFrame s c.station r.1 c.seq r.2
  let t := drive g s
  let t := match enrolIdx t c.station with
    | some i =>
      match (t.own.enrol.getD i EnrolEnt.init).last with
      | some (q, ty, none) => if q = c.seq ∧ ty = 0x0A then remember c.station (q, ty, some g) t else t
      | _ => t
    | none => t
  if win then t else countDeny t

/-- An election window closes at its second slow-tick edge (R402). -/
def windowClose (s : State) : State :=
  match s.own.window with
  | some (c :: cs, 0) =>
    let w := cs.foldl betterClaim c
    let t := startOwnership w { s with own := { s.own with window := none } }
    (c :: cs).foldl (fun u x => closeReply w x u) t
  | _ => s

/-- ELECTION_WINDOW_CLOSE. -/
def execElectionWindowClose (s : State) : Host.Outcome State Fault Refusal := .next (windowClose s)

/-! ## The MGC's work (R386, R387, R406) -/

/-- Work of class 2 that a slow-tick edge has left: a lease, a handover or an election window has run out (R386). -/
def edgeWork (s : State) : Bool :=
  (s.own.state != 0 && s.own.remain == 0) || (s.own.state == 2 && s.own.win == 0) ||
    (match s.own.window with | some (_, 0) => true | _ => false)

/-- Work of class 3: an image check, an installation, a checkpoint's arm check, copy or restore (R386). -/
def imageWork (s : State) : Bool :=
  s.img.a.status == 2 || s.img.b.status == 2 || installing s || s.ckpt.probe.isSome || s.ckpt.copy.isSome || s.ckpt.restore.isSome

/-- The lowest class of the MGC's pending work other than frames; 5 where there is none (R386). -/
def pendingClass (s : State) : Nat :=
  if s.err.alert && s.own.state != 0 then 1 else if edgeWork s then 2 else if imageWork s then 3 else 5

/-- The class of a write of one register (R386). -/
def writeClass (a : Nat) : Nat :=
  if a = 0x0404 ∨ (0x0100 ≤ a ∧ a < 0x0180) then 2
  else if a = 0x1000 ∨ a = 0x100C ∨ (0x1020 ≤ a ∧ a < 0x1060) then 3 else 4

/-- The class of a frame (R386): of a WRITE, the lowest of its words. -/
def frameClass (f : Frame) : Nat :=
  if [0x0A, 0x0D, 0x0E].contains f.typ then 2
  else if f.typ = 0x07 then (List.range (frameWords f)).foldl (fun c i => min c (writeClass (wordAddr f i))) 4
  else 4

/-- The frame that the MGC serves next: of the lowest class that no other work comes before, the one received first (R386). -/
def nextFrame (s : State) : Option Frame :=
  [2, 3, 4].findSome? fun c => if c ≤ pendingClass s then s.sb.rxq.find? (fun f => frameClass f == c) else none

/-- A frame from the queue is served. -/
def serveFrame (act : List (Nat × Word) → State → State) (f : Frame) (s : State) : State :=
  match enrolIdx s f.src with
  | some i => enrolled act i f s
  | none => stranger f s

/-- The frames of the queue that no other work comes before are served, at most n. -/
def serveFrames (act : List (Nat × Word) → State → State) : Nat → State → State
  | 0, s => s
  | n + 1, s =>
    if !mgcUp s then s
    else match nextFrame s with
      | some f => serveFrames act n (serveFrame act f { s with sb := { s.sb with rxq := s.sb.rxq.erase f } })
      | none => s

/-- The lease, the handover and the election window that ran out at the last slow-tick edge end, before a frame of a later cycle
counts (R406). -/
def edgeActions (s : State) : State := windowClose (handoverExpiry (leaseExpiry s))

/-- A frame on the pair (R391, R392, R399): it waits in the queue of eight, or is lost (R387), and what can be served is. Frames driven
before it are no longer listed (log 21). -/
def takeFrame (act : List (Nat × Word) → State → State) (f : Frame) (s : State) : State :=
  if !mgcUp s then s
  else
    let s := edgeActions { s with sb := { s.sb with out := [], retry := s.sb.retry.filter fun r => r.slots != 0 } }
    if !frameOk f then bump 0x163 1 { s with own := { s.own with rxerr := satCount 16 (s.own.rxerr + 1) } }
    else if f.dst ≠ s.straps.slot.zeroExtend 8 ∧ f.dst ≠ 0xFF then s
    else if s.sb.rxq.length ≥ 8 then { s with own := { s.own with qovf := satCount 8 (s.own.qovf + 1) } }
    else serveFrames act 8 (bump 0x160 1 { s with sb := { s.sb with rxq := s.sb.rxq ++ [f] } })

/-! ## Collisions (R390) -/

/-- The slots drawn before attempt n + 1, plus one (R390; log 8). -/
def drawSlots (n : Nat) (s : State) : Nat × State :=
  let (k, t) := freshNat 0 (2 ^ min n 8 - 1) s
  (k + 1, t)

/-- A frame has failed n attempts: a backoff, or the frame is abandoned; an ALERT is queued again (R390). -/
def backoff (f : Frame) (n : Nat) (s : State) : State :=
  if n ≥ 16 then
    { s with sb := { s.sb with requeue := s.sb.requeue || f.typ == 0x10 }
             own := { s.own with aband := satCount 8 (s.own.aband + 1) } }
  else
    let (k, t) := drawSlots n s
    { t with sb := { t.sb with retry := t.sb.retry ++ [⟨f, n, k, t.clock.refc⟩] } }

/-- Frame i of those driven since a frame was last received meets a collision: it has failed once more. -/
def collide (i : Nat) (s : State) : State :=
  match s.sb.out[i]? with
  | none => s
  | some f =>
    let again := s.sb.retry.find? fun r => r.slots == 0 && r.f == f
    let n := match again with
      | some r => r.attempts + 1
      | none => 1
    let rest := match again with
      | some r => s.sb.retry.erase r
      | none => s.sb.retry
    backoff f n (bump 0x162 1 { s with sb := { s.sb with out := s.sb.out.eraseIdx i, retry := rest } })

/-- SIDEBAND_COLLISION: the frame being sent is one of those driven since a frame was last received (R390; log 21). -/
def execSidebandCollision (s : State) : Host.Outcome State Fault Refusal :=
  if !mgcUp s || s.sb.out.isEmpty then .next s
  else
    let (i, t) := freshNat 0 (s.sb.out.length - 1) s
    .next (collide i t)

/-- The backoff of a frame is over: the jam of seven bits, the bus idle for 12 cells and the drawn slots of 2 µs (R389, R390). -/
def backoffOver (s : State) (r : Retry) : Bool := r.slots != 0 && decide (r.since + 38 + 200 * (r.slots - 1) ≤ s.clock.refc)

/-- SIDEBAND_BACKOFF_EXPIRY: the frame is attempted again (R390). -/
def execSidebandBackoffExpiry (s : State) : Host.Outcome State Fault Refusal :=
  match s.sb.retry.find? (backoffOver s) with
  | some r =>
    if mgcUp s then
      .next { s with sb := { s.sb with out := s.sb.out ++ [r.f], retry := s.sb.retry.map fun x => if x = r then { x with slots := 0 } else x } }
    else .next s
  | none => .next s

/-! ## ALERT and EVENT (R386, R387, R393, R429) -/

/-- ALERT: sent to the owner once there is one (R386, R393). -/
def execAlert (s : State) : Host.Outcome State Fault Refusal :=
  if s.err.alert && mgcUp s && s.own.state != 0 then
    let p := wordsBytes [errFirstWord s, word s.rst.cause.toNat, s.s63]
    .next (driveOwn s.own.owner 0x10 p { s with err := { s.err with alert := false } })
  else .next s

/-- A payload of an EVENT frame (R429). -/
def eventPayload (s : State) (h : Nat) : List Byte :=
  let c := s.cnt
  let vals := if c.snap then c.snaps else c.val
  [byte h, byte (c.ovf >>> (8 * h))] ++ wordBytes (if c.snap then c.snapBeat else s.s63) ++
    leBytes 6 (if c.snap then c.cycSnap else c.cyc) ++ (List.range 8).flatMap fun i => leBytes 6 (vals.getD (8 * h + i) 0)

/-- Work of classes 1 to 4 is pending (R386, R387): an ALERT, a slow-tick action, an image, checkpoint or patch operation, or a frame
that waits. -/
def mgcBusy (s : State) : Bool := s.err.alert || edgeWork s || imageWork s || s.dbg.status == 2 || !s.sb.rxq.isEmpty

/-- EVENT: the pair that is due is sent, or shed (R387, R429). -/
def execEvent (s : State) : Host.Outcome State Fault Refusal :=
  if s.cnt.stream && mgcUp s && decide (s.cnt.sinceStream ≥ s.cnt.sper.toNat) then
    let t := { s with cnt := { s.cnt with sinceStream := 0 } }
    if mgcBusy s then .next (bump 0x165 1 { t with cnt := { t.cnt with shed := satCount 16 (t.cnt.shed + 1) } })
    else .next (driveOwn s.cnt.sdst 0x11 (eventPayload s 1) (driveOwn s.cnt.sdst 0x11 (eventPayload s 0) t))
  else .next s

end Sys2Proof.Machine
end

