-- ==== Sys2Proof/WellFormed.lean ====
section
/-! DEFINITION. The commands that the hardware can be given: operand values that R430, R433 and R356 allow. -/

namespace Sys2Proof

/-- A release step of R433. -/
def isStep (k : BitVec 4) : Bool := decide (1 ≤ k.toNat) && decide (k.toNat ≤ 9)

/-- A reset source whose assertion lasts 16 cycles (R430, R432), by its bit of RST_CAUSE: a side-band command, the
watchdog, critical state, parity, a fabric packet, the debug reset. Not power-on, the brown-out detector or chip_rst_n. -/
def isTimedSource (b : BitVec 4) : Bool := decide (3 ≤ b.toNat) && decide (b.toNat ≤ 8)

/-- The command's operands are ones that the hardware can be given. -/
def Instr.wellFormed : Instr → Bool
  | .resetStepStart k => isStep k
  | .resetStepComplete k => isStep k
  | .internalResetRelease b => isTimedSource b
  | _ => true

end Sys2Proof
end

