-- ==== Sys2Proof/Machine/Reset.lean ====
section
/-! DEFINITION. Reset sources, the release order, trim load, Shallows, Off and the watch, self-test, thermal limits
(13_reset_and_power R430 to R452, 01_boundary R33, R36 to R38, R49, 14_faults_and_recovery R486, R487). -/

namespace Sys2Proof.Machine

/-! ## Sources (R430) -/

/-- POR_ASSERT: power-on, cold reach. A brown-out's loss of the link ends with it (R443). -/
def execPorAssert (s : State) : Host.Outcome State Fault Refusal :=
  let t := assertReset 0 1 { s with pins := { s.pins with porN := false } }
  .next { t with pwr := { t.pwr with brownout := false }, sb := { t.sb with out := [] } }

/-- POR_RELEASE: por_n rises; the straps stand on their pins (R33, R36). -/
def execPorRelease (straps : Straps) (s : State) : Host.Outcome State Fault Refusal :=
  if s.pins.porN then .next s
  else .next (releaseWhere (fun x => x.bit == 0) { s with pins := { s.pins with porN := true }, strapPins := straps })

/-- CHIP_RST_ASSERT: warm reach. -/
def execChipRstAssert (s : State) : Host.Outcome State Fault Refusal :=
  .next (assertReset 2 2 { s with pins := { s.pins with chipRstN := false } })

/-- CHIP_RST_RELEASE. -/
def execChipRstRelease (s : State) : Host.Outcome State Fault Refusal :=
  if s.pins.chipRstN then .next s
  else .next (releaseWhere (fun x => x.bit == 2) { s with pins := { s.pins with chipRstN := true } })

/-- BROWN_OUT: cold reach (R443, R445). -/
def execBrownOut (s : State) : Host.Outcome State Fault Refusal :=
  let t := assertReset 1 1 s
  .next { t with pwr := { t.pwr with brownout := true } }

/-- BROWN_OUT_RELEASE: 1,000 consecutive ref_clk cycles in range and quiet (R430). -/
def execBrownOutRelease (s : State) : Host.Outcome State Fault Refusal :=
  .next (releaseWhere (fun x => x.bit == 1 && decide (x.since + 1000 ≤ s.clock.refc)) s)

/-- INTERNAL_RESET_RELEASE of the source with this bit of RST_CAUSE: its 16 cycles are over, and for the debug reset its
reset bit is 0 (R430). -/
def execInternalResetRelease (bit : BitVec 4) (s : State) : Host.Outcome State Fault Refusal :=
  if !isTimedSource bit then .fault .noSuchEvent
  else
    .next (releaseWhere (fun x => x.bit == bit.toNat && decide (x.since + 16 ≤ s.clock.refc) && (x.bit != 8 || !s.tap.debugRst)) s)

/-- MGC_WATCHDOG_EXPIRY: cold reach, where the firmware has not serviced the watchdog for 4 slow ticks. -/
def execMgcWatchdogExpiry (s : State) : Host.Outcome State Fault Refusal :=
  if mgcUp s && decide (s.rst.wdog ≥ 4) then .next (assertReset 4 1 s) else .next s

/-- DEBUG_RESET: the instrument's reset bit and reach field, 1 cold, 2 warm, 3 data (R40, R430). -/
def execDebugReset (reach : BitVec 2) (s : State) : Host.Outcome State Fault Refusal :=
  if s.dbg.lock then .next { s with tap := { s.tap with blocked := s.tap.blocked + 1 } }
  else if reach = 0 then .next s
  else .next (assertReset 8 reach.toNat { s with tap := { s.tap with debugRst := true } })

/-- DEBUG_RESET_RELEASE: the reset bit is cleared; the source ends now if its 16 cycles are over (R430). -/
def execDebugResetRelease (s : State) : Host.Outcome State Fault Refusal :=
  if s.dbg.lock then .next { s with tap := { s.tap with blocked := s.tap.blocked + 1 } }
  else
    .next (releaseWhere (fun x => x.bit == 8 && decide (x.since + 16 ≤ s.clock.refc))
      { s with tap := { s.tap with debugRst := false } })

/-! ## Trim and option load (R37, R38, R436, R437) -/

/-- The repair entries of a frame in order: index, bank, row group of the valid ones. -/
def repairEntries (ws : List Word) : List (Nat × Nat × Nat) :=
  (List.range 40).filterMap fun i =>
    let w := ws.getD (4 + i / 2) 0
    let h := if i % 2 = 0 then wfld w 15 0 else wfld w 31 16
    if h.testBit 15 then some (i, fld h 14 9, fld h 8 0) else none

/-- Repairs applied so far and the first entry ignored (R37). -/
def applyRepair (c : Cfg) (acc : List (Nat × Nat) × Option Nat) (e : Nat × Nat × Nat) : List (Nat × Nat) × Option Nat :=
  let (i, b, g) := e
  if (acc.1.filter fun x => x.1 == b).length < 2 ∧ g < (if c.wide then 256 else 128) then (acc.1 ++ [(b, g)], acc.2)
  else (acc.1, acc.2.orElse fun _ => some i)

/-- The frame commits (R436 step 2). -/
def trimPass (ws : List Word) (s : State) : State :=
  let w (i : Nat) : Word := ws.getD i 0
  let (reps, ign) := (repairEntries ws).foldl (applyRepair s.cfg) ([], none)
  { s with trim := { s.trim with
      state := 2, fails := 0, committed := true, fuseReq := false, retryAt := none
      regTrim := BitVec.ofNat 8 (wfld (w 1) 7 0), limTrim := BitVec.ofNat 8 (wfld (w 1) 15 8)
      droopTrim := BitVec.ofNat 8 (wfld (w 1) 23 16)
      thLogic := BitVec.ofNat 16 (wfld (w 2) 15 0), thSram := BitVec.ofNat 16 (wfld (w 2) 31 16)
      fusedMax := BitVec.ofNat 2 (wfld (w 3) 1 0)
      repairs := reps, nrep := reps.length, ign := ign.isSome, ignIdx := ign.getD 0 } }

/-- A load fails (R436 steps 3 and 4): 1 CRC, 2 word 0, 3 timeout. The third failure commits the safe defaults. -/
def trimFail (cause : Nat) (s : State) : State :=
  let n := s.trim.fails + 1
  if n ≥ 3 then
    { s with
      trim := { Trim.init with state := 3, fails := 3, cause := cause }
      rst := { s.rst with cause := s.rst.cause ||| 0x200 } }
  else { s with trim := { s.trim with fails := n, cause := cause, fuseReq := false, retryAt := some (s.clock.refc + 16) } }

/-- Step 4 is loading and fuse_req is 1. -/
def loading (s : State) : Bool := s.trim.fuseReq && s.trim.state == 1

/-- FUSE_FRAME_END: the 26 words of a frame (R36, R38). A frame that ends later than 100,000 cycles after fuse_req rose has failed, a
wrong CRC is reported before a wrong word 0, and word 0 [15:0] is not compared (DESIGN CHOICE, log 92). -/
def execFuseFrameEnd (words : List Word) (s : State) : Host.Outcome State Fault Refusal :=
  if !loading s || words.length != 26 then .next s
  else if s.trim.reqSince + 100000 < s.clock.refc then .next (trimFail 3 s)
  else if crc32c (wordsBytes (words.take 25)) ≠ words.getD 25 0 then .next (trimFail 1 s)
  else if wfld (words.getD 0 0) 31 16 ≠ 0x0118 then .next (trimFail 2 s)
  else .next (trimPass words s)

/-- FUSE_TIMEOUT (R38). -/
def execFuseTimeout (s : State) : Host.Outcome State Fault Refusal :=
  if loading s && decide (s.trim.reqSince + 100000 ≤ s.clock.refc) then .next (trimFail 3 s) else .next s

/-- FUSE_RETRY: fuse_req has been 0 for 16 cycles (R38, R436). -/
def execFuseRetry (s : State) : Host.Outcome State Fault Refusal :=
  match s.trim.retryAt with
  | some r =>
    if r ≤ s.clock.refc && s.trim.state == 1 then
      .next { s with trim := { s.trim with fuseReq := true, reqSince := s.clock.refc, retryAt := none } }
    else .next s
  | none => .next s

/-! ## The release order (R433, R434) -/

/-- Release step k. -/
def relStep (s : State) (k : Nat) : RstStep := s.rst.steps.getD (k - 1) ⟨0, 0, 0, 0⟩

/-- Release step k replaced. -/
def setRelStep (k : Nat) (x : RstStep) (s : State) : State :=
  { s with rst := { s.rst with steps := s.rst.steps.set (k - 1) x } }

/-- Step k is held no longer, its predecessor is DONE and its gap has passed (R434). -/
def stepMayStart (s : State) (k : Nat) : Bool :=
  let x := relStep s k
  let prev := if k = 1 then 0 else (relStep s (k - 1)).tDone
  x.st == 0 && !stepHeld s k && (k == 1 || stepDone s (k - 1)) && decide (max prev x.tFree + stepGap k ≤ s.clock.refc)

/-- The action of step k begins (R433): the regulator starts softly from 0 V after power-on and brown-out, and
rises from 0.50 V after a sleep; step 4
loads the trim frame unless it was retained or has failed three times (R436). -/
def stepBegin (k : Nat) (s : State) : State :=
  if k = 1 then
    if s.rst.fromPower || s.rst.fromSleep then
      let from_ := if s.rst.fromPower then 0 else 5000
      { s with pwr := { s.pwr with mode := false, vout := 0x6E, slewFrom := from_, slewAt := s.clock.refc } }
    else s
  else if k = 4 then
    if (s.rst.fromSleep && !s.rst.cold) || s.trim.fails == 3 then s
    else { s with trim := { s.trim with state := 1, fuseReq := true, reqSince := s.clock.refc, retryAt := none } }
  else s

/-- RESET_STEP_START (R434). -/
def execResetStepStart (k : BitVec 4) (s : State) : Host.Outcome State Fault Refusal :=
  if !isStep k then .fault .noSuchEvent
  else if stepMayStart s k.toNat then
    .next (stepBegin k.toNat (setRelStep k.toNat { relStep s k.toNat with st := 1, tRun := s.clock.refc } s))
  else .next s

/-- Both slots EMPTY and the null image in force (R415). -/
def nullImage (s : State) : State :=
  { s with imgUpset := []
           img := { s.img with a := ImgSlot.empty, b := ImgSlot.empty, bytes := 0, cur := Image.null, infV := false,
                               inf := false, pend := false, pslot := false } }

/-- Bank of an address under a partition (R283). -/
def bankIn (s : State) (areas : List Area) (a : Nat) : Option Nat :=
  (areas.find? fun x => decide (x.first * bankBytes s ≤ a) && decide (a < (x.first + x.nb) * bankBytes s)).map fun x =>
    let w := (a - x.first * bankBytes s) / 32
    x.first + (w + w / (max x.nb 1)) % (max x.nb 1)

/-- The address lies in a bank of the map, under the partition that stood when the reset or the sleep began. -/
def inBanks (s : State) (map a : Nat) : Bool :=
  match bankIn s s.rst.layout a with
  | some b => map.testBit b
  | none => false

/-- An area through Shallows or Off keeps its contents only if every one of its banks was retained (R285). -/
def keptAsleep (s : State) (a : Nat) : Bool :=
  s.rst.layout.any fun x =>
    decide (x.first * bankBytes s ≤ a) && decide (a < (x.first + x.nb) * bankBytes s) &&
      (List.range x.nb).all fun i => s.pwr.retained.testBit (x.first + i)

/-- Step 6 (R284): a cold reset initialises every bank, a warm reset every bank that is no tarn bank, a wake every area that has
lost a bank. -/
def poolStep (s : State) : State :=
  let t := if s.rst.cold then poolKeep (fun _ => false) s
    else if s.rst.fromSleep then poolKeep (keptAsleep s) s
    else poolKeep (inBanks s s.pwr.tarn) s
  { t with pool := { t.pool with patrolRow := [] } }

/-- Step 7 (R28, R443): credits after a loss of the link, none after a brown-out. -/
def linkStep (s : State) : State :=
  if s.pwr.lostLink && !s.pwr.brownout then
    { s with fab := { s.fab with rxCred0 := 16, rxCred1 := 16, link := true }, pwr := { s.pwr with lostLink := false } }
  else s

/-- Step 9: the arrays are at level 0, the core enters Idle; after a wake it announces itself (R397, R450). -/
def engineStep (s : State) : State :=
  let t := { s with
    mxa := { s.mxa with level := 0 }
    mxb := { s.mxb with level := 0 }
    pwr := { s.pwr with state := 1, hwhy := 0, retained := 0 }
    rst := { s.rst with cold := false, fromSleep := false, fromPower := false, layout := [] } }
  if s.rst.fromSleep && !s.rst.cold then announce t else t

/-- The action of step k is complete (R433). -/
def stepEnd (k : Nat) (s : State) : State :=
  match k with
  | 3 => if s.rst.fromSleep && !s.rst.cold then s else announce s
  | 5 => nullImage s
  | 6 => poolStep s
  | 7 => linkStep s
  | 8 => retarget { s with out := { s.out with sprRdy := true } }
  | 9 => engineStep s
  | _ => s

/-- The output of the regulator n ref_clk cycles ago, no earlier than its last move (R24). -/
def voltThen (s : State) (n : Nat) : Nat :=
  voltNow { s with clock := { s.clock with refc := max (s.clock.refc - n) s.pwr.slewAt } }

/-- The output has been within 2 % of its target for the last 64 cycles (R433). -/
def voltSettled (s : State) : Bool :=
  let t := 50 * s.pwr.vout
  let near (v : Nat) : Bool := decide (50 * (v - t) ≤ t) && decide (50 * (t - v) ≤ t)
  near (voltThen s 63) && near (voltNow s)

/-- The ref_clk cycles that the action of step k takes at least (R433): core_clk runs at 0.5 GHz in a release (R442); the time of step 4
is its loads'. -/
def stepTime (s : State) (k : Nat) : Nat :=
  let asleep := s.rst.fromSleep && !s.rst.cold
  match k with
  | 1 => 64
  | 2 => 13
  | 3 => if asleep then 4 else 2000
  | 4 => 0
  | 5 => 256
  | 6 => if s.cfg.wide then 410 else 205
  | 7 => if s.pwr.lostLink && !s.pwr.brownout then 4 else 1
  | _ => 1

/-- The action of step k is complete (R433, R436). -/
def stepOver (s : State) (k : Nat) : Bool :=
  decide ((relStep s k).tRun + stepTime s k ≤ s.clock.refc) && (k != 1 || voltSettled s) && (k != 4 || s.trim.state != 1)

/-- RESET_STEP_COMPLETE (R433, R434). -/
def execResetStepComplete (k : BitVec 4) (s : State) : Host.Outcome State Fault Refusal :=
  if !isStep k then .fault .noSuchEvent
  else
    let x := relStep s k.toNat
    if x.st = 1 && stepOver s k.toNat then
      .next (stepEnd k.toNat (setRelStep k.toNat { x with st := 2, tDone := s.clock.refc } s))
    else .next s

/-! ## Shallows, Off and the watch (R447 to R452) -/

/-- Every bank of area x is named in TARN_SEL and powered (R285, R451). -/
def areaRetained (s : State) (x : Nat) : Bool :=
  (List.range (areaOf s x).nb).all fun i =>
    let b := (areaOf s x).first + i
    s.pwr.tarn.testBit b && pdOn s b

/-- Entry into Shallows (3) or Off (4), after the ACK (R448, R449, R451, R477). -/
def enterSleep (state : Nat) (s : State) : State :=
  let kept := (List.range 64).foldl (fun n b => if s.pwr.tarn.testBit b && pdOn s b then n + 2 ^ b else n) 0
  let ck := ckptAfter (copyBanks s.img.cur.areas == 0) (areaRetained s 1) s.ckpt
  let t := clearData { s with ckpt := ck, rst := { s.rst with layout := s.img.cur.areas } }
  let t := loseLink (nullImage t)
  let t := poolKeep (inBanks t kept) t
  { t with
    fab := { t.fab with txq := [], parked := [], rxbuf := [], routes0 := [], routes1 := [], active := false, commit := false, copying := false, waiting := [] }
    routeUpset := []
    sb := { t.sb with rxq := [] }
    clock := { t.clock with skip := false, winFirst := none, winLast := none }
    pwr := { t.pwr with state := state, hwhy := 0, ready := false, mode := true, vout := 0x64, slewFrom := 5000, slewAt := s.clock.refc,
                        retained := kept,
                        periodUse := s.pwr.period, sproutUse := s.pwr.sprout, watchAt := s.clock.refc + 100 * s.pwr.period } }

/-- 32 samples, first as bit 31. -/
def sampleWord (l : List Bool) : Word := word (l.foldl (fun n b => 2 * n + b2n b) 0)

/-- Some 32 consecutive samples of the window equal a cyclic rotation of the pattern (R450). -/
def sproutMatch (pat : Word) (samples : List Bool) : Bool :=
  let l := samples.take 64
  (List.range (l.length + 1 - 32)).any fun i =>
    let w := sampleWord ((l.drop i).take 32)
    (List.range 32).any fun r => w == pat.rotateLeft r

/-- The watch timer wakes: the next window opens at the next multiple of the period (R450). -/
def watchNext (s : State) : State :=
  let p := 100 * max 1 s.pwr.periodUse
  { s with pwr := { s.pwr with watchAt := s.clock.refc + p - (s.clock.refc - s.pwr.watchAt) % p } }

/-- WATCH_WINDOW, where one is due: a match starts the wake release; with both matches the sprout pattern is recorded (R450). -/
def execWatchWindow (samples : List Bool) (frame : Option Byte) (s : State) : Host.Outcome State Fault Refusal :=
  if s.pwr.state ≠ 3 || decide (s.clock.refc < s.pwr.watchAt) then .next s
  else
    let s := watchNext s
    let lane := if sproutMatch s.pwr.sproutUse samples then 1
      else if frame = some (s.straps.slot.zeroExtend 8) then 2 else 0
    if lane = 0 then .next s
    else
      let t := wakePwr { s with pwr := { s.pwr with wake := lane, wcnt := satCount 16 (s.pwr.wcnt + 1) } }
      .next (holdSteps 1 { t with rst := { t.rst with fromSleep := true } })

/-! ## What acts after a reply (R439, R449) -/

/-- An accepted write of RST_CMD or PWR_STATE acts. -/
def actAfter (p : Nat × Word) (s : State) : State :=
  if p.1 = 0x0404 then
    let reach := wfld p.2 2 0
    if reach = 4 then engineReset (wfld p.2 6 4) s else assertReset 3 reach s
  else
    match wfld p.2 2 0 with
    | 3 => enterSleep 3 s
    | 4 => enterSleep 4 s
    | _ => s

/-- The accepted writes act in order. -/
def afterReply (l : List (Nat × Word)) (s : State) : State := l.foldl (fun t p => actAfter p t) s

/-! ## Self-test (R486 to R488) -/

/-- SELF_TEST_COMPLETE: fail is the first failing power domain (R486 to R488). -/
def execSelfTestComplete (fail : Option Byte) (s : State) : Host.Outcome State Fault Refusal :=
  match s.st.run with
  | some (cmd, stop) =>
    let t := { s with st := { s.st with
      run := none, state := if fail.isSome then 4 else 3, last := cmd, unit := fail.getD 0xFF,
      runs := satCount 16 (s.st.runs + 1), failNow := stop && fail.isSome } }
    .next (if stop then testRestore t else assertReset 3 2 t)
  | none => .next s

/-! ## Thermal limits (R49, R437) -/

/-- The thresholds in 1/16 °C: warning logic, warning SRAM, trip logic, trip SRAM. -/
def thermLimits (s : State) : Int × Int × Int × Int :=
  if safeTrim s then (1440, 1360, 1680, 1600) else (1600, 1520, 1840, 1760)

/-- The temperatures as measured, and therm_warn with them (R49, R488). -/
def takeTemps (logic sram : Int) (s : State) : State :=
  let l := thermLimits s
  { s with
    st := { s.st with tempLogic := BitVec.ofNat 16 (toCode 16 logic), tempSram := BitVec.ofNat 16 (toCode 16 sram) }
    out := { s.out with thermWarn := decide (logic ≥ l.1) || decide (sram ≥ l.2.1) } }

/-- THERM_WARN, in every power state. -/
def execThermWarn (logic sram : Int) (s : State) : Host.Outcome State Fault Refusal := .next (takeTemps logic sram s)

/-- THERMAL_TRIP: THERM_TRIP for each tier at its threshold, in every power state (R49, R460). -/
def execThermalTrip (logic sram : Int) (s : State) : Host.Outcome State Fault Refusal :=
  let l := thermLimits s
  let t := takeTemps logic sram s
  let t := if logic ≥ l.2.2.1 then raise 0xA2 (FaultCtx.args 0 (toCode 16 logic)) t else t
  .next (if sram ≥ l.2.2.2 then raise 0xA2 (FaultCtx.args 1 (toCode 16 sram)) t else t)

end Sys2Proof.Machine
end

