-- ==== Sys2Proof/Machine/Stall.lean ====
section
/-! DEFINITION. The stall watchdog (10_flags_and_beat R341 to R344): what blocks each engine, the stall count, and the
capture of STALL_SNAP. -/

namespace Sys2Proof.Machine

/-- What blocks an instruction (R344): KIND, OBJ, and the instruction. -/
structure Block where
  kind : Nat
  obj : Nat
  e : Entry
  deriving DecidableEq, Repr

/-- The first of the channels from which endpoint ep can pop nothing. -/
def emptyIn (s : State) (ep : Nat) (cs : List Nat) (e : Entry) : Option Block :=
  (cs.find? fun c => decide (c < 56) && chAvail s c ep == 0).map fun c => ⟨3, c, e⟩

/-- The state in which the channels cs hold lines enough for every pop. -/
def flood (cs : List Nat) (s : State) : State :=
  let d := List.replicate 64 (⟨0, false, false, 0⟩ : Line)
  { s with chans := s.chans.mapIdx fun c x =>
      if cs.contains c then { x with lines := d ++ x.lines, hold0 := d ++ x.hold0, hold1 := d ++ x.hold1 } else x }

/-- The first of the channels cs that holds too few lines for what ok needs of it: ok fails though the others hold enough. -/
def shortIn (ok : State → Bool) (cs : List Nat) (e : Entry) (s : State) : Option Block :=
  (cs.find? fun c => decide (c < 56) && !ok (flood (cs.filter (· != c)) s)).map fun c => ⟨3, c, e⟩

/-- The first of the channels that has no room. -/
def fullOut (s : State) (cs : List Nat) (e : Entry) : Option Block :=
  (cs.find? fun c => decide (c < 56) && chRoom s c == 0).map fun c => ⟨4, c, e⟩

/-- OBJ of a held instruction (R344): the flag of the wait whose gate holds it, which may stand behind others in the SYN queue, or 0xFFF
where the gate is a FENCE's or its wait stands at the head and waits for its AFTER condition. -/
def gateObj (s : State) (slot : Nat) (e : Entry) : Nat :=
  let own (l : List Entry) (id : Nat) : Option Entry := l.find? fun w => w.id == id && synIsWait w.op
  match s.gates.find? fun g => g.slots.contains slot && decide (g.bseq < e.bseq) with
  | some g =>
    match own (match s.syn.cur with | some w => w :: s.q.syn | none => s.q.syn.tail) g.id with
    | some w => synFlag w
    | none => 0xFFF
  | none => 0xFFF

/-- The head of a queue is held by a gate. -/
def gateBlock (s : State) (slot : Nat) : Option Block :=
  match getQ s slot with
  | e :: _ => if gated s slot e then some ⟨2, gateObj s slot e, e⟩ else none
  | [] => none

/-- A run of an array, or the instruction at its head as a run that has not begun, waits for lines or for the turn. -/
def runBlock (s : State) (a : Arr) (r : ArrRun) : Option Block :=
  let e := r.e
  if (getArr s a).level ≠ 8 then none
  else if (fetchClk a r s).isSome then
    (if (e.op == 0x12 || e.op == 0x13) && (getArr s a).run.isSome && (adzPartner s a r).isNone then some ⟨6, 0, e⟩ else none)
  else
    match shortIn (fun t => (fetchClk a r t).isSome) (if e.op = 0x11 then [e.chX] else [e.chX, e.chY]) e s with
    | some b => some b
    | none => some ⟨6, 0, e⟩

/-- What blocks an array: the oldest of its work first. -/
def arrBlock (s : State) (a : Arr) : Option Block :=
  let x := getArr s a
  match x.corner with
  | t :: _ => if chRoom s t.e.chOut < (nextRow s t).2.2 then some ⟨4, t.e.chOut, t.e⟩ else none
  | [] =>
    if x.shadow.isSome || x.swap.isSome then none
    else match x.run with
      | some r => runBlock s a r
      | none =>
        match getQ s (Arr.slot a) with
        | e :: _ =>
          if gated s (Arr.slot a) e then some ⟨2, gateObj s (Arr.slot a) e, e⟩
          else if arrBroadcasts e.op then runBlock s a ⟨e, 0, [], [], [], [], [], []⟩
          else none
        | [] => none

/-- The input channels of a chain member, masks first. -/
def memberChans (m : Member) : List Nat :=
  let e := m.e
  let masks := if vecMaskOp e.op then (if e.op = 0x13 ∨ e.op = 0x14 then [e.chX, e.chY] else [e.chX])
    else if e.b1 then [e.d.fld 2 15 10] else []
  masks ++ [0, 1, 2].filterMap fun o => if e.vUses o && decide (e.vSrc o ≤ 1) then some (e.vCh o) else none

/-- What blocks an output of a chain. -/
def outBlock (s : State) (o : OutStream) : Option Block :=
  if o.push && (!o.out.lineq.isEmpty || !o.steps.isEmpty) then fullOut s [o.e.chOut] o.e
  else if o.cnt.isSome then fullOut s [if o.e.op = 0x28 then o.e.d.fld 2 9 4 else o.e.chOut] o.e
  else none

/-- What blocks the vector engine. -/
def vecBlock (s : State) : Option Block :=
  match s.vec.outs.findSome? (outBlock s) with
  | some b => some b
  | none =>
    if s.vec.outs.any (fun o => !o.steps.isEmpty) then none
    else match s.vec.flow with
      | some f =>
        if s.clock.ek < f.step then none
        else
          let hi := min f.len (f.elem + max 1 (stepElems s (f.members.map (·.e))))
          let ok (t : State) : Bool := (stepMembers f.oc f.elem hi f.members t).isSome
          if ok s then none
          else
            let all := f.members.flatMap memberChans
            f.members.findSome? fun m => (memberChans m).findSome? fun c =>
              if c < 56 && !ok (flood (all.filter (· != c)) s) then some ⟨3, c, m.e⟩ else none
      | none =>
        match startedChain s.vec.started with
        | some (ms, _) => if cacheBusy s ms then ms.head?.map fun m => ⟨6, 0, m.e⟩ else none
        | none =>
          match getQ s 2 with
          | e :: _ =>
            if gated s 2 e then some ⟨2, gateObj s 2 e, e⟩
            else if !chainIssued s then some ⟨6, 0, e⟩
            else if wbit e.d.w1 31 && chAvail s (e.d.fld 1 30 25) 3 == 0 then some ⟨5, e.d.fld 1 30 25, e⟩
            else none
          | [] => none

/-- What blocks the RSU. -/
def rsuBlock (s : State) : Option Block :=
  let outs := s.rsu.push.findSome? fun p =>
    fullOut s ((if p.main.lineq.isEmpty then [] else [p.e.chOut]) ++ (if p.aux.lineq.isEmpty then [] else [p.e.rAuxCh]) ++
      (if p.recs.lineq.isEmpty then [] else [p.e.d.fld 3 10 5])) p.e
  match outs with
  | some b => some b
  | none =>
    if s.rsu.push.any (fun p => !p.outs.isEmpty) || !s.rsu.stats.isEmpty then none
    else match s.rsu.run with
      | some r =>
        let ok (t : State) : Bool := (if rsuCarryOp r.e.op then carryClk r t else elemClk r t).isSome
        if ok s then none
        else shortIn ok ([r.e.chX] ++ (if r.e.op = 0x1C then [r.e.chY] else []) ++ (if r.e.rMask then [r.e.d.fld 2 15 10] else [])) r.e s
      | none =>
        if !s.rsu.started.isEmpty then none
        else match getQ s 3 with
          | e :: _ =>
            if gated s 3 e then some ⟨2, gateObj s 3 e, e⟩
            else if wbit e.d.w1 31 && chAvail s (e.d.fld 1 30 25) 4 == 0 then some ⟨5, e.d.fld 1 30 25, e⟩
            else none
          | [] => none

/-- What blocks each MOV instruction in flight; none: it goes on. -/
def movUnits (s : State) : List (Option Block) :=
  let m := s.mov
  let rg := m.rg.filterMap fun g => g.map fun x => fullOut s [x.e.chOut] x.e
  let wg := m.wg.filterMap fun g => g.map fun x =>
    if x.e.op = 5 ∨ x.line ≥ genLines (genStream x.e) ∨ x.land ≠ [] then none else emptyIn s 6 [x.e.chX] x.e
  let tb (t : Option Tin) (ep : Nat) : List (Option Block) := match t with
    | some t => [match (if t.outq.isEmpty then none else fullOut s [t.e.chOut] t.e) with
        | some b => some b
        | none => if t.held.isEmpty && t.outq.isEmpty then emptyIn s ep [t.e.chX] t.e else none]
    | none => []
  let cp (c : Option TileCopy) : List (Option Block) := if c.isSome then [none] else []
  let gath := match m.gath with
    | some g => [match (if g.out.lineq.isEmpty then none else fullOut s [g.e.chOut] g.e) with
        | some b => some b
        | none =>
          if g.work.isSome then none
          else if g.next < g.len then
            emptyIn s 9 ([g.e.chY] ++ (if gMask g.e then [g.e.d.fld 2 19 14] else []) ++ (if g.e.op = 0x18 then [] else [g.e.chX])) g.e
          else if gCnto g.e ≠ 0 then fullOut s [gCnto g.e] g.e
          else none]
    | none => []
  let acmp := match m.acmp with
    | some a => [if a.save then (if a.stage = 0 then emptyIn s 10 [a.e.chX] a.e else none)
        else if a.out.lineq.isEmpty then none else fullOut s [a.e.chOut] a.e]
    | none => []
  let fab := m.fab.map fun o =>
    if o.pops && decide (o.formed < o.packets) then
      shortIn (fun t => decide (chAvail t o.e.chX 11 ≥ ceilDiv (o.packetBytes o.formed) 64)) [o.e.chX] o.e s
    else if o.e.op == 0x2C && decide (o.lines < redLines o.e) then emptyIn s 11 [o.e.chX] o.e
    else if o.e.op = 0x29 ∧ !o.out.lineq.isEmpty then fullOut s [o.e.chOut] o.e
    else none
  rg ++ wg ++ tb m.tb0 7 ++ tb m.tb1 8 ++ cp m.cp0 ++ cp m.cp1 ++ gath ++ acmp ++ fab

/-- The oldest of several blocked instructions. -/
def oldest (bs : List Block) : Option Block :=
  bs.foldl (fun r b => match r with
    | some x => if b.e.id < x.e.id then some b else some x
    | none => some b) none

/-- What blocks the MOV engine. -/
def movBlock (s : State) : Option Block :=
  let us := movUnits s
  if us.any Option.isNone then none
  else match oldest (us.filterMap id) with
    | some b => some b
    | none =>
      match getQ s 4 with
      | e :: _ =>
        let cnt := if 0x18 ≤ e.op ∧ e.op ≤ 0x1A ∧ wbit e.d.w1 31 then some (e.d.fld 1 30 25, 9)
          else if 0x28 ≤ e.op ∧ e.op ≤ 0x2B ∧ wbit e.d.w3 31 then some (e.d.fld 3 30 25, 11)
          else none
        if gated s 4 e then some ⟨2, gateObj s 4 e, e⟩
        else match cnt with
          | some (c, ep) => if chAvail s c ep = 0 then some ⟨5, c, e⟩ else none
          | none => if (e.op = 0x2C ∨ e.op = 0x2D) ∧ s.fab.recv.length ≥ 64 then some ⟨6, 0, e⟩ else none
      | [] => none

/-- What blocks the SYN engine. -/
def synBlock (s : State) : Option Block :=
  match s.syn.cur with
  | some e => if synIsWait e.op && !s.syn.expired then some ⟨1, synFlag e, e⟩ else none
  | none =>
    match getQ s 5 with
    | e :: _ => if afterOk s e then none else some ⟨6, 0, e⟩
    | [] => none

/-- What blocks the SCL engine. -/
def sclBlock (s : State) : Option Block :=
  if !s.scl.fly.isEmpty then none
  else match getQ s 6 with
    | e :: _ =>
      if gated s 6 e then some ⟨2, gateObj s 6 e, e⟩
      else if e.op = 0x28 ∧ chAvail s (sclB e) 13 = 0 then some ⟨5, sclB e, e⟩
      else if e.op = 0x29 then fullOut s [sclB e] e
      else none
    | [] => none

/-- What blocks a slot's engine. -/
def slotBlock (s : State) (slot : Nat) : Option Block :=
  match slot with
  | 0 => arrBlock s .mxa
  | 1 => arrBlock s .mxb
  | 2 => vecBlock s
  | 3 => rsuBlock s
  | 4 => movBlock s
  | 5 => synBlock s
  | _ => sclBlock s

/-- The engine of a slot holds an instruction that has started or stands in its queue (R343). -/
def slotBusy (s : State) (slot : Nat) : Bool :=
  !(getQ s slot).isEmpty || s.live.any fun l => l.slot == slot && !l.done

/-- The conditions of a stalled clk (R343). -/
def stalled (s : State) : Bool :=
  !s.sync.active && !s.issue.issuedNow && s.fab.outst.isEmpty && s.fab.parked.isEmpty && s.fab.rxbuf.isEmpty && s.pwr.state != 2 && !halted s &&
    (List.range 7).any (slotBusy s) && (List.range 7).all fun i => !slotBusy s i || (slotBlock s i).isSome

/-- STALL_SNAP word of a slot (R344). -/
def snapWord (s : State) (slot : Nat) : Word :=
  if !slotBusy s slot then 0
  else match slotBlock s slot with
    | some b => word ((b.kind <<< 29) + ((b.obj % 4096) <<< 16) + b.e.tag.toNat)
    | none => 0

/-- FVAL and FTGT of the SYN head's wait (R344). -/
def snapWait (s : State) : Word :=
  match s.syn.cur with
  | some e => if synIsWait e.op then word (((flagGet s (synFlag e)).toNat <<< 16) + synV e) else 0
  | none => 0

/-- STALL_LIMIT_REACHED: in the clk that brings the count to the limit, the last thing in it, STALL_SNAP is captured and the core faults
with DEADLOCK (R343, R344). -/
def execStallLimitReached (s : State) : Host.Outcome State Fault Refusal :=
  if s.sync.stallLimit ≠ 0 && !s.clock.skip && decide (s.sync.stall + 1 ≥ s.sync.stallLimit) && stalled s then
    let snap := (List.range 7).map (snapWord s) ++ [snapWait s, s.s63]
    .next (raise 0x82 FaultCtx.none { s with sync := { s.sync with snap := snap } })
  else .next s

/-- The stall count of one clk that is not skipped (R343); part of the tick. -/
def stallTick (s : State) : State :=
  if s.sync.stallLimit = 0 then { s with sync := { s.sync with stall := 0 } }
  else { s with sync := { s.sync with stall := if stalled s then s.sync.stall + 1 else 0 } }

end Sys2Proof.Machine
end

