-- ==== Sys2Proof/Machine/Clock.lean ====
section
/-! DEFINITION. Time: what step does on an empty queue, one core_clk cycle, or one ref_clk cycle while core_clk is stopped
(00_scope R10, R11, 01_boundary R32, 12_management R402 to R406, R425, R428; log 2). -/

namespace Sys2Proof.Machine

/-! ## The reference clock (R11) -/

/-- core_clk cycles in one ref_clk cycle at the level in force (00_scope: 0.5, 0.9, 1.3 and 1.5 GHz against 100 MHz). -/
def clkPerRef (s : State) : Nat := [5, 9, 13, 15].getD s.pwr.level.toNat 5

/-- A slow-tick edge (R11, R390, R402 to R404, R429, R430): leases, windows, a queued ALERT, the stream period, and the watchdog, which
the firmware has serviced since the last edge or not (free, log 95). -/
def slowTick (s : State) : State :=
  let o := s.own
  { s with
    free := s.free + 1
    clock := { s.clock with slow := s.clock.slow + 1 }
    own := { o with
      remain := if o.state ≠ 0 ∧ o.remain ≠ 0 then o.remain - 1 else o.remain
      win := if o.state = 2 ∧ o.win ≠ 0 then o.win - 1 else o.win
      window := o.window.map fun w => (w.1, w.2 - 1) }
    rst := { s.rst with wdog := if (Config.freeValue 1 s.free).getLsbD 0 then 0 else s.rst.wdog + 1 }
    err := { s.err with alert := s.err.alert || s.sb.requeue }
    sb := { s.sb with requeue := false }
    cnt := { s.cnt with sinceStream := s.cnt.sinceStream + 1 } }

/-- The frames about ownership that wait in the queue are served: they were received before the edge (R406). -/
def serveOwners (s : State) : State :=
  (s.sb.rxq.filter fun f => frameClass f == 2).foldl
    (fun t f => serveFrame afterReply f { t with sb := { t.sb with rxq := t.sb.rxq.erase f } }) s

/-- The regulator's calibration, which runs continuously (R444, R487, R488): when one ends, and with which code, is free (log 96). -/
def calibrate (s : State) : State :=
  let v := Config.freeValue 9 s.free
  { s with
    free := s.free + 1
    st := { s.st with calCode := if v.getLsbD 8 then v.truncate 8 else s.st.calCode
                      calCnt := if v.getLsbD 8 then s.st.calCnt + 1 else s.st.calCnt } }

/-- The cycle that ends is that of a slow-tick edge, 100,000 cycles after the last (R11). -/
def slowEdge (s : State) : Bool := mgcUp s && s.clock.refc % 100000 == 0 && s.clock.refc != 0

/-- One ref_clk cycle: what the last slow-tick edge left undone, a slow-tick edge with the frames received in its cycle (R406; taken
while the MGC runs, R482), and the frames that can now be served (R386). -/
def refTick (s : State) : State :=
  let s := if mgcUp s then edgeActions s else s
  let s := if slowEdge s then slowTick (serveOwners s) else s
  let s := calibrate { s with clock := { s.clock with refc := s.clock.refc + 1, refFrac := 0 } }
  serveFrames afterReply s.sb.rxq.length s

/-! ## The end of a clk (R343, R425, R428, R447) -/

/-- A bundle or mark could issue now, queue room aside (R97 to R101). -/
def bundleWaits (s : State) : Option W8 :=
  match nextPos s with
  | some (h, _, b) => if mayIssue s then some (halfBundle (getHalf s h) b) else none
  | none => none

/-- Everything that blocks in this clk: the slots', and each MOV unit's. -/
def blocks (s : State) : List Block :=
  ([0, 1, 2, 3, 5, 6].filterMap fun i => slotBlock s i) ++ (movUnits s).filterMap id

/-- Counts of waits on channels (R428 sources 0x040 + c and 0x080 + c). -/
def countWaits (s : State) : State :=
  if !s.cnt.en || halted s then s
  else
    let full := ((blocks s).filter fun b => b.kind == 4).map (·.obj)
    let dry := ((blocks s).filter fun b => b.kind == 3 || b.kind == 5).map (·.obj)
    let t := full.eraseDups.foldl (fun u c => bump (0x040 + c) 1 u) s
    dry.eraseDups.foldl (fun u c => bump (0x080 + c) 1 u) t

/-- A closed tile, or a DRAIN that may start, waits for its shadow (R168, R182, R428). -/
def shadowWaits (s : State) (a : Arr) : Bool :=
  let x := getArr s a
  x.shadow.isSome && (match x.swap with
    | some (c, _) => decide (c < s.clock.clk)
    | none => arrFree s a && (headFor s (Arr.slot a) 0x18).isSome)

/-- Pool accesses deferred by bank contention in this clk (R280, R428 source 0x028), a free number (log 6). -/
def deferred (s : State) : State :=
  if s.cnt.en && s.cnt.sel.contains 0x028 then
    let r := List.zipWith (cntStep 0x028 (Config.freeNat s.free)) s.cnt.sel s.cnt.val
    { s with free := s.free + 1, cnt := { s.cnt with val := r.map Prod.fst
                                                     ovf := (List.range 16).foldl (fun o i => if (r.getD i (0, false)).2 then o ||| (1 <<< i) else o) s.cnt.ovf } }
  else s

/-- Counts of a clk that ends (R425, R428). -/
def countClk (s : State) : State :=
  let s := bump (if s.clock.skip then 0x002 else 0x001) 1 s
  let s := match bundleWaits s with
    | some b => if hdrKind b.w0 == 0 && !roomFor s b then bump 0x004 1 s else s
    | none => s
  if s.clock.skip then s
  else
    let s := if shadowWaits s .mxa then bump 0x01A 1 s else s
    let s := if shadowWaits s .mxb then bump 0x01B 1 s else s
    countWaits (deferred s)

/-- Nothing issuable, queues empty, nothing in flight, no request outstanding in this clk (R447). -/
def idleClk (s : State) : Bool :=
  s.pwr.state == 0 && !s.issue.issuedNow && enginesIdle s && s.fab.outst.isEmpty && (bundleWaits s).isNone

/-- What takes effect at the end of a clk: flag adds of the fabric (R324), carry records that have arrived (R269), the events of the scale
slots (R87), the copy of a checkpoint stop that has passed E1 (R468), and the errors detected (R457). -/
def landClk (s : State) : State := settle (copyBegin (landScales (landCarries (landAdds s))))

/-- The clk ends: counts, the arrays' update, the stall count, the idle count. -/
def endClk (s : State) : State :=
  let s := countClk s
  let s := if s.clock.skip then s else arrTick .mxb (arrTick .mxa (stallTick s))
  { s with issue := { s.issue with idleRun := if idleClk s then s.issue.idleRun + 1 else 0 } }

/-! ## The next clk -/

/-- The next clk begins: what held for one clk is cleared, completed instructions and the finished spring command leave, the droop window
decides whether it is skipped (R134, R330, R338, R339, R424). -/
def nextClk (s : State) : State :=
  let c := s.clock.clk + 1
  let skip := skips s.clock c
  let s := { s with
    clock := { s.clock with clk := c, ek := if skip then s.clock.ek else s.clock.ek + 1, skip := skip, refFrac := s.clock.refFrac + 1
                            pushes := 0, pops := 0 }
    undo := none
    started := []
    flagOld := []
    live := s.live.filter fun l => !l.done
    gates := s.gates.filter fun g => !g.done
    sync := { s.sync with active := false }
    cnt := { s.cnt with cyc := if s.cnt.en then (s.cnt.cyc + 1) % 2 ^ 48 else s.cnt.cyc, base := s.cnt.val }
    issue := { s.issue with issuedNow := false, lateRun := if s.out.coreLate then s.issue.lateRun + 1 else s.issue.lateRun } }
  let s := retireCmd (if s.out.coreLate then bump 0x006 1 s else s)
  if s.clock.refFrac ≥ clkPerRef s then refTick s else s

/-- A route commit that need not wait for a beat edge: halted, Idle or Hold (R352). -/
def commitNow (s : State) : State :=
  if s.fab.commit && !installing s && (s.pins.pondHalt || s.pwr.state == 1 || s.pwr.state == 2) then routeSwap s else s

/-- What the engines and the port do in a clk without a command of their own. -/
def engineClk (s : State) : State :=
  let s := commitNow (drainParked s)
  let s := if s.clock.skip then s else joinForks s
  let s := copyTick 1 (copyTick 0 (tinTick 1 (tinTick 0 (wgTick (rgTick (rsuTick s))))))
  synTick (fabTick (acmpTick (gatherTick s)))

/-- One step of time (log 2). -/
def tick (s : State) : State :=
  let s := landClk s
  if awake s && stepDone s 2 then engineClk (nextClk (endClk s)) else refTick s

end Sys2Proof.Machine
end

