-- ==== Sys2Proof/Machine/Patrol.lean ====
section
/-! DEFINITION. Patrol scrub and the write-back of corrected words (09_pool_and_movement R277, R279). -/

namespace Sys2Proof.Machine

/-- Rows of a bank (R275). -/
def bankRows (s : State) : Nat := bankBytes s / 32

/-- The pool address of row r of bank b; none where the bank belongs to no area (R283). -/
def rowAddr (s : State) (b r : Nat) : Option Nat :=
  let area := (List.range 5).find? fun x => decide ((areaOf s x).first ≤ b) && decide (b < (areaOf s x).first + (areaOf s x).nb)
  area.map fun x =>
    let a := areaOf s x
    a.first * bankBytes s + 32 * (r * a.nb + (b - a.first + a.nb - r % a.nb) % a.nb)

/-- Patrol's read of one word (R279): a correctable word waits for its write-back; an uncorrectable word takes poison 1, is
counted and logged, and raises no fault. -/
def patrolWord (w : Nat) (s : State) : State :=
  let s := eccMistake w s
  match eccFinds s w with
  | 1 => eccCount 1 w s
  | 2 => logError 0x46 (FaultCtx.args (8 * w) 0) { s with
      err := { s.err with poolUe := satCount 16 (s.err.poolUe + 1) }
      pool := { s.pool with poison := mset false s.pool.poison w true, upset := mset 0 s.pool.upset w 0 } }
  | _ => s

/-- Whole passes that patrol has made over every powered bank. -/
def patrolPasses (s : State) : Option Nat :=
  ((List.range 64).filter (pdOn s)).foldl (fun m b =>
    let n := mget 0 s.pool.patrolRow b / bankRows s
    match m with
    | some k => some (min k n)
    | none => some n) none

/-- PATROL_READ: the next row of a powered bank (R279). -/
def execPatrolRead (bank : BitVec 6) (s : State) : Host.Outcome State Fault Refusal :=
  let b := bank.toNat
  if s.clock.skip || !awake s || !stepDone s 6 || !pdOn s b then .next s
  else
    let n := mget 0 s.pool.patrolRow b
    let c := bump (0x0C0 + b) 1 s
    let t := match rowAddr s b (n % bankRows s) with
      | some a => (List.range 4).foldl (fun u i => patrolWord (a / 8 + i) u) c
      | none => c
    let u := { t with pool := { t.pool with patrolRow := mset 0 t.pool.patrolRow b (n + 1) } }
    if patrolPasses u = patrolPasses s then .next u else .next (bump 0x02A 1 u)

/-- CORRECTED_WRITEBACK of ECC word row, unless a write has reached it first (R277). -/
def execCorrectedWriteback (row : BitVec 19) (s : State) : Host.Outcome State Fault Refusal :=
  let w := row.toNat
  if !s.clock.skip && awake s && s.pool.writeback.contains w then
    .next (bumpBank (8 * w) { s with pool := { s.pool with
      upset := mset 0 s.pool.upset w 0, writeback := s.pool.writeback.filter (· != w) } })
  else .next s

end Sys2Proof.Machine
end

