-- ==== Sys2Proof/Machine/Requests.lean ====
section
/-! DEFINITION. Side-band requests (12_management R393 to R405), and the management commands that a single-word WRITE or READ
frame carries. -/

namespace Sys2Proof.Machine

/-- A frame row takes its own TYPE, and any frame whose bytes are bad or whose TYPE is reserved (log 20). -/
def frameRow (t : Byte) (f : Frame) (s : State) : Host.Outcome State Fault Refusal :=
  if f.typ = t ∨ !frameOk f ∨ !knownFrame f.typ then .next (takeFrame afterReply f s) else .next s

/-- HELLO (R393, R400). -/
def execHello (f : Frame) (s : State) : Host.Outcome State Fault Refusal := frameRow 0x01 f s
/-- DISCOVER (R393). -/
def execDiscover (f : Frame) (s : State) : Host.Outcome State Fault Refusal := frameRow 0x02 f s
/-- READ (R396). -/
def execRead (f : Frame) (s : State) : Host.Outcome State Fault Refusal := frameRow 0x05 f s
/-- WRITE (R396). -/
def execWrite (f : Frame) (s : State) : Host.Outcome State Fault Refusal := frameRow 0x07 f s
/-- CLAIM (R402). -/
def execClaim (f : Frame) (s : State) : Host.Outcome State Fault Refusal := frameRow 0x0A f s
/-- RENEW (R403). -/
def execRenew (f : Frame) (s : State) : Host.Outcome State Fault Refusal := frameRow 0x0D f s
/-- RELEASE (R405). -/
def execRelease (f : Frame) (s : State) : Host.Outcome State Fault Refusal := frameRow 0x0E f s
/-- WAKE (R398). -/
def execWake (f : Frame) (s : State) : Host.Outcome State Fault Refusal := frameRow 0x0F f s
/-- ALERT_ACK (R393). -/
def execAlertAck (f : Frame) (s : State) : Host.Outcome State Fault Refusal := frameRow 0x08 f s

/-- A whole frame with the payload of a request row. -/
def reqFrame (r : Req) (typ : Byte) (payload : List Byte) : Frame :=
  let f : Frame := ⟨r.dst, r.src, typ, r.seq, BitVec.ofNat 8 payload.length, payload, 0, true⟩
  { f with crc := crc32c (frameBytes f) }

/-- A WRITE frame of one word (R396). -/
def write1 (r : Req) (a : Nat) (w : Word) (s : State) : Host.Outcome State Fault Refusal :=
  .next (takeFrame afterReply (reqFrame r 0x07 (leBytes 2 a ++ [1, 0] ++ wordBytes w)) s)

/-- A READ frame of one word (R396). -/
def read1 (r : Req) (a : Nat) (s : State) : Host.Outcome State Fault Refusal :=
  .next (takeFrame afterReply (reqFrame r 0x05 (leBytes 2 a ++ [1, 0])) s)

/-- RST_CMD, REACH cold (R439). -/
def execRstCmdCold (r : Req) (s : State) : Host.Outcome State Fault Refusal := write1 r 0x0404 1 s
/-- RST_CMD, REACH warm (R439). -/
def execRstCmdWarm (r : Req) (s : State) : Host.Outcome State Fault Refusal := write1 r 0x0404 2 s
/-- RST_CMD, REACH data (R439). -/
def execRstCmdData (r : Req) (s : State) : Host.Outcome State Fault Refusal := write1 r 0x0404 3 s
/-- RST_CMD, REACH engine (R439). -/
def execRstCmdEngine (r : Req) (eng : BitVec 3) (s : State) : Host.Outcome State Fault Refusal :=
  write1 r 0x0404 (packWord [(4, eng.toNat), (0, 4)]) s

/-- IMG_CTL with a CMD for a slot (R417). -/
def imgCtl (r : Req) (slot : Bool) (cmd : Nat) (s : State) : Host.Outcome State Fault Refusal :=
  write1 r 0x1000 (packWord [(4, b2n slot), (0, cmd)]) s

/-- IMG_BEGIN (R418). -/
def execImgBegin (r : Req) (slot : Bool) (s : State) : Host.Outcome State Fault Refusal := imgCtl r slot 1 s
/-- IMG_END (R418). -/
def execImgEnd (r : Req) (slot : Bool) (s : State) : Host.Outcome State Fault Refusal := imgCtl r slot 2 s
/-- IMG_ABORT (R418). -/
def execImgAbort (r : Req) (slot : Bool) (s : State) : Host.Outcome State Fault Refusal := imgCtl r slot 3 s
/-- ACTIVATE (R419). -/
def execActivate (r : Req) (slot : Bool) (s : State) : Host.Outcome State Fault Refusal := imgCtl r slot 4 s
/-- IMG_WINDOW (R418). -/
def execImgWindow (r : Req) (w : Word) (s : State) : Host.Outcome State Fault Refusal := write1 r 0x100C w s
/-- IMG_HASH_WRITE (R420). -/
def execImgHashWrite (r : Req) (slot : Bool) (i : BitVec 3) (w : Word) (s : State) : Host.Outcome State Fault Refusal :=
  write1 r ((if slot then 0x1040 else 0x1020) + 4 * i.toNat) w s

/-- PATCH_BEGIN (R411). -/
def execPatchBegin (r : Req) (s : State) : Host.Outcome State Fault Refusal := write1 r 0x8004 1 s
/-- PATCH_END (R411). -/
def execPatchEnd (r : Req) (s : State) : Host.Outcome State Fault Refusal := write1 r 0x8004 2 s
/-- PATCH_APPLY (R411). -/
def execPatchApply (r : Req) (s : State) : Host.Outcome State Fault Refusal := write1 r 0x8004 3 s
/-- PATCH_WINDOW (R411). -/
def execPatchWindow (r : Req) (w : Word) (s : State) : Host.Outcome State Fault Refusal := write1 r 0x800C w s
/-- DBG_LOCK (R411). -/
def execDbgLock (r : Req) (s : State) : Host.Outcome State Fault Refusal := write1 r 0x8000 1 s

/-- OWN_LOCK (R407). -/
def execOwnLock (r : Req) (s : State) : Host.Outcome State Fault Refusal := write1 r 0x0100 0x20000000 s
/-- EOPEN_CLEAR (R400). -/
def execEopenClear (r : Req) (s : State) : Host.Outcome State Fault Refusal := write1 r 0x0100 0x10000000 s
/-- OWN_HANDOVER (R404). -/
def execOwnHandover (r : Req) (succ : Byte) (s : State) : Host.Outcome State Fault Refusal :=
  write1 r 0x010C (succ.zeroExtend 32) s
/-- ENROL (R400). -/
def execEnrol (r : Req) (n : BitVec 4) (w : Word) (s : State) : Host.Outcome State Fault Refusal :=
  write1 r (0x0140 + 4 * n.toNat) w s

/-- ERR_FIRST_CLEAR (R459). -/
def execErrFirstClear (r : Req) (s : State) : Host.Outcome State Fault Refusal := write1 r 0x3000 0x80000000 s
/-- STALL_CTL_WRITE (R342). -/
def execStallCtlWrite (r : Req) (w : Word) (s : State) : Host.Outcome State Fault Refusal := write1 r 0x3804 w s
/-- ROUTE_DATA_WRITE (R352). -/
def execRouteDataWrite (r : Req) (w : Word) (s : State) : Host.Outcome State Fault Refusal := write1 r 0x4004 w s
/-- ROUTE_DATA_READ (R352). -/
def execRouteDataRead (r : Req) (s : State) : Host.Outcome State Fault Refusal := read1 r 0x4004 s
/-- ROUTE_COPY (R352). -/
def execRouteCopy (r : Req) (s : State) : Host.Outcome State Fault Refusal := write1 r 0x4008 4 s
/-- ROUTE_COMMIT (R352). -/
def execRouteCommit (r : Req) (s : State) : Host.Outcome State Fault Refusal := write1 r 0x4008 1 s

/-- CNT_CLR: the other fields as they stand (R424). -/
def execCntClr (r : Req) (s : State) : Host.Outcome State Fault Refusal :=
  write1 r 0x2000 (((readCounters s 0x2000).getD 0) ||| 1) s
/-- CNT_LO_READ of a LO word (R424). -/
def execCntLoRead (r : Req) (addr : BitVec 16) (s : State) : Host.Outcome State Fault Refusal :=
  if (cntValue s addr.toNat).isSome then read1 r addr.toNat s else .next s

/-- ENTER_SHALLOWS: WCNT as it stands (R449, R452). -/
def execEnterShallows (r : Req) (s : State) : Host.Outcome State Fault Refusal :=
  write1 r 0x0800 (packWord [(8, s.pwr.wcnt), (0, 3)]) s
/-- ENTER_OFF (R449). -/
def execEnterOff (r : Req) (s : State) : Host.Outcome State Fault Refusal :=
  write1 r 0x0800 (packWord [(8, s.pwr.wcnt), (0, 4)]) s

/-- ARM_CHECK: a write of CKPT_CTL with ARM = 1 and no CMD (R465). -/
def execArmCheck (r : Req) (w : Word) (s : State) : Host.Outcome State Fault Refusal :=
  if wbit w 31 && wfld w 2 0 == 0 then write1 r 0x501C w s else .next s
/-- RESTORE_LOCAL: a write of CKPT_CTL with CMD 1 (R479). -/
def execRestoreLocal (r : Req) (w : Word) (s : State) : Host.Outcome State Fault Refusal :=
  if wfld w 2 0 = 1 then write1 r 0x501C w s else .next s
/-- RESTORE_REMOTE (R479). -/
def execRestoreRemote (r : Req) (w : Word) (s : State) : Host.Outcome State Fault Refusal :=
  if wfld w 2 0 = 2 then write1 r 0x501C w s else .next s
/-- RESTORE_HELD (R479). -/
def execRestoreHeld (r : Req) (w : Word) (s : State) : Host.Outcome State Fault Refusal :=
  if wfld w 2 0 = 3 then write1 r 0x501C w s else .next s

/-- ST_CTL with a CMD (R486). -/
def stCtl (r : Req) (queue : Bool) (cmd : Nat) (s : State) : Host.Outcome State Fault Refusal :=
  write1 r 0x6000 (packWord [(4, b2n queue), (0, cmd)]) s

/-- LBIST (R487). -/
def execLbist (r : Req) (queue : Bool) (s : State) : Host.Outcome State Fault Refusal := stCtl r queue 1 s
/-- BUFFER_MBIST (R487). -/
def execBufferMbist (r : Req) (queue : Bool) (s : State) : Host.Outcome State Fault Refusal := stCtl r queue 2 s
/-- POOL_MBIST (R487). -/
def execPoolMbist (r : Req) (queue : Bool) (s : State) : Host.Outcome State Fault Refusal := stCtl r queue 3 s
/-- SELF_TEST_ALL (R487). -/
def execSelfTestAll (r : Req) (queue : Bool) (s : State) : Host.Outcome State Fault Refusal := stCtl r queue 4 s

end Sys2Proof.Machine
end

