-- ==== Sys2Proof/Machine/Tap.lean ====
section
/-! DEFINITION. The TAP and the IEEE 1500 wrapper (01_boundary R39 to R41). -/

namespace Sys2Proof.Machine

/-! ## The controller (R39) -/

/-- The next state of the controller at a rising edge of tck. -/
def TapCtl.next (tms : Bool) : TapCtl → TapCtl
  | .reset => if tms then .reset else .idle
  | .idle => if tms then .selDr else .idle
  | .selDr => if tms then .selIr else .captureDr
  | .captureDr => if tms then .exit1Dr else .shiftDr
  | .shiftDr => if tms then .exit1Dr else .shiftDr
  | .exit1Dr => if tms then .updateDr else .pauseDr
  | .pauseDr => if tms then .exit2Dr else .pauseDr
  | .exit2Dr => if tms then .updateDr else .shiftDr
  | .updateDr => if tms then .selDr else .idle
  | .selIr => if tms then .reset else .captureIr
  | .captureIr => if tms then .exit1Ir else .shiftIr
  | .shiftIr => if tms then .exit1Ir else .shiftIr
  | .exit1Ir => if tms then .updateIr else .pauseIr
  | .pauseIr => if tms then .exit2Ir else .pauseIr
  | .exit2Ir => if tms then .updateIr else .shiftIr
  | .updateIr => if tms then .selDr else .idle

/-- The IDCODE register (R39): version and part number are open (log 7). -/
def idcodeWord (s : State) : Word :=
  packWord [(12, Config.idPart.toNat), (1, s.cfg.mfr.toNat), (0, 1)]

/-- Bits of the data register that an instruction selects: IDCODE 32, the others, BYPASS, 1. -/
def drBits (ir : Byte) : Nat := if ir = 0x01 then 32 else 1

/-- A rising edge of tck in each state, with idc the IDCODE register: capture, shift and update of the two registers (the low bits 01
of a captured instruction are IEEE 1149.1's; PRESUMED, log 14). -/
def Tap.clock (idc : Word) (tms tdi : Bool) (t : Tap) : Tap :=
  let u := match t.ctl with
    | .reset => { t with ir := 0x01, tdo := none }
    | .captureIr => { t with sh := 1, tdo := none }
    | .shiftIr => { t with sh := t.sh / 2 + 128 * b2n tdi, tdo := some (t.sh.testBit 0) }
    | .updateIr => { t with ir := BitVec.ofNat 8 t.sh, tdo := none }
    | .captureDr => { t with sh := if t.ir = 0x01 then idc.toNat else 0, tdo := none }
    | .shiftDr => { t with sh := t.sh / 2 + b2n tdi * 2 ^ (drBits t.ir - 1), tdo := some (t.sh.testBit 0) }
    | _ => { t with tdo := none }
  { u with ctl := t.ctl.next tms }

/-- Clocks of tck with their tms and tdi: the bits that tdo gives, first bit least significant. -/
def Tap.run (idc : Word) : List (Bool × Bool) → Nat → Nat → Tap → Tap × Nat
  | [], _, acc, t => (t, acc)
  | (m, d) :: l, n, acc, t =>
    let u := t.clock idc m d
    match u.tdo with
    | some b => Tap.run idc l (n + 1) (acc + b2n b * 2 ^ n) u
    | none => Tap.run idc l n acc u

/-- The clocks that take the controller to Run-Test/Idle. -/
def toIdle (c : TapCtl) : List (Bool × Bool) :=
  match c with
  | .idle => []
  | .reset => [(false, false)]
  | _ => (List.replicate 5 (true, false)) ++ [(false, false)]

/-- n bits of v shifted in, the last with tms 1. -/
def shiftBits (n v : Nat) : List (Bool × Bool) := (List.range n).map fun i => (decide (i + 1 = n), v.testBit i)

/-- An instruction scan from Run-Test/Idle and back to it. -/
def irScan (ir : Byte) : List (Bool × Bool) :=
  [(true, false), (true, false), (false, false), (false, false)] ++ shiftBits 8 ir.toNat ++ [(true, false), (false, false)]

/-- A data scan of 32 zeros from Run-Test/Idle and back to it. -/
def drScan : List (Bool × Bool) := [(true, false), (false, false), (false, false)] ++ shiftBits 32 0 ++ [(true, false), (false, false)]

/-- An instruction is scanned in. -/
def tapSelect (ir : Byte) (s : State) : State :=
  { s with tap := ((s.tap.run (idcodeWord s) (toIdle s.tap.ctl ++ irScan ir) 0 0).1) }

/-- The register that the instruction selects is scanned out. -/
def tapRead (s : State) : State :=
  let r := s.tap.run (idcodeWord s) drScan 0 0
  { s with tap := { r.1 with dr := word r.2 } }

/-- TAP_RESET: trst_n takes the controller to Test-Logic-Reset, where IDCODE is selected; the debug reset's bit and the count of
blocked accesses stay (R39; log 14). -/
def execTapReset (s : State) : Host.Outcome State Fault Refusal :=
  .next { s with tap := { s.tap with ctl := .reset, sh := 0, tdo := none, ir := 0x01, dr := 0 } }

/-- IDCODE (R39): its scan, and the scan of its register. -/
def execIdcode (s : State) : Host.Outcome State Fault Refusal := .next (tapRead (tapSelect 0x01 s))

/-- BYPASS, 0xFF or any value but IDCODE and IJTAG (R39). -/
def execBypass (ir : Byte) (s : State) : Host.Outcome State Fault Refusal :=
  if ir = 0x01 ∨ ir = 0x10 then .next s else .next (tapRead (tapSelect ir s))

/-! ## The IJTAG network (R40) -/

/-- A data access that debug lock blocks: it reads as 0 and is counted (R40). -/
def blockedAccess (s : State) : State := { s with tap := { s.tap with dr := 0, blocked := s.tap.blocked + 1 } }

/-- IJTAG: the network is selected; a data access goes to the management window, or to an instrument whose contents the spec
does not give (R40; log 7). While the MGC is not up a window access reads 0 and writes nothing, and so does one of an offset without a
register (DESIGN CHOICE, log 68). -/
def execIjtag (access : Ijtag) (s : State) : Host.Outcome State Fault Refusal :=
  let t := tapSelect 0x10 s
  match access with
  | .select => .next t
  | .windowRead a =>
    if s.dbg.lock then .next (blockedAccess t)
    else if !mgcUp s then .next { t with tap := { t.tap with dr := 0 } }
    else .next { readEffect a.toNat t with tap := { t.tap with dr := (regValue s a.toNat).getD 0 } }
  | .windowWrite a w =>
    if s.dbg.lock then .next (blockedAccess t)
    else if !mgcUp s then .next t
    else match regWrite a.toNat w t with
      | (u, 0) => .next (if a = 0x0404 ∨ a = 0x0800 then actAfter (a.toNat, w) u else u)
      | (u, _) => .next u
  | .instrument _ _ =>
    if s.dbg.lock then .next (blockedAccess t)
    else
      let (v, u) := freshBits 32 t
      .next { u with tap := { u.tap with dr := v } }

/-! ## The wrapper (R41) -/

/-- What the core itself drives on the outputs that the wrapper encloses. -/
def corePads (s : State) : Pads :=
  ⟨s.out.sprRdy, s.out.coreLate, s.out.coreFault, s.out.thermWarn, s.pwr.ready, s.trim.fuseReq, BitVec.ofNat 2 (plLimit s), 0⟩

/-- The outputs as they stand at the boundary. -/
def padsSeen (s : State) : Pads := s.tap.pads.getD (corePads s)

/-- A wrapper instruction is in its register (R41), and the wrapper drives p. -/
def setWir (n : Nat) (p : Option Pads) (s : State) : State := { s with tap := { s.tap with wir := n, pads := p, wso := false, wpo := 0 } }

/-- The cells take what is shifted in, which the command does not carry (log 93). -/
def freePads (s : State) : Pads :=
  let v := Config.freeValue 8 s.free
  ⟨v.getLsbD 0, v.getLsbD 1, v.getLsbD 2, v.getLsbD 3, v.getLsbD 4, v.getLsbD 5, v.extractLsb' 6 2, Config.freeNat s.free⟩

/-- What a scan of the core's chains shifts out (log 93): a free value on wso, or on wpo. -/
def scanOut (par : Bool) (s : State) : State :=
  let v := Config.freeValue 32 s.free
  { s with free := s.free + 1, tap := { s.tap with wso := if par then s.tap.wso else v.getLsbD 0, wpo := if par then v else s.tap.wpo } }

/-- WS_BYPASS. -/
def execWsBypass (s : State) : Host.Outcome State Fault Refusal := .next (setWir 0 none s)
/-- WS_EXTEST: the boundary register drives the outputs, and is shifted out. -/
def execWsExtest (s : State) : Host.Outcome State Fault Refusal := .next (scanOut false (setWir 1 (some s.tap.cells) s))
/-- WS_PRELOAD: the boundary register is shifted in. -/
def execWsPreload (s : State) : Host.Outcome State Fault Refusal :=
  let t := setWir 2 none s
  .next (scanOut false { t with tap := { t.tap with cells := freePads s } })
/-- WS_CLAMP: the boundary register drives the outputs. -/
def execWsClamp (s : State) : Host.Outcome State Fault Refusal := .next (setWir 3 (some s.tap.cells) s)
/-- WS_SAFE: every output at its reset state (R41). -/
def execWsSafe (s : State) : Host.Outcome State Fault Refusal := .next (setWir 4 (some Pads.reset) s)
/-- WS_INTEST_SCAN. -/
def execWsIntestScan (s : State) : Host.Outcome State Fault Refusal := .next (scanOut false (setWir 5 none s))
/-- WP_EXTEST. -/
def execWpExtest (s : State) : Host.Outcome State Fault Refusal := .next (scanOut true (setWir 6 (some s.tap.cells) s))
/-- WP_INTEST_SCAN. -/
def execWpIntestScan (s : State) : Host.Outcome State Fault Refusal := .next (scanOut true (setWir 7 none s))

end Sys2Proof.Machine
end

