-- ==== Sys2Proof/Machine/Dispatch.lean ====
section
/-! DEFINITION. One arm for each command of Syntax.lean: the meaning it has (the table of spec/opcode_table.json). -/

namespace Sys2Proof.Machine

/-- The effect of a command on everything but the queue. -/
def exec (i : Instr) (s : State) : Host.Outcome State Fault Refusal :=
  match i with
  | .springDataFlit typ data => Sys2Proof.Machine.execSpringDataFlit typ data s
  | .loadBlock w3 w2 w1 w0 => Sys2Proof.Machine.execLoadBlock w3 w2 w1 w0 s
  | .replay w3 w2 w1 w0 => Sys2Proof.Machine.execReplay w3 w2 w1 w0 s
  | .descLoad w3 w2 w1 w0 => Sys2Proof.Machine.execDescLoad w3 w2 w1 w0 s
  | .beatNo w3 w2 w1 w0 => Sys2Proof.Machine.execBeatNo w3 w2 w1 w0 s
  | .resume w3 w2 w1 w0 => Sys2Proof.Machine.execResume w3 w2 w1 w0 s
  | .descLoadExecute => Sys2Proof.Machine.execDescLoadExecute s
  | .beatNoExecute => Sys2Proof.Machine.execBeatNoExecute s
  | .patchListApply => Sys2Proof.Machine.execPatchListApply s
  | .bundleIssue => Sys2Proof.Machine.execBundleIssue s
  | .beatMark => Sys2Proof.Machine.execBeatMark s
  | .holdMark => Sys2Proof.Machine.execHoldMark s
  | .imgswMark => Sys2Proof.Machine.execImgswMark s
  | .ckptMark => Sys2Proof.Machine.execCkptMark s
  | .beatDue => Sys2Proof.Machine.execBeatDue s
  | .beatEdge => Sys2Proof.Machine.execBeatEdge s
  | .plTargetChange level => Sys2Proof.Machine.execPlTargetChange level s
  | .plCommit edge => Sys2Proof.Machine.execPlCommit edge s
  | .plReadyRise => Sys2Proof.Machine.execPlReadyRise s
  | .pondHaltRise => Sys2Proof.Machine.execPondHaltRise s
  | .droopAlertRise => Sys2Proof.Machine.execDroopAlertRise s
  | .droopAlertFall => Sys2Proof.Machine.execDroopAlertFall s
  | .droopWindowEnd => Sys2Proof.Machine.execDroopWindowEnd s
  | .gmiTxCredit ch => Sys2Proof.Machine.execGmiTxCredit ch s
  | .packetHandoff ch => Sys2Proof.Machine.execPacketHandoff ch s
  | .putPacket p => Sys2Proof.Machine.execPutPacket p s
  | .getPacket p => Sys2Proof.Machine.execGetPacket p s
  | .getrPacket p => Sys2Proof.Machine.execGetrPacket p s
  | .ackPacket p => Sys2Proof.Machine.execAckPacket p s
  | .nackPacket p => Sys2Proof.Machine.execNackPacket p s
  | .raccPacket p => Sys2Proof.Machine.execRaccPacket p s
  | .faddPacket p => Sys2Proof.Machine.execFaddPacket p s
  | .carryPacket p => Sys2Proof.Machine.execCarryPacket p s
  | .rconPacket p => Sys2Proof.Machine.execRconPacket p s
  | .rresPacket p => Sys2Proof.Machine.execRresPacket p s
  | .probePacket p => Sys2Proof.Machine.execProbePacket p s
  | .proberPacket p => Sys2Proof.Machine.execProberPacket p s
  | .resetPacket p => Sys2Proof.Machine.execResetPacket p s
  | .thermWarn logic sram => Sys2Proof.Machine.execThermWarn logic sram s
  | .thermalTrip logic sram => Sys2Proof.Machine.execThermalTrip logic sram s
  | .brownOut => Sys2Proof.Machine.execBrownOut s
  | .brownOutRelease => Sys2Proof.Machine.execBrownOutRelease s
  | .porAssert => Sys2Proof.Machine.execPorAssert s
  | .porRelease straps => Sys2Proof.Machine.execPorRelease straps s
  | .chipRstAssert => Sys2Proof.Machine.execChipRstAssert s
  | .chipRstRelease => Sys2Proof.Machine.execChipRstRelease s
  | .internalResetRelease bit => Sys2Proof.Machine.execInternalResetRelease bit s
  | .resetStepStart k => Sys2Proof.Machine.execResetStepStart k s
  | .resetStepComplete k => Sys2Proof.Machine.execResetStepComplete k s
  | .fuseFrameEnd words => Sys2Proof.Machine.execFuseFrameEnd words s
  | .fuseTimeout => Sys2Proof.Machine.execFuseTimeout s
  | .fuseRetry => Sys2Proof.Machine.execFuseRetry s
  | .tapReset => Sys2Proof.Machine.execTapReset s
  | .idcode => Sys2Proof.Machine.execIdcode s
  | .bypass ir => Sys2Proof.Machine.execBypass ir s
  | .ijtag access => Sys2Proof.Machine.execIjtag access s
  | .debugReset reach => Sys2Proof.Machine.execDebugReset reach s
  | .wsBypass => Sys2Proof.Machine.execWsBypass s
  | .wsExtest => Sys2Proof.Machine.execWsExtest s
  | .wsPreload => Sys2Proof.Machine.execWsPreload s
  | .wsClamp => Sys2Proof.Machine.execWsClamp s
  | .wsSafe => Sys2Proof.Machine.execWsSafe s
  | .wsIntestScan => Sys2Proof.Machine.execWsIntestScan s
  | .wpExtest => Sys2Proof.Machine.execWpExtest s
  | .wpIntestScan => Sys2Proof.Machine.execWpIntestScan s
  | .mma a => Sys2Proof.Machine.execMma a s
  | .mman a => Sys2Proof.Machine.execMman a s
  | .cdl1 a => Sys2Proof.Machine.execCdl1 a s
  | .cdl2 a => Sys2Proof.Machine.execCdl2 a s
  | .cminp a => Sys2Proof.Machine.execCminp a s
  | .cmaxp a => Sys2Proof.Machine.execCmaxp a s
  | .ccnt a => Sys2Proof.Machine.execCcnt a s
  | .drain a => Sys2Proof.Machine.execDrain a s
  | .discard a => Sys2Proof.Machine.execDiscard a s
  | .arm a => Sys2Proof.Machine.execArm a s
  | .quiet a => Sys2Proof.Machine.execQuiet a s
  | .gpdx => Sys2Proof.Machine.execGpdx s
  | .gpdw => Sys2Proof.Machine.execGpdw s
  | .fwdx => Sys2Proof.Machine.execFwdx s
  | .adz => Sys2Proof.Machine.execAdz s
  | .kstepBroadcast a => Sys2Proof.Machine.execKstepBroadcast a s
  | .tileSwap a => Sys2Proof.Machine.execTileSwap a s
  | .drainRowPush a => Sys2Proof.Machine.execDrainRowPush a s
  | .activityLevelStep a => Sys2Proof.Machine.execActivityLevelStep a s
  | .vecAdd => Sys2Proof.Machine.execVecAdd s
  | .vecSub => Sys2Proof.Machine.execVecSub s
  | .vecMul => Sys2Proof.Machine.execVecMul s
  | .fma => Sys2Proof.Machine.execFma s
  | .fms => Sys2Proof.Machine.execFms s
  | .fnma => Sys2Proof.Machine.execFnma s
  | .mul3 => Sys2Proof.Machine.execMul3 s
  | .abs => Sys2Proof.Machine.execAbs s
  | .neg => Sys2Proof.Machine.execNeg s
  | .vecMin => Sys2Proof.Machine.execVecMin s
  | .vecMax => Sys2Proof.Machine.execVecMax s
  | .clamp => Sys2Proof.Machine.execClamp s
  | .sqd => Sys2Proof.Machine.execSqd s
  | .cmp => Sys2Proof.Machine.execCmp s
  | .sel => Sys2Proof.Machine.execSel s
  | .vecAnd => Sys2Proof.Machine.execVecAnd s
  | .vecOr => Sys2Proof.Machine.execVecOr s
  | .vecXor => Sys2Proof.Machine.execVecXor s
  | .mand => Sys2Proof.Machine.execMand s
  | .mor => Sys2Proof.Machine.execMor s
  | .mnot => Sys2Proof.Machine.execMnot s
  | .cvt => Sys2Proof.Machine.execCvt s
  | .perm => Sys2Proof.Machine.execPerm s
  | .shuf => Sys2Proof.Machine.execShuf s
  | .zip => Sys2Proof.Machine.execZip s
  | .even => Sys2Proof.Machine.execEven s
  | .odd => Sys2Proof.Machine.execOdd s
  | .pack => Sys2Proof.Machine.execPack s
  | .unpack => Sys2Proof.Machine.execUnpack s
  | .ocw => Sys2Proof.Machine.execOcw s
  | .cmprs => Sys2Proof.Machine.execCmprs s
  | .expand => Sys2Proof.Machine.execExpand s
  | .cnt => Sys2Proof.Machine.execCnt s
  | .rng => Sys2Proof.Machine.execRng s
  | .exp2 => Sys2Proof.Machine.execExp2 s
  | .log2 => Sys2Proof.Machine.execLog2 s
  | .rcp => Sys2Proof.Machine.execRcp s
  | .rsqrt => Sys2Proof.Machine.execRsqrt s
  | .sqrt => Sys2Proof.Machine.execSqrt s
  | .tanh => Sys2Proof.Machine.execTanh s
  | .sigm => Sys2Proof.Machine.execSigm s
  | .erf => Sys2Proof.Machine.execErf s
  | .utab => Sys2Proof.Machine.execUtab s
  | .chainFlowStart => Sys2Proof.Machine.execChainFlowStart s
  | .vecStep => Sys2Proof.Machine.execVecStep s
  | .vecResultPush => Sys2Proof.Machine.execVecResultPush s
  | .rsum => Sys2Proof.Machine.execRsum s
  | .rsumsq => Sys2Proof.Machine.execRsumsq s
  | .rmax => Sys2Proof.Machine.execRmax s
  | .rmin => Sys2Proof.Machine.execRmin s
  | .ramax => Sys2Proof.Machine.execRamax s
  | .ramin => Sys2Proof.Machine.execRamin s
  | .topk => Sys2Proof.Machine.execTopk s
  | .botk => Sys2Proof.Machine.execBotk s
  | .rstatMv => Sys2Proof.Machine.execRstatMv s
  | .rstatMs => Sys2Proof.Machine.execRstatMs s
  | .rstatLse => Sys2Proof.Machine.execRstatLse s
  | .scadd => Sys2Proof.Machine.execScadd s
  | .scmax => Sys2Proof.Machine.execScmax s
  | .scmin => Sys2Proof.Machine.execScmin s
  | .scmul => Sys2Proof.Machine.execScmul s
  | .lrec => Sys2Proof.Machine.execLrec s
  | .crset => Sys2Proof.Machine.execCrset s
  | .crld => Sys2Proof.Machine.execCrld s
  | .crst => Sys2Proof.Machine.execCrst s
  | .crcomb => Sys2Proof.Machine.execCrcomb s
  | .csend => Sys2Proof.Machine.execCsend s
  | .rsuFlowStart => Sys2Proof.Machine.execRsuFlowStart s
  | .rsuResultPush => Sys2Proof.Machine.execRsuResultPush s
  | .statRecordWrite => Sys2Proof.Machine.execStatRecordWrite s
  | .rd => Sys2Proof.Machine.execRd s
  | .wr => Sys2Proof.Machine.execWr s
  | .rdm => Sys2Proof.Machine.execRdm s
  | .wrm => Sys2Proof.Machine.execWrm s
  | .zero => Sys2Proof.Machine.execZero s
  | .generatorLinePush g => Sys2Proof.Machine.execGeneratorLinePush g s
  | .generatorLinePop g => Sys2Proof.Machine.execGeneratorLinePop g s
  | .tin0 => Sys2Proof.Machine.execTin0 s
  | .tin1 => Sys2Proof.Machine.execTin1 s
  | .tinUnitEmit b => Sys2Proof.Machine.execTinUnitEmit b s
  | .tpc0 => Sys2Proof.Machine.execTpc0 s
  | .tpc1 => Sys2Proof.Machine.execTpc1 s
  | .tpci0 => Sys2Proof.Machine.execTpci0 s
  | .tpci1 => Sys2Proof.Machine.execTpci1 s
  | .gath => Sys2Proof.Machine.execGath s
  | .scst => Sys2Proof.Machine.execScst s
  | .movScadd => Sys2Proof.Machine.execMovScadd s
  | .gatherEntryStart => Sys2Proof.Machine.execGatherEntryStart s
  | .acsv => Sys2Proof.Machine.execAcsv s
  | .acrs => Sys2Proof.Machine.execAcrs s
  | .put => Sys2Proof.Machine.execPut s
  | .get => Sys2Proof.Machine.execGet s
  | .getp => Sys2Proof.Machine.execGetp s
  | .racc => Sys2Proof.Machine.execRacc s
  | .rsend => Sys2Proof.Machine.execRsend s
  | .rmaxs => Sys2Proof.Machine.execRmaxs s
  | .patrolRead bank => Sys2Proof.Machine.execPatrolRead bank s
  | .correctedWriteback row => Sys2Proof.Machine.execCorrectedWriteback row s
  | .fset => Sys2Proof.Machine.execFset s
  | .fadd => Sys2Proof.Machine.execFadd s
  | .fwge => Sys2Proof.Machine.execFwge s
  | .fweq => Sys2Proof.Machine.execFweq s
  | .ftake => Sys2Proof.Machine.execFtake s
  | .fence => Sys2Proof.Machine.execFence s
  | .twge => Sys2Proof.Machine.execTwge s
  | .tweq => Sys2Proof.Machine.execTweq s
  | .ttake => Sys2Proof.Machine.execTtake s
  | .rfadd => Sys2Proof.Machine.execRfadd s
  | .flagWaitPass => Sys2Proof.Machine.execFlagWaitPass s
  | .timedWaitExpiry => Sys2Proof.Machine.execTimedWaitExpiry s
  | .timedWaitProceed => Sys2Proof.Machine.execTimedWaitProceed s
  | .sclAdd => Sys2Proof.Machine.execSclAdd s
  | .sclSub => Sys2Proof.Machine.execSclSub s
  | .sclMul => Sys2Proof.Machine.execSclMul s
  | .sclAnd => Sys2Proof.Machine.execSclAnd s
  | .sclOr => Sys2Proof.Machine.execSclOr s
  | .sclXor => Sys2Proof.Machine.execSclXor s
  | .shl => Sys2Proof.Machine.execShl s
  | .shr => Sys2Proof.Machine.execShr s
  | .sra => Sys2Proof.Machine.execSra s
  | .sclMin => Sys2Proof.Machine.execSclMin s
  | .sclMax => Sys2Proof.Machine.execSclMax s
  | .minu => Sys2Proof.Machine.execMinu s
  | .maxu => Sys2Proof.Machine.execMaxu s
  | .slt => Sys2Proof.Machine.execSlt s
  | .sltu => Sys2Proof.Machine.execSltu s
  | .addi => Sys2Proof.Machine.execAddi s
  | .andi => Sys2Proof.Machine.execAndi s
  | .ori => Sys2Proof.Machine.execOri s
  | .xori => Sys2Proof.Machine.execXori s
  | .shli => Sys2Proof.Machine.execShli s
  | .shri => Sys2Proof.Machine.execShri s
  | .srai => Sys2Proof.Machine.execSrai s
  | .cmov => Sys2Proof.Machine.execCmov s
  | .li => Sys2Proof.Machine.execLi s
  | .lui => Sys2Proof.Machine.execLui s
  | .divu => Sys2Proof.Machine.execDivu s
  | .remu => Sys2Proof.Machine.execRemu s
  | .drd => Sys2Proof.Machine.execDrd s
  | .dwr => Sys2Proof.Machine.execDwr s
  | .cpop => Sys2Proof.Machine.execCpop s
  | .cpush => Sys2Proof.Machine.execCpush s
  | .tcfg => Sys2Proof.Machine.execTcfg s
  | .tcommit => Sys2Proof.Machine.execTcommit s
  | .trd => Sys2Proof.Machine.execTrd s
  | .jread => Sys2Proof.Machine.execJread s
  | .sclComplete => Sys2Proof.Machine.execSclComplete s
  | .holdEntry => Sys2Proof.Machine.execHoldEntry s
  | .idleEntry => Sys2Proof.Machine.execIdleEntry s
  | .imageInstallStart => Sys2Proof.Machine.execImageInstallStart s
  | .installationComplete => Sys2Proof.Machine.execInstallationComplete s
  | .ckptStopEntry => Sys2Proof.Machine.execCkptStopEntry s
  | .selfTestComplete fail => Sys2Proof.Machine.execSelfTestComplete fail s
  | .restoreComplete => Sys2Proof.Machine.execRestoreComplete s
  | .beatOverrun => Sys2Proof.Machine.execBeatOverrun s
  | .stallLimitReached => Sys2Proof.Machine.execStallLimitReached s
  | .hello f => Sys2Proof.Machine.execHello f s
  | .discover f => Sys2Proof.Machine.execDiscover f s
  | .read f => Sys2Proof.Machine.execRead f s
  | .write f => Sys2Proof.Machine.execWrite f s
  | .claim f => Sys2Proof.Machine.execClaim f s
  | .renew f => Sys2Proof.Machine.execRenew f s
  | .release f => Sys2Proof.Machine.execRelease f s
  | .wake f => Sys2Proof.Machine.execWake f s
  | .alertAck f => Sys2Proof.Machine.execAlertAck f s
  | .alert => Sys2Proof.Machine.execAlert s
  | .event => Sys2Proof.Machine.execEvent s
  | .sidebandCollision => Sys2Proof.Machine.execSidebandCollision s
  | .sidebandBackoffExpiry => Sys2Proof.Machine.execSidebandBackoffExpiry s
  | .leaseExpiry => Sys2Proof.Machine.execLeaseExpiry s
  | .electionWindowClose => Sys2Proof.Machine.execElectionWindowClose s
  | .handoverWindowExpiry => Sys2Proof.Machine.execHandoverWindowExpiry s
  | .mgcWatchdogExpiry => Sys2Proof.Machine.execMgcWatchdogExpiry s
  | .rstCmdCold r => Sys2Proof.Machine.execRstCmdCold r s
  | .rstCmdWarm r => Sys2Proof.Machine.execRstCmdWarm r s
  | .rstCmdData r => Sys2Proof.Machine.execRstCmdData r s
  | .rstCmdEngine r eng => Sys2Proof.Machine.execRstCmdEngine r eng s
  | .imgBegin r slot => Sys2Proof.Machine.execImgBegin r slot s
  | .imgEnd r slot => Sys2Proof.Machine.execImgEnd r slot s
  | .imgAbort r slot => Sys2Proof.Machine.execImgAbort r slot s
  | .activate r slot => Sys2Proof.Machine.execActivate r slot s
  | .imgWindow r w => Sys2Proof.Machine.execImgWindow r w s
  | .imgHashWrite r slot idx w => Sys2Proof.Machine.execImgHashWrite r slot idx w s
  | .imageCheckComplete => Sys2Proof.Machine.execImageCheckComplete s
  | .patchBegin r => Sys2Proof.Machine.execPatchBegin r s
  | .patchEnd r => Sys2Proof.Machine.execPatchEnd r s
  | .patchApply r => Sys2Proof.Machine.execPatchApply r s
  | .patchWindow r w => Sys2Proof.Machine.execPatchWindow r w s
  | .patchCheckComplete => Sys2Proof.Machine.execPatchCheckComplete s
  | .ownLock r => Sys2Proof.Machine.execOwnLock r s
  | .eopenClear r => Sys2Proof.Machine.execEopenClear r s
  | .ownHandover r succ => Sys2Proof.Machine.execOwnHandover r succ s
  | .enrol r n w => Sys2Proof.Machine.execEnrol r n w s
  | .dbgLock r => Sys2Proof.Machine.execDbgLock r s
  | .errFirstClear r => Sys2Proof.Machine.execErrFirstClear r s
  | .stallCtlWrite r w => Sys2Proof.Machine.execStallCtlWrite r w s
  | .routeDataWrite r w => Sys2Proof.Machine.execRouteDataWrite r w s
  | .routeDataRead r => Sys2Proof.Machine.execRouteDataRead r s
  | .routeCopy r => Sys2Proof.Machine.execRouteCopy r s
  | .routeCopyComplete => Sys2Proof.Machine.execRouteCopyComplete s
  | .routeCommit r => Sys2Proof.Machine.execRouteCommit r s
  | .cntClr r => Sys2Proof.Machine.execCntClr r s
  | .cntLoRead r addr => Sys2Proof.Machine.execCntLoRead r addr s
  | .enterShallows r => Sys2Proof.Machine.execEnterShallows r s
  | .enterOff r => Sys2Proof.Machine.execEnterOff r s
  | .watchWindow samples frame => Sys2Proof.Machine.execWatchWindow samples frame s
  | .armCheck r w => Sys2Proof.Machine.execArmCheck r w s
  | .armProbeTimeout => Sys2Proof.Machine.execArmProbeTimeout s
  | .restoreLocal r w => Sys2Proof.Machine.execRestoreLocal r w s
  | .restoreRemote r w => Sys2Proof.Machine.execRestoreRemote r w s
  | .restoreHeld r w => Sys2Proof.Machine.execRestoreHeld r w s
  | .lbist r queue => Sys2Proof.Machine.execLbist r queue s
  | .bufferMbist r queue => Sys2Proof.Machine.execBufferMbist r queue s
  | .poolMbist r queue => Sys2Proof.Machine.execPoolMbist r queue s
  | .selfTestAll r queue => Sys2Proof.Machine.execSelfTestAll r queue s
  | .pondHaltFall => Sys2Proof.Machine.execPondHaltFall s
  | .debugResetRelease => Sys2Proof.Machine.execDebugResetRelease s

end Sys2Proof.Machine
end

