-- ==== Sys2Proof/Safety.lean ====
section
/-! DEFINITION. What counts as a safe state of the core, in the terms that claims use. -/

namespace Sys2Proof.Machine

/-- The canonical form of a memory of bytes (the pool, the operand cache): addresses strictly rising, and no entry equal to
0, which an unlisted address reads as. -/
abbrev Memory.wf (m : List Host.Cell) : Bool := mwf (0 : Byte) m

/-- The sparse stores of the state are in canonical form: pool bytes and poison bits, S registers, descriptors, flags,
scale slots, operand cache, carry registers. -/
def State.canonical (s : State) : Bool :=
  Memory.wf s.pool.mem && mwf false s.pool.poison && mwf (0 : Word) s.sregs && mwf W8.zero s.descs &&
    mwf (0 : BitVec 16) s.flags && mwf ScaleRec.init s.scales && Memory.wf s.ocache && mwf crDefault s.crs

/-- No engine queue holds more than its eight entries (R97). -/
def State.queuesFit (s : State) : Bool :=
  [s.q.mxa, s.q.mxb, s.q.vec, s.q.rsu, s.q.mov, s.q.syn, s.q.scl].all fun l => decide (l.length ≤ 8)

end Sys2Proof.Machine
end

