-- ==== Sys2Proof/Certificates/Slice0/Obligations.lean ====
section
/-! DEFINITION. The statements about the core, for the provers. Every statement rests on the model's own readings where its
docstring names a log entry. -/

/-! ## Helpers of the statements -/

namespace Sys2Proof.Claims

open Sys2Proof Sys2Proof.Machine

/-- The command answers the next state t. -/
abbrev Answers (c : Instr) (s t : State) : Prop := exec c s = Host.Outcome.next t

/-- The spring receiver takes a flit: spr_rdy is 1 and pond_halt is 0 (R16, R144). -/
structure Takes (s : State) : Prop where
  rdy : s.out.sprRdy = true
  halt : s.pins.pondHalt = false

/-- Registers, descriptors, scale slots (with what has reached them in this clk), flags, operand cache, carry registers, pool and
channels are as before. -/
structure StoresKept (s t : State) : Prop where
  pool : t.pool = s.pool
  ocache : t.ocache = s.ocache
  sregs : t.sregs = s.sregs
  descs : t.descs = s.descs
  scales : t.scales = s.scales
  flags : t.flags = s.flags
  crs : t.crs = s.crs
  chans : t.chans = s.chans
  scaleNow : t.scaleNow = s.scaleNow

/-- The same after a halt: of fork channels, the lines that one consumer has popped and not used are gone (R273, R321). -/
abbrev StoresKeptHalted (s t : State) : Prop := StoresKept { s with chans := s.chans.map Chan.dropHolds } t

/-- A write of n bytes at a finds every word that it covers in part free of an uncorrectable error and of poison (R278). -/
abbrev Writable (s : State) (a n : Nat) : Prop :=
  ∀ w ∈ eccWords a n, (a ≤ 8 * w ∧ 8 * w + 8 ≤ a + n) ∨ eccState s w < 2

/-- No word of the n bytes at a is uncorrectable or poisoned (R277). -/
abbrev Readable (s : State) (a n : Nat) : Prop := ∀ w ∈ eccWords a n, eccState s w < 2

/-- No word of the n bytes at a is one that a read takes for another valid word (R276). -/
abbrev NotMistaken (s : State) (a n : Nat) : Prop := ∀ w ∈ eccWords a n, eccFinds s w ≠ 3

/-- The n bytes at a hold bs, with the poison bit of each of their words so, and every other byte and word is as before. -/
def Stored (s : State) (a n : Nat) (bs : List Byte) (poison : Bool) (t : State) : Prop :=
  (∀ i, mget (0 : Byte) t.pool.mem i = if a ≤ i ∧ i < a + n then bs.getD (i - a) 0 else mget 0 s.pool.mem i) ∧
  (∀ w, mget false t.pool.poison w = if w ∈ eccWords a n then poison else mget false s.pool.poison w)

/-- The ECC words that w bits from bit address b on touch. -/
def bitWords (b w : Nat) : List Nat := (List.range ((b + w - 1) / 64 + 1 - b / 64)).map (· + b / 64)

/-- No word of the elements (bit address, bits) is uncorrectable, poisoned, or one that a read takes for another (R276, R277). -/
abbrev Clean (s : State) (els : List (Nat × Nat)) : Prop := ∀ x ∈ els, ∀ w ∈ bitWords x.1 x.2, eccState s w < 2

/-- t has the elements (bit address, bits, code) of els written: each that shares no bit with another holds its code, every byte
that none of them touches is as before, their words lose their poison, and other words keep theirs (R278). -/
def Wrote (els : List (Nat × Nat × Nat)) (s t : State) : Prop :=
  (∀ (n : Nat) x, els[n]? = some x →
    (∀ (m : Nat) y, els[m]? = some y → m ≠ n → x.1 + x.2.1 ≤ y.1 ∨ y.1 + y.2.1 ≤ x.1) →
    readBits t.pool.mem x.1 x.2.1 = x.2.2 % 2 ^ x.2.1) ∧
  (∀ i, (∀ x ∈ els, i < x.1 / 8 ∨ (x.1 + x.2.1 - 1) / 8 < i) → mget (0 : Byte) t.pool.mem i = mget 0 s.pool.mem i) ∧
  (∀ w, mget false t.pool.poison w = if ∃ x ∈ els, w ∈ bitWords x.1 x.2.1 then false else mget false s.pool.poison w)

/-- Of the stores only the pool may differ. -/
abbrev PoolAlone (s t : State) : Prop := StoresKept { s with pool := t.pool } t

/-- Side-band ownership, image slots and image in force, job registers, checkpoint registers, pins, licence parameters
and reset state are as before. -/
structure ControlKept (s t : State) : Prop where
  cfg : t.cfg = s.cfg
  pins : t.pins = s.pins
  own : t.own = s.own
  img : t.img.a = s.img.a ∧ t.img.b = s.img.b ∧ t.img.cur = s.img.cur
  job : t.job = s.job
  ckpt : t.ckpt = s.ckpt
  rst : t.rst = s.rst
  trim : t.trim = s.trim

/-- The head e of a slot's queue may start in this clk (R100, R328): the engine may act, has started nothing else in this
clk, e issued in an earlier clk and no gate of an earlier SYN instruction names the slot. es is the rest of the queue. -/
structure Startable (s : State) (slot : Nat) (e : Entry) (es : List Entry) : Prop where
  queue : getQ s slot = e :: es
  engine : engOk s slot = true
  first : s.started.contains slot = false
  later : e.clk < s.clock.clk
  free : gated s slot e = false

/-- The state after the head of a slot's queue has left it: the entry is freed, event 0x010 + slot is counted, and the slot
starts nothing more in this clk (R100, R428). -/
def left (slot : Nat) (es : List Entry) (s : State) : State :=
  let t := bump (0x010 + slot) 1 (setQ slot es s)
  { t with started := t.started ++ [slot] }

/-- The port takes the packet p in this clk: fabric port up, no skipped clk, no installation, nothing waits before it, and
credits for its flits (R28, R385, R421, R443). -/
structure Arrives (p : Pkt) (s : State) : Prop where
  awake : awake s = true
  port : stepDone s 7 = true
  clk : s.clock.skip = false
  installing : installing s = false
  parked : s.fab.parked = []
  credit : p.flits ≤ rxCredit s p.ch.toNat

/-- The framing and the CRC of p are right (R356 steps 1 and 2). -/
structure Intact (p : Pkt) : Prop where
  flits : p.flits = flitsOf p.plen
  contig : p.contig = true
  crc : packetCrc p.hdr p.data = p.w7

/-- p passes every check of R356, and no halt and no checkpoint copy stops it (R358, R474). -/
structure Accepted (p : Pkt) (s : State) : Prop extends Arrives p s, Intact p where
  form : formOk p = true
  core : p.core = s.straps.core.toNat
  job : jobOk s p = true
  going : stopped s p = false

/-- What an arriving packet counts before its effect: its flits, and the packet by its type (R428). -/
def counted (p : Pkt) (s : State) : State := bump (0x100 + 2 * p.typ + 1) 1 (bump 0x141 p.flits s)

/-- Where the chip of p's sender has a route, one packet more waits to be sent: a packet of type typ to the sender's core,
with p's TAGX, the poison bit and the payload (R349, R353, R360). -/
def Replied (p : Pkt) (typ : Nat) (poison : Bool) (payload : List Byte) (s t : State) : Prop :=
  ∀ e, activeRoute s p.srcChip = some e →
    ∃ k, t.fab.txq = s.fab.txq ++ [k] ∧ wfld k.hdr.w0 31 27 = typ ∧ wbit k.hdr.w0 26 = poison ∧
      wfld k.hdr.w0 7 0 = p.tagx ∧ wfld k.hdr.w0 16 8 = payload.length ∧
      k.hdr.w2.toNat * 2 ^ 32 + k.hdr.w1.toNat = fabAddr p.srcChip 1 (p.srcCore * 2 ^ 24) ∧
      k.payload = payload ∧ k.hdr.w7 = packetCrc k.hdr payload ∧ k.req = none

/-- Every piece of state that a reset of data reach or wider clears holds its reset value, and steps 8 and 9 are held: the
receiver, the issue point's chain and marks, every engine's queue and work, S registers, S63, descriptors, scale slots,
flags, channels, carry registers and operand cache; the arrays hold no work, and their level ramps down under R188 before
their domain is held; the core is Idle (R192, R431, R433). -/
structure ProgramCleared (s t : State) : Prop where
  rcv : t.rcv = Rcv.init
  queues : t.q = Queues.empty
  live : t.live = []
  arrays : t.mxa = { ArrState.init with level := s.mxa.level, cnt := s.mxa.cnt } ∧
    t.mxb = { ArrState.init with level := s.mxb.level, cnt := s.mxb.cnt } ∧ t.turn = Turn.init
  engines : t.vec = VecState.init ∧ t.rsu = RsuState.init ∧ t.mov = MovState.init ∧ t.syn = SynState.init ∧
    t.scl = SclState.init
  store : t.sregs = [] ∧ t.s63 = 0 ∧ t.descs = [] ∧ t.scales = [] ∧ t.scaleNow = [] ∧ t.flags = [] ∧ t.crs = [] ∧ t.ocache = []
  chans : t.chans = List.replicate 56 Chan.empty
  outs : t.out.sprRdy = false ∧ t.out.coreLate = false ∧ t.out.coreFault = false
  mode : t.pwr.state = 1
  steps : ∀ i, i < t.rst.steps.length → 7 ≤ i → (t.rst.steps.getD i ⟨0, 0, 0, 0⟩).st = 0

/-- The state in which the core acts on a frame it has taken: the frame is counted, and frames driven before are no longer listed or
attempted again (R428, log 21). -/
def heard (s : State) : State :=
  bump 0x160 1 { s with sb := { s.sb with out := [], retry := s.sb.retry.filter fun r => r.slots != 0 } }

/-- The core is on the bus, no frame waits in its queue, no lease, handover or window has just run out, and no work comes before that
of class cls (R386, R387, R406). -/
structure Listens (cls : Nat) (s : State) : Prop where
  up : mgcUp s = true
  queue : s.sb.rxq = []
  edge : edgeWork s = false
  pend : cls ≤ pendingClass s

/-- The source is enrolled, and the core has not answered this SEQ and TYPE of it last (R395, R399). -/
def Unanswered (src seq typ : Byte) (s : State) : Prop :=
  ∃ i e, enrolIdx s src = some i ∧ s.own.enrol.getD i EnrolEnt.init = e ∧ ∀ q t g, e.last = some (q, t, g) → ¬(q = seq ∧ t = typ)

/-- A request of class cls of an enrolled station to this core that is not the one it answered last (R386, R392, R395, R399). -/
structure Asks (src dst seq typ : Byte) (cls : Nat) (s : State) : Prop extends Listens cls s where
  dst : dst = BitVec.zeroExtend 8 s.straps.slot
  known : Unanswered src seq typ s

/-- The same, from the owner (R401). -/
structure Orders (r : Req) (typ : Byte) (cls : Nat) (s : State) : Prop extends Asks r.src r.dst r.seq typ cls s where
  owned : s.own.state ≠ 0
  owner : r.src = s.own.owner

/-- t is u with one reply driven: to the station src, with its SEQ, the type and the payload; besides the bus, the counters
and what the core remembers of the request nothing differs (R392, R395). -/
structure Replies (src seq typ : Byte) (payload : List Byte) (u t : State) : Prop where
  out : ∃ g, t.sb.out = u.sb.out ++ [g] ∧ g.dst = src ∧ g.src = BitVec.zeroExtend 8 u.straps.slot ∧ g.typ = typ ∧ g.seq = seq ∧
    g.payload = payload ∧ g.crc = crc32c (frameBytes g)
  rest : t = { u with sb := { u.sb with out := t.sb.out }, cnt := t.cnt, own := { u.own with enrol := t.own.enrol } }
  enrol : t.own.enrol.map (fun e => (e.v, e.claim, e.maxpri, e.station)) =
    u.own.enrol.map (fun e => (e.v, e.claim, e.maxpri, e.station))

/-- t is u but for what the core remembers of the request: no reply is driven (R393, R396, R402). -/
structure Silent (u t : State) : Prop where
  rest : t = { u with own := { u.own with enrol := t.own.enrol } }
  enrol : t.own.enrol.map (fun e => (e.v, e.claim, e.maxpri, e.station)) =
    u.own.enrol.map (fun e => (e.v, e.claim, e.maxpri, e.station))

/-- The owner's write is acknowledged, its effect made u (R396). -/
abbrev Acked (r : Req) (u t : State) : Prop := Replies r.src r.seq 0x08 [] u t

/-- The owner's write is refused with a code of R394. -/
abbrev Nacked (r : Req) (code : Byte) (u t : State) : Prop := Replies r.src r.seq 0x09 [code, 0, 0, 0] u t

/-- A management command of class cls of the owner that meets the condition ok makes the state e of the state in which it is heard,
and is acknowledged. -/
def Makes (cls : Nat) (c : Req → Instr) (ok : State → Prop) (e : State → State) : Prop :=
  ∀ (s : State) (r : Req), Orders r 0x07 cls s → ok s → ∃ t, Answers (c r) s t ∧ Acked r (e (heard s)) t

/-- One that meets the condition is refused with the code, and makes e of the state, which is nothing where e is id. -/
def Refuses (cls : Nat) (c : Req → Instr) (ok : State → Prop) (code : Byte) (e : State → State) : Prop :=
  ∀ (s : State) (r : Req), Orders r 0x07 cls s → ok s → ∃ t, Answers (c r) s t ∧ Nacked r code (e (heard s)) t

/-- The checkpoint body's flags, descriptors, registers, scale slots and carry registers stand in t (R463, R479). -/
structure Restored (body : List Byte) (t : State) : Prop where
  flags : ∀ f, f < 4096 → flagGet t f = BitVec.ofNat 16 (leNat ((body.drop (2 * f)).take 2))
  descs : ∀ c d, c < 6 → d < 64 → descGet t (c + 1) d = W8.ofList (bytesWords 8 (body.drop (0x2000 + 32 * (64 * c + d))))
  sregs : ∀ n, 1 ≤ n → n ≤ 59 → sreg t n = word (leNat ((body.drop (0x5000 + 4 * n)).take 4))
  s63 : t.s63 = word (leNat ((body.drop 0x50FC).take 4))
  scales : ∀ n, n < 64 → scaleBase t n = ScaleRec.ofWords (bytesWords 18 (body.drop (0x5100 + 72 * n)))
  crs : ∀ n, n < 64 → crGet t n = BitVec.ofNat 64 (leNat ((body.drop (0x6300 + 8 * n)).take 8))

end Sys2Proof.Claims

open Sys2Proof Sys2Proof.Machine Sys2Proof.Claims

/-! ## The block as a machine -/

/-- A step of a state whose queue has a command at its front is that command's effect on the state with the queue's rest. -/
def Obligations.StepRunsFrontCommand : Prop :=
  ∀ (c : Instr) (cs : List Instr) (s : State), step { s with pending := c :: cs } = exec c { s with pending := cs }

/-- The model's choice (log 2): on an empty queue a step is one core_clk. What takes effect at the end of the clk does so, and
its errors are recorded (R457); then, while the core is awake and its clocks run, the clk number grows by one, and CYC grows by one
exactly where EN is 1 (R424), unless the clk lands a flag add, processes a packet of an installation or serves a frame that waited,
each of which can clear the counters; the queue stays empty. -/
def Obligations.EmptyQueueRunsOneCycle : Prop :=
  ∀ s : State, s.pending = [] → ∃ t, step s = Host.Outcome.next t ∧ t.pending = [] ∧ t.cfg = s.cfg ∧
    (awake (landClk s) = true → stepDone (landClk s) 2 = true →
      t = engineClk (nextClk (endClk (landClk s))) ∧ t.clock.clk = s.clock.clk + 1 ∧
      (s.fab.adds = [] → s.fab.parked = [] → s.sb.rxq = [] →
        t.cnt.cyc = if s.cnt.en then (s.cnt.cyc + 1) % 2 ^ 48 else s.cnt.cyc)) ∧
    (awake (landClk s) = true → stepDone (landClk s) 2 = false → t = refTick (landClk s))

/-- R407, R424, R433, R438, R452, R459, R488: what the window reads right after reset, where the reset value is not 0, and some
registers that read 0; every flag, S register, descriptor, scale-slot field and pool byte reads 0. The licence parameters, the
straps and the point of the release are the model's choice (log 3, log 4, log 5). -/
def Obligations.ResetLeavesTheResetValues : Prop :=
  (∀ p ∈ [(0x0100, (0x10FF0000 : Word)), (0x0108, 0x1000), (0x010C, 0xFF), (0x0110, 0), (0x0114, 0), (0x0140, 0), (0x0400, 1),
      (0x0408, 0x1FF), (0x0800, 0x20000000), (0x0840, 100), (0x1004, 0), (0x1800, 0), (0x1808, 1), (0x180C, 1), (0x1810, 0), (0x1814, 0), (0x2000, 0x1000),
      (0x2004, 0), (0x2080, 0), (0x3000, 0), (0x3004, 0x70000000), (0x3020, 0), (0x3800, 0x400), (0x3804, 0x10000),
      (0x4000, 0), (0x4008, 0), (0x4010, 0), (0x501C, 0), (0x5020, 0), (0x6004, 0x00FF0000), (0x6014, 0x8000),
      (0x8000, 0), (0x8008, 0)], regValue State.reset p.1 = some p.2) ∧
  (∀ f, flagGet State.reset f = 0) ∧ (∀ r, r < 60 → sreg State.reset r = 0) ∧ (∀ c d, descGet State.reset c d = W8.zero) ∧
  (∀ n, scaleGet State.reset n = ScaleRec.init) ∧ (∀ a, mget (0 : Byte) State.reset.pool.mem a = 0) ∧
  State.reset.pending = [] ∧ queuesEmpty State.reset = true ∧ State.reset.out = ⟨true, false, false, false⟩ ∧
  State.reset.canonical = true ∧ State.reset.queuesFit = true

/-- Every step keeps the canonical form of the stores: pool bytes and poison bits, S registers, descriptors, flags, scale
slots, operand cache and carry registers. -/
def Obligations.EveryStepKeepsTheCanonicalForm : Prop :=
  ∀ s t : State, s.canonical = true → step s = Host.Outcome.next t → t.canonical = true

/-- R97: every step keeps each engine queue within eight entries, for every command and every state that meets it; it takes at
most the command at the front of the model's own queue, and never changes the licence parameters. -/
def Obligations.EveryStepKeepsQueuesWithinEight : Prop :=
  ∀ s t : State, step s = Host.Outcome.next t →
    (s.queuesFit = true → t.queuesFit = true) ∧ t.cfg = s.cfg ∧ t.pending = s.pending.tail

/-- R457, R458, R459: the errors of a clk are recorded when it ends. A halting fault raises core_fault, lowers core_late and
queues ALERT, and stops the engines; a log-kind error does none of these. Either latches ERR_FIRST and FAULT_INFO while V is 0
and counts in MORE otherwise, and writes one ERR_LOG entry. Of two faults in one clk the lower code is the first error, and
both are logged in ascending code order. -/
def Obligations.ErrorsAreRecordedWhenTheClkEnds : Prop :=
  (∀ (s : State) (x : Fresh), s.err.fresh = [x] → s.err.log.length = 32 → s.err.wptr < 32 →
    let t := settle s
    t.err.fresh = [] ∧ t.err.v = true ∧
    (s.err.v = false → t.err.code = x.code ∧ t.err.info = x.info ∧ t.err.more = 0) ∧
    (s.err.v = true → t.err.code = s.err.code ∧ t.err.info = s.err.info ∧ t.err.more = satCount 8 (s.err.more + 1)) ∧
    (t.err.log.getD s.err.wptr LogEnt.init).v = true ∧ (t.err.log.getD s.err.wptr LogEnt.init).code = x.code ∧
    (t.err.log.getD s.err.wptr LogEnt.init).tag = x.tag ∧ t.err.wptr = (s.err.wptr + 1) % 32 ∧
    (∀ i, i ≠ s.err.wptr → t.err.log.getD i LogEnt.init = s.err.log.getD i LogEnt.init) ∧
    (x.halt = true → t.out = { s.out with coreFault := true, coreLate := false } ∧ t.err.alert = true ∧ t.live = [] ∧
      t.mxa.run = none ∧ t.mxb.run = none ∧ t.vec = VecState.init ∧ t.rsu = RsuState.init ∧ t.mov = MovState.init ∧
      t.scl = SclState.init ∧ StoresKeptHalted s t) ∧
    (x.halt = false → t.out = s.out ∧ t.err.alert = s.err.alert ∧ t.live = s.live ∧ t.q = s.q ∧ t.mxa = s.mxa ∧ t.vec = s.vec ∧
      StoresKept s t)) ∧
  (∀ (s : State) (x y : Fresh), s.err.fresh = [x, y] → y.code < x.code → s.err.v = false → s.err.log.length = 32 →
    s.err.wptr < 31 →
    let t := settle s
    t.err.code = y.code ∧ t.err.info = y.info ∧ t.err.more = 1 ∧
    (t.err.log.getD s.err.wptr LogEnt.init).code = y.code ∧ (t.err.log.getD (s.err.wptr + 1) LogEnt.init).code = x.code) ∧
  (∀ (s : State) (code : Byte) (x : FaultCtx), s.err.fresh = [] →
    (raise code x s).err.fresh.map (fun f => (f.code, f.halt)) = [(code, true)] ∧
    (logError code x s).err.fresh.map (fun f => (f.code, f.halt)) = [(code, false)])

/-! ## Spring commands and issue (04_loading, 03_program) -/

/-- R135, R137, R132: an accepted LOAD_BLOCK makes its half invalid and begins the load with the counts and the CRC of its
words; nothing else changes.

R134, R138, R139, R141: while fewer than eight commands are queued, REPLAY, DESC_LOAD and BEAT_NO join the end of the
command queue, DESC_LOAD as one that waits for its two data flits; nothing else changes.

R140: a RESUME after a HOLD mark is accepted, once; at any other time it faults with SPR_PROTO. -/
def Obligations.SpringCommandsAreTaken : Prop :=
  (∀ (s : State) (half : Bool) (nbund npatch nflit : Nat) (id : BitVec 16) (crc : Word),
      Takes s → s.rcv.load = none → halfBusy s half = false → 1 ≤ nbund → nbund ≤ 512 → npatch ≤ 64 → 1 ≤ nflit →
      nflit < 2048 →
      let w3 := BitVec.ofNat 24 (b2n half * 2 ^ 23 + nbund)
      let w2 := word (npatch * 2 ^ 25 + nflit)
      let w1 := word (id.toNat * 2 ^ 16)
      Answers (.loadBlock w3 w2 w1 crc) s
        (setHalf half ⟨false, true, false, nbund, npatch, [], []⟩
          { s with rcv := { s.rcv with
              load := some ⟨true, half, 0, 0, nbund, npatch, crc, cmdWord 1 w3, w2, nflit, 0, 0, [], 0xFFFFFFFF⟩
              badParity := s.rcv.badParity.filter fun b => b.1 != half } })) ∧
  (∀ s : State, Takes s → s.rcv.cmdq.length < 8 →
      (∀ v : Word, Answers (.beatNo 0 0 0 v) s { s with rcv := { s.rcv with cmdq := s.rcv.cmdq ++ [.beatNo v] } }) ∧
      (∀ (cls desc : Nat) (crc : Word), s.rcv.load = none → 1 ≤ cls → cls ≤ 6 → desc < 64 →
        let w3 := BitVec.ofNat 24 (cls * 2 ^ 21 + desc * 2 ^ 15)
        Answers (.descLoad w3 0 0 crc) s
          { s with rcv := { s.rcv with
              load := some ⟨false, false, cls, desc, 0, 0, crc, cmdWord 3 w3, 0, 2, 0, 0, [], 0xFFFFFFFF⟩
              cmdq := s.rcv.cmdq ++ [.descLoad cls desc none] } }) ∧
      (∀ (half : Bool) (iter first last pf pc : Nat),
        let x := getHalf s half
        1 ≤ iter → iter < 65536 → first ≤ last → last < x.nbund → last < 512 → pf < 64 → pc ≤ 64 → pf + pc ≤ x.npatch →
        (x.loaded = true ∨ x.loading = true) → (1 < iter → x.valid = true → rangeHasChk x first last = false) →
        let w3 := BitVec.ofNat 24 (b2n half * 2 ^ 23 + iter)
        let w2 := word (first * 2 ^ 23 + last * 2 ^ 14 + pf * 2 ^ 8 + pc * 2)
        Answers (.replay w3 w2 0 0) s
          { s with rcv := { s.rcv with cmdq := s.rcv.cmdq ++ [.replay half first last iter pf pc (cmdWord 2 w3) w2] } })) ∧
  (∀ s : State, Takes s →
      (s.issue.holdMark = true →
        Answers (.resume 0 0 0 0) s
          { s with issue := { s.issue with holdMark := false, resumeAt := some s.clock.clk } }) ∧
      (s.issue.holdMark = false →
        Answers (.resume 0 0 0 0) s (raise 0x02 (flitCtx (cmdWord 5 0) 0) s)))

/-- R132, R133, R138: a flit of spr_type 1 acts as the row of its CMD byte; the second data flit of a DESC_LOAD ends the
load, and with a matching CRC hands the eight words to the command that waits for them; a data flit that nothing waits for
faults with SPR_PROTO. -/
def Obligations.SpringFlitsActByTheirType : Prop :=
  ∀ (s : State) (data : BitVec 128), Takes s →
    let w := fun i => (flitWords data).getD i 0
    let low := BitVec.ofNat 24 (w 3).toNat
    (wfld (w 3) 31 24 = 1 → exec (.springDataFlit 1 data) s = exec (.loadBlock low (w 2) (w 1) (w 0)) s) ∧
    (wfld (w 3) 31 24 = 2 → exec (.springDataFlit 1 data) s = exec (.replay low (w 2) (w 1) (w 0)) s) ∧
    (wfld (w 3) 31 24 = 3 → exec (.springDataFlit 1 data) s = exec (.descLoad low (w 2) (w 1) (w 0)) s) ∧
    (wfld (w 3) 31 24 = 4 → exec (.springDataFlit 1 data) s = exec (.beatNo low (w 2) (w 1) (w 0)) s) ∧
    (wfld (w 3) 31 24 = 5 → exec (.springDataFlit 1 data) s = exec (.resume low (w 2) (w 1) (w 0)) s) ∧
    (∀ l : Load, s.rcv.load = some l → l.isBlock = false → l.left = 1 → l.words.length = 4 →
      crc32cEnd (crc32cRun l.crcRun (leBytes 16 data.toNat)) = l.crc →
      ∃ t, Answers (.springDataFlit 0 data) s t ∧ t = { s with rcv := { s.rcv with
        load := none
        cmdq := s.rcv.cmdq.map fun c => match c with
          | .descLoad cls d none => .descLoad cls d (some (W8.ofList (l.words ++ flitWords data)))
          | x => x } }) ∧
    (s.rcv.load = none →
      Answers (.springDataFlit 0 data) s (raise 0x02 (flitCtx (w 3) (w 2)) s))

/-- R138, R139, R134: at the head of the queue, DESC_LOAD writes all eight words of its descriptor once every issued SCL
instruction has completed, and BEAT_NO sets S63 without waiting for any engine; the command counts for the queue through that
clk and leaves it in the next.

R102, R115, R142, R146: a patch list that waits at its boundary is applied once every issued SCL instruction has
completed. For a list of one entry whose value v lies within its bounds: the field of the named descriptor word holds v, all other
bits of every descriptor are as before, event 0x007 is counted, the clk is used, and the replay goes on at bundle RFIRST of
the iteration that follows. -/
def Obligations.CommandAndPatchHeadsExecute : Prop :=
  ((∀ (s : State) (cls desc : Nat) (v : W8) (rest : List Cmd),
      s.rcv.cmdq = .descLoad cls desc (some v) :: rest → s.rcv.doneAt = none → issuePointFree s = true → sclQuiet s = true →
      ∃ t, Answers .descLoadExecute s t ∧
        t = { s with
          descs := mset W8.zero s.descs (cls * 64 + desc) v
          descUpset := mset 0 s.descUpset (cls * 64 + desc) 0
          rcv := { s.rcv with doneAt := some s.clock.clk }
          issue := { s.issue with phase := none, lastIssue := some s.clock.clk, issuedNow := true } }) ∧
    (∀ (s : State) (v : Word) (rest : List Cmd),
      s.rcv.cmdq = .beatNo v :: rest → s.rcv.doneAt = none → s.pins.pondHalt = false → awake s = true → stepDone s 8 = true →
      (∀ c, s.issue.lastIssue = some c → c < s.clock.clk) →
      Answers .beatNoExecute s
        { s with
          s63 := v
          rcv := { s.rcv with doneAt := some s.clock.clk }
          issue := { s.issue with phase := none, lastIssue := some s.clock.clk, s63Set := some s.clock.clk } }) ∧
    (∀ (s : State) (c : Nat) (x : Cmd) (rest : List Cmd), s.rcv.cmdq = x :: rest → s.rcv.doneAt = some c → c ≤ s.clock.clk →
      s.clock.refFrac + 1 < clkPerRef s → (nextClk s).rcv = { s.rcv with cmdq := rest, doneAt := none })) ∧
  (∀ (s : State) (h : Bool) (f l it pf pc p v : Nat) (rest : List Cmd),
      ∀ w3 w2 : Word, s.rcv.cmdq = .replay h f l it pf pc w3 w2 :: rest → s.rcv.doneAt = none → s.descUpset = [] →
      (getHalf s h).valid = true → s.issue.phase = some .pre →
      patchesAt (getHalf s h) pf pc 1 = [p] → issuePointFree s = true → sclQuiet s = true → faulting s = false →
      s.out.sprRdy = true → s.rcv.badParity.contains (h, true, p) = false →
      let e := halfPatch (getHalf s h) p
      let cls := wfld e.w0 25 23
      let d := wfld e.w0 22 17
      let wd := wfld e.w0 16 14
      let lsb := wfld e.w0 13 9
      let hi := lsb + wfld e.w0 8 4
      let old := descGet s cls d
      patchValue e (old.fld wd hi lsb) (sreg s (wfld e.w1 31 26)) = .ok v →
      ∃ t, Answers .patchListApply s t ∧
        t = { s with
          descs := mset W8.zero s.descs (cls * 64 + d) (old.set wd (setWfld (old.get wd) hi lsb v))
          cnt := (bump 0x007 1 s).cnt
          issue := { s.issue with phase := some (.run 0 f), lastIssue := some s.clock.clk, issuedNow := true } })

/-- R97, R98, R103: a bundle that may issue and breaks no rule issues as a whole. Every slot that its header names gains one
entry at the end of its queue, with the slot word, the TAG, all 256 bits of the descriptor it names and this clk; every
other queue, and every register, descriptor, flag, channel and byte, is as before. -/
def Obligations.BundleIssueFillsTheNamedQueues : Prop :=
  ∀ (s : State) (h : Bool) (it bi : Nat),
    nextPos s = some (h, it, bi) →
    let b := halfBundle (getHalf s h) bi
    mayIssue s = true → hdrKind b.w0 = 0 → roomFor s b = true → sclClear s b = true →
    s.rcv.badParity.contains (h, false, bi) = false → s.descUpset = [] → bundleFaults s (bundleEntries s b h it bi) = [] →
    ∃ t, Answers .bundleIssue s t ∧
      (∀ i < 7, hdrPresent b.w0 i = true →
        ∃ e, getQ t i = getQ s i ++ [e] ∧ e.w = slotWord b i ∧ e.tag = BitVec.ofNat 16 b.w0.toNat ∧ e.clk = s.clock.clk ∧
          e.d = (if usesDesc i e.w then descGet s (slotClass i) (wfld e.w 7 2) else W8.zero) ∧
          ⟨i, e.bseq, e.id, false⟩ ∈ t.live) ∧
      (∀ i < 7, hdrPresent b.w0 i = false → getQ t i = getQ s i) ∧
      t.issue.lastIssue = some s.clock.clk ∧ StoresKept s t ∧ ControlKept s t

/-- R128, R101, R119: a mark bundle that may issue, with no open chain and a matching beat number, ends the core's part of
the beat with its action. The IMGSW mark sets PEND and PSLOT (R421); the HOLD mark opens the wait for RESUME (R140). Queues,
registers, descriptors, flags, channels and pool are as before. -/
def Obligations.MarksEndTheBeat : Prop :=
  ∀ (c : Instr) (op : Nat) (s : State) (b : W8) (h : Bool) (it bi : Nat),
    (c, op) ∈ [(Instr.beatMark, 1), (.holdMark, 2), (.imgswMark, 3), (.ckptMark, 4)] →
    nextPos s = some (h, it, bi) → b = halfBundle (getHalf s h) bi → mayIssue s = true → hdrKind b.w0 = 2 →
    markOp b = op → s.rcv.badParity.contains (h, false, bi) = false → s.issue.chain = [] → (wbit b.w2 31 = true → b.w1 = s.s63) →
    ∃ t, Answers c s t ∧ t.issue.mark = true ∧
      t.issue.act = some (if op = 1 then .beat else if op = 2 then .hold else if op = 3 then .imgsw (wbit b.w2 0)
        else .ckpt (wbit b.w2 0)) ∧
      t.issue.holdMark = (s.issue.holdMark || op == 2) ∧ t.issue.lastIssue = some s.clock.clk ∧
      t.img = (if op = 3 then { s.img with pend := true, pslot := wbit b.w2 0 } else s.img) ∧
      t.out.coreLate = false ∧ t.err = s.err ∧ t.q = s.q ∧ t.live = s.live ∧ t.s63 = s.s63 ∧ StoresKept s t ∧
      ControlKept s t

/-- R129: a mark bundle of any of the four actions that issues with CHK at 1 and a BEAT_NO that differs from S63 faults with
BEAT_SEQ, with BEAT_NO and S63 as the fault's detail (R460). -/
def Obligations.MarkWithWrongBeatNumberFaults : Prop :=
  ∀ (c : Instr) (op : Nat) (s : State) (b : W8) (h : Bool) (it bi : Nat),
    (c, op) ∈ [(Instr.beatMark, 1), (.holdMark, 2), (.imgswMark, 3), (.ckptMark, 4)] →
    nextPos s = some (h, it, bi) → b = halfBundle (getHalf s h) bi → mayIssue s = true → hdrKind b.w0 = 2 →
    markOp b = op → s.rcv.badParity.contains (h, false, bi) = false → s.issue.chain = [] → wbit b.w2 31 = true → b.w1 ≠ s.s63 →
    ∃ t, Answers c s t ∧ t.err = (raise 0x81 ⟨none, some (h, bi, it), none, b.w1, s.s63⟩ s).err ∧ t.issue.mark = true ∧
      t.s63 = s.s63

/-! ## Beat, level, halt, droop (01_boundary, 10_flags_and_beat, 13_reset_and_power) -/

/-- R119, R20, R337, R426, R128: a beat_edge that ends a beat with a BEAT mark, or a beat of a core in no stop, increments
S63, takes BEAT_HOLD_MAX into use, snapshots the counters where SNAP is 1, and ends the mark; registers, pool and
channels are as before. While pond_halt is 1 the edge changes nothing (R23), and so where the receiver is not up (R446).

R19, R21: beat_due of a core in beat service whose mark has not issued raises core_late; once the mark has
issued it only ends the measure of the beat's length. -/
def Obligations.BeatEdgesAndDuesActOnTheBeat : Prop :=
  ((∀ s : State, s.pins.pondHalt = false → rcvUp s = true → stepDone s 9 = true → s.issue.s63Set ≠ some s.clock.clk →
      s.issue.stop = .none → (s.issue.mark = true → s.issue.act = some .beat) → s.out.coreFault = false →
      ∃ t, Answers .beatEdge s t ∧ t.s63 = s.s63 + 1 ∧ t.issue.mark = false ∧ t.issue.stop = .none ∧
        t.issue.lastEdge = s.clock.clk ∧ t.sync.holdMax = s.sync.holdMaxReg ∧
        t.fab.active = (if s.fab.commit then !s.fab.active else s.fab.active) ∧ t.fab.commit = false ∧
        (s.cnt.snap = true → t.cnt.snaps = s.cnt.base ∧ t.cnt.cycSnap = s.cnt.cyc ∧ t.cnt.snapBeat = s.s63 + 1) ∧
        (s.cnt.snap = false → t.cnt.snaps = s.cnt.snaps) ∧ t.q = s.q ∧ t.live = s.live ∧ t.out = s.out ∧ t.pwr = s.pwr ∧
        t.err = s.err ∧ StoresKept s t ∧ ControlKept s t) ∧
    (∀ s : State, s.pins.pondHalt = true ∨ rcvUp s = false → Answers .beatEdge s s)) ∧
  ((∀ s : State, s.pins.pondHalt = false → rcvUp s = true → halted s = false → s.issue.stop = .none →
      s.issue.service = true → s.issue.mark = false → s.out.coreLate = false →
      Answers .beatDue s { s with
        out := { s.out with coreLate := true }
        issue := { s.issue with beatLen := s.clock.clk - s.issue.lastEdge + 4, lastDue := some s.clock.clk, lateRun := 0 } }) ∧
    (∀ s : State, s.pins.pondHalt = false → rcvUp s = true → s.issue.stop = .none → s.issue.mark = true →
      Answers .beatDue s { s with
        issue := { s.issue with beatLen := s.clock.clk - s.issue.lastEdge + 4, lastDue := some s.clock.clk } }))

/-- R426: with SNAP at 1, a beat_edge copies every CNT_VALn and CYC, as they stood when its clk began, to SNAPn and CYC_SNAP,
and S63, after that edge's increment, to SNAP_BEAT, in every stop of the core; with SNAP at 0 it copies nothing. base holds the
counters as the clk began. -/
def Obligations.BeatEdgeSnapshotsTheCounters : Prop :=
  (∀ s : State, s.pins.pondHalt = false → rcvUp s = true → stepDone s 9 = true → s.issue.s63Set ≠ some s.clock.clk →
    ∃ t, Answers .beatEdge s t ∧
      (s.cnt.snap = true → t.cnt.snaps = s.cnt.base ∧ t.cnt.cycSnap = s.cnt.cyc ∧ t.cnt.snapBeat = s.s63 + 1) ∧
      (s.cnt.snap = false → t.cnt.snaps = s.cnt.snaps ∧ t.cnt.cycSnap = s.cnt.cycSnap ∧ t.cnt.snapBeat = s.cnt.snapBeat)) ∧
  (∀ s : State, s.clock.refFrac + 1 < clkPerRef s → (nextClk s).cnt.base = s.cnt.val)

/-- R22: a core whose core_late has been 1 for more than BEAT_HOLD_MAX clk faults with BEAT_OVERRUN; one whose core_late has
not does not. lateRun counts the clk with core_late at 1. -/
def Obligations.LongLateBeatsOverrun : Prop :=
  (∀ s : State, s.out.coreLate = true → s.sync.holdMax < s.issue.lateRun →
    Answers .beatOverrun s (raise 0x80 FaultCtx.none s)) ∧
  (∀ s : State, s.out.coreLate = true → s.issue.lateRun ≤ s.sync.holdMax → Answers .beatOverrun s s) ∧
  (∀ s : State, s.out.coreLate = true → (nextClk s).issue.lateRun = s.issue.lateRun + 1)

/-- R24, R25, R27: a change of pl_target sets the target to pl_target or the limit, whichever is lower, and slews the regulator to
the higher voltage of the level in force and of the target, with pl_ready 0 until the slew ends and while pl_target exceeds the
limit; pl_ready rises only at the voltage of a pl_target within the limit; pl_commit in the clk of beat_edge puts the target in
force, raised or lowered, and the regulator follows it; a raise at pl_ready 0 (it goes into force all the same) and a commit
without beat_edge are PL_BREACH. A core whose receiver is not up keeps the pin alone (R446), and pond_halt makes it ignore
the commit (R23). -/
def Obligations.LevelFollowsTargetAndCommit : Prop :=
  (∀ (s : State) (level : BitVec 2), rcvUp s = true →
    let lim := plLimit s
    let tgt := min level.toNat lim
    let volt := max (levelVolt s.pwr.level.toNat) (levelVolt tgt)
    Answers (.plTargetChange level) s { s with
      pins := { s.pins with plTarget := level }
      pwr := { s.pwr with target := BitVec.ofNat 2 tgt, vout := volt,
                          slewFrom := if volt = s.pwr.vout then s.pwr.slewFrom else voltNow s,
                          slewAt := if volt = s.pwr.vout then s.pwr.slewAt else s.clock.refc,
                          ready := s.pwr.ready && volt == s.pwr.vout && decide (level.toNat ≤ lim) } }) ∧
  (∀ (s : State) (level : BitVec 2), rcvUp s = false →
    Answers (.plTargetChange level) s { s with pins := { s.pins with plTarget := level } }) ∧
  (∀ s : State, rcvUp s = true → s.pwr.mode = false → s.pins.plTarget.toNat ≤ plLimit s → voltNow s = 50 * s.pwr.vout →
    Answers .plReadyRise s { s with pwr := { s.pwr with ready := true } }) ∧
  (∀ s : State, plLimit s < s.pins.plTarget.toNat ∨ voltNow s ≠ 50 * s.pwr.vout ∨ s.pwr.mode = true ∨ rcvUp s = false →
    Answers .plReadyRise s s) ∧
  (∀ s : State, rcvUp s = true → s.pins.pondHalt = false →
    let tgt := min s.pins.plTarget.toNat (plLimit s)
    s.pwr.ready = true ∨ tgt ≤ s.pwr.level.toNat →
    ∃ u, Answers (.plCommit true) s { s with
      undo := u
      pwr := { s.pwr with level := BitVec.ofNat 2 tgt, target := BitVec.ofNat 2 tgt, awaitCommit := false, vout := levelVolt tgt,
                          slewFrom := if levelVolt tgt = s.pwr.vout then s.pwr.slewFrom else voltNow s,
                          slewAt := if levelVolt tgt = s.pwr.vout then s.pwr.slewAt else s.clock.refc,
                          ready := s.pwr.ready && levelVolt tgt == s.pwr.vout &&
                            decide (s.pins.plTarget.toNat ≤ plLimit s) } }) ∧
  (∀ s : State, rcvUp s = true → s.pins.pondHalt = false → s.pwr.ready = false →
    s.pwr.level.toNat < min s.pins.plTarget.toNat (plLimit s) →
    ∃ t, Answers (.plCommit true) s t ∧
      t.err = (raise 0x86 (FaultCtx.args s.pins.plTarget.toNat s.pwr.level.toNat) s).err ∧
      t.pwr.level = BitVec.ofNat 2 (min s.pins.plTarget.toNat (plLimit s))) ∧
  (∀ s : State, rcvUp s = true → s.pins.pondHalt = false →
    ∃ u, Answers (.plCommit false) s
      { raise 0x86 (FaultCtx.args s.pins.plTarget.toNat s.pwr.level.toNat) s with undo := u }) ∧
  (∀ (s : State) (b : Bool), s.pins.pondHalt = true ∨ rcvUp s = false → Answers (.plCommit b) s s)

/-- R23, R188, R253, R273, R321: pond_halt 1 stops every engine, discards the array accumulators, tiles and pair turn, takes
the core out of beat service and lowers core_late; registers, descriptors, flags and pool stay, channels keep their lines. A
beat_edge or pl_commit of the same clk has not happened: S63, the level, BEAT_HOLD_MAX in use, the counter snapshot, the active
route table and the stop are what they were before it, and no PL_BREACH of it is left. pond_halt 0 changes only the pin.

R35, R339: droop_alert opens a throttling window whose first clk lies two to four clk later, and its fall ends the window
16 to 19 clk later, each at a clk that nothing else fixes; a rise before the window's last clk has passed keeps the window
open, and one after it opens a new window; after its last clk no clk is skipped.

R447: the core enters Hold when the work before the HOLD mark has completed, and Idle after 32 clk with nothing
issuable and nothing in flight; only STATE and HWHY change. -/
def Obligations.HaltDroopHoldAndIdleAct : Prop :=
  ((∀ s : State, s.undo = none →
      ∃ t, Answers .pondHaltRise s t ∧ t.pins = { s.pins with pondHalt := true } ∧ t.issue.service = false ∧
      t.out = { s.out with coreLate := false } ∧ t.mxa.run = none ∧ t.mxa.acc = [] ∧ t.mxa.shadow = none ∧ t.mxa.corner = [] ∧
      t.mxb.run = none ∧ t.mxb.acc = [] ∧ t.mxb.shadow = none ∧ t.mxb.corner = [] ∧ t.turn = Turn.init ∧
      t.vec = VecState.init ∧ t.rsu = RsuState.init ∧ t.mov = MovState.init ∧ t.scl = SclState.init ∧ t.live = [] ∧
      t.gates = [] ∧ t.q = { s.q with scl := [] } ∧ t.s63 = s.s63 ∧ t.rcv = s.rcv ∧ StoresKeptHalted s t) ∧
    (∀ s : State, s.undo = none → s.pins.pondHalt = false →
      ∃ t u, Answers .beatEdge s t ∧ Answers .pondHaltRise t u ∧ u.pins = { s.pins with pondHalt := true } ∧ u.s63 = s.s63 ∧
        u.sync.holdMax = s.sync.holdMax ∧ u.cnt.snaps = s.cnt.snaps ∧ u.cnt.cycSnap = s.cnt.cycSnap ∧
        u.fab.active = s.fab.active ∧ u.issue.stop = s.issue.stop.halt ∧ u.issue.mark = s.issue.mark ∧
        u.out.coreLate = false ∧ u.live = []) ∧
    (∀ (s : State) (b : Bool), s.undo = none → s.pins.pondHalt = false → (∀ f ∈ s.err.fresh, f.code ≠ 0x86) →
      ∃ t u, Answers (.plCommit b) s t ∧ Answers .pondHaltRise t u ∧ u.pins = { s.pins with pondHalt := true } ∧
        u.pwr = s.pwr ∧ (∀ f ∈ u.err.fresh, f.code ≠ 0x86) ∧ u.out.coreLate = false ∧ u.live = []) ∧
    (∀ s : State, Answers .pondHaltFall s { s with pins := { s.pins with pondHalt := false } })) ∧
  ((∀ s : State, awake s = true → s.pins.droopAlert = false →
      (s.clock.winFirst = none ∨ ∃ l, s.clock.winLast = some l ∧ l < s.clock.clk) →
      ∃ k, 2 ≤ k ∧ k ≤ 4 ∧ Answers .droopAlertRise s { s with
        pins := { s.pins with droopAlert := true }
        clock := { s.clock with winFirst := some (s.clock.clk + k), winLast := none }
        free := s.free + 1 }) ∧
    (∀ (s : State) (f : Nat), awake s = true → s.pins.droopAlert = false → s.clock.winFirst = some f →
      (∀ l, s.clock.winLast = some l → s.clock.clk ≤ l) →
      Answers .droopAlertRise s { s with
        pins := { s.pins with droopAlert := true }, clock := { s.clock with winLast := none } }) ∧
    (∀ (s : State) (f : Nat), s.pins.droopAlert = true → s.clock.winFirst = some f →
      ∃ k, 16 ≤ k ∧ k ≤ 19 ∧ Answers .droopAlertFall s { s with
        pins := { s.pins with droopAlert := false }
        clock := { s.clock with winLast := some (s.clock.clk + k) }
        free := s.free + 1 }) ∧
    (∀ (s : State) (l : Nat), s.clock.winLast = some l → l < s.clock.clk →
      Answers .droopWindowEnd s { s with clock := { s.clock with skip := false, winFirst := none, winLast := none } })) ∧
  ((∀ (s : State) (e0 : Nat), s.issue.stop = .holdWait e0 → workDone s = true → halted s = false →
      Answers .holdEntry s { s with
        issue := { s.issue with stop := .hold e0 }, pwr := { s.pwr with state := 2, hwhy := 0 } }) ∧
    (∀ (s : State) (e0 : Nat), s.issue.stop = .holdWait e0 → workDone s = false → Answers .holdEntry s s) ∧
    (∀ s : State, s.pwr.state = 0 → 32 ≤ s.issue.idleRun →
      Answers .idleEntry s { s with pwr := { s.pwr with state := 1 } }) ∧
    (∀ s : State, s.issue.idleRun < 32 → Answers .idleEntry s s))

/-! ## The fabric port (11_fabric_and_reduction) -/

/-- R356: every arriving packet is checked in order: framing, CRC, form, core id, job. A breach of framing faults with
FAB_PROTO, a CRC that fails with FAB_CRC (a PROBE is only discarded and counted); a malformed packet, a wrong core id and a
wrong job are discarded and counted, and answered with NACK codes SPACE (3), MISROUTE (6) and JOB (4) where the type is a
request. An RCON that reaches a core is answered with SPACE. -/
def Obligations.PacketsAreCheckedInOrder : Prop :=
  ∀ (p : Pkt) (s : State) (c : Pkt → Instr), Arrives p s →
    (p.typ, c) ∈ [(1, Instr.putPacket), (2, .getPacket), (3, .getrPacket), (4, .ackPacket), (5, .nackPacket),
      (6, .raccPacket), (8, .faddPacket), (9, .carryPacket), (10, .rconPacket), (11, .rresPacket), (12, .probePacket),
      (13, .proberPacket), (14, .resetPacket)] →
    let u := bump 0x141 p.flits s
    let no := fun code => if p.typ ∈ [1, 2, 6, 8, 9, 10, 12] then nackTo p code (fabDrop u) else fabDrop u
    (¬(p.flits = flitsOf p.plen ∧ p.contig = true) → Answers (c p) s (raise 0x63 FaultCtx.none u)) ∧
    (p.flits = flitsOf p.plen → p.contig = true → packetCrc p.hdr p.data ≠ p.w7 →
      Answers (c p) s
        (if p.typ = 12 then fabDrop u else raise 0x62 (FaultCtx.args p.w3.toNat p.w0.toNat) u)) ∧
    (Intact p → formOk p = false ∨ p.typ = 10 → Answers (c p) s (no 3)) ∧
    (Intact p → formOk p = true → p.core ≠ s.straps.core.toNat → Answers (c p) s (no 6)) ∧
    (Intact p → formOk p = true → p.core = s.straps.core.toNat → p.typ ∉ [3, 4, 5, 12, 13] →
      p.job ≠ s.job.id.toNat → toReplica s p = false → Answers (c p) s (no 4))

/-- R357, R278: an accepted PUT whose bytes lie wholly inside one area, and that covers no poisoned or uncorrectable word in part,
writes its PLEN bytes and no other byte, with its POISON on their words, and is acknowledged; everything else stays. One whose
bytes lie elsewhere writes nothing and is answered with NACK code RANGE (2).

R357, R276, R277: an accepted GET of bytes inside one area is answered with a GETR of the bytes as read, whose POISON is 1
exactly where a word was poisoned or uncorrectable; the pool's bytes stay. A word with four or more wrong bits that the read
takes for another valid word is that word from then on, and no other byte changes. One of other bytes is answered with NACK
code RANGE (2). -/
def Obligations.PutStoresAndGetAnswersTheBytes : Prop :=
  ((∀ (p : Pkt) (s : State), p.typ = 1 → Accepted p s → toReplica s p = false → s.canonical = true →
      fabStore s p.off (p.off + p.plen - 1) = true → Writable s p.off p.plen →
      ∃ t, Answers (.putPacket p) s t ∧ Stored s p.off p.plen p.data p.poison t ∧ Replied p 4 false [] s t ∧
        StoresKept { s with pool := t.pool } t ∧ ControlKept s t) ∧
    (∀ (p : Pkt) (s : State), p.typ = 1 → Accepted p s → toReplica s p = false →
      fabStore s p.off (p.off + p.plen - 1) = false → Answers (.putPacket p) s (nackTo p 2 (counted p s)))) ∧
  ((∀ (p : Pkt) (s : State), p.typ = 2 → Accepted p s → toReplica s p = false →
      fabStore s p.off (p.off + wfld p.w5 8 0 - 1) = true → NotMistaken s p.off (wfld p.w5 8 0) →
      ∃ t, Answers (.getPacket p) s t ∧
        Replied p 3 ((eccWords p.off (wfld p.w5 8 0)).any fun w => eccState s w == 2)
          (readBytes s.pool.mem p.off (wfld p.w5 8 0)) s t ∧
        t.pool.mem = s.pool.mem ∧ t.pool.poison = s.pool.poison ∧ StoresKept { s with pool := t.pool } t ∧ ControlKept s t) ∧
    (∀ (p : Pkt) (s : State), p.typ = 2 → Accepted p s → toReplica s p = false →
      fabStore s p.off (p.off + wfld p.w5 8 0 - 1) = true →
      ∃ t b, Answers (.getPacket p) s t ∧ Replied p 3 b (readBytes t.pool.mem p.off (wfld p.w5 8 0)) s t ∧
        (∀ a, (a / 8 ∈ eccWords p.off (wfld p.w5 8 0) → eccFinds s (a / 8) ≠ 3) →
          mget (0 : Byte) t.pool.mem a = mget 0 s.pool.mem a) ∧
        StoresKept { s with pool := t.pool } t ∧ ControlKept s t) ∧
    (∀ (p : Pkt) (s : State), p.typ = 2 → Accepted p s → toReplica s p = false →
      fabStore s p.off (p.off + wfld p.w5 8 0 - 1) = false → Answers (.getPacket p) s (nackTo p 2 (counted p s))))

/-- R323, R324, R269, R333: an accepted FADD adds its signed VALUE to its flag, and an accepted CARRY writes its records into the
carry registers from DREG on and adds 1 to its flag where FLAG_EN is 1, all at the end of the clk, the adds in arrival order,
channel 0 before channel 1; a result outside 0 to 65535 leaves the flag and faults with FLAG_RANGE. Every other flag and carry
register, and everything else, stays. A FADD that comes while a checkpoint copies faults with FLAG_LATE. -/
def Obligations.FaddAndCarryPacketsAdd : Prop :=
  (∀ (p : Pkt) (s : State), p.typ = 8 → Accepted p s → s.ckpt.copy = none →
    ∃ t, Answers (.faddPacket p) s t ∧
      t.fab.adds = s.fab.adds ++ [⟨p.off, sext 16 (wfld p.w4 15 0), none, p.src, true, 1 + p.ch.toNat⟩] ∧ t.err = s.err ∧
      StoresKept s t ∧ ControlKept s t) ∧
  (∀ (p : Pkt) (s : State), p.typ = 8 → Accepted p s → s.ckpt.copy ≠ none →
    ∃ t, Answers (.faddPacket p) s t ∧ t.fab.adds = s.fab.adds ∧ StoresKept s t ∧ ControlKept s t ∧
      t.err = (raise 0x85 (FaultCtx.args ((p.off <<< 16) + (flagGet s p.off).toNat) p.src) (counted p s)).err) ∧
  (∀ (p : Pkt) (s : State), p.typ = 9 → Accepted p s → s.canonical = true → s.fab.carries = [] →
    let d := wfld p.w4 8 3
    ∃ t, Answers (.carryPacket p) s t ∧
      t.fab.adds = s.fab.adds ++
        (if wbit p.w4 21 = true then [⟨wfld p.w4 20 9, 1, none, p.src, true, 1 + p.ch.toNat⟩] else []) ∧
      (∀ i, i < p.plen / 8 → crGet (landCarries t) (d + i) = BitVec.ofNat 64 (leNat ((p.data.drop (8 * i)).take 8))) ∧
      (∀ i, i < d ∨ d + p.plen / 8 ≤ i → crGet (landCarries t) i = crGet s i) ∧
      (landCarries t).fab.carries = [] ∧ t.err = s.err ∧ StoresKept s t ∧ ControlKept s t) ∧
  (∀ (s : State) (a : FlagAdd), s.fab.adds = [a] → a.rank ≤ 2 → a.inst = none → s.canonical = true →
    mget 0 s.flagUpset (a.flag / 4) = 0 →
    let r := ((flagGet s a.flag).toNat : Int) + a.amount
    (0 ≤ r ∧ r ≤ 65535 → ((flagGet (landAdds s) a.flag).toNat : Int) = r ∧ (landAdds s).err = s.err) ∧
    (¬(0 ≤ r ∧ r ≤ 65535) → flagGet (landAdds s) a.flag = flagGet s a.flag ∧
      (landAdds s).err = (raise 0x83 (FaultCtx.args ((a.flag <<< 16) + (flagGet s a.flag).toNat) a.src) s).err) ∧
    (∀ f, f ≠ a.flag → flagGet (landAdds s) f = flagGet s f) ∧ (landAdds s).fab.adds = [] ∧
    StoresKept { s with flags := (landAdds s).flags } (landAdds s) ∧ ControlKept s (landAdds s)) ∧
  (∀ (s : State) (a b : FlagAdd), s.fab.adds = [a, b] ∨ s.fab.adds = [b, a] → a.rank < b.rank → b.rank ≤ 2 → a.flag = b.flag →
    s.canonical = true → mget 0 s.flagUpset (a.flag / 4) = 0 →
    let v := ((flagGet s a.flag).toNat : Int)
    0 ≤ v + a.amount ∧ v + a.amount ≤ 65535 → 0 ≤ v + a.amount + b.amount ∧ v + a.amount + b.amount ≤ 65535 →
    ((flagGet (landAdds s) a.flag).toNat : Int) = v + a.amount + b.amount ∧ (landAdds s).err = s.err)

/-- R357, R81, R82, R378, R88: an accepted RACC rounds once the sum of each of its elements, FP32 or BF16, and the element it
meets; no other byte changes, and it is acknowledged. A piece of a SUM result writes its 128 values, divided under DIV_MODE, at
its place of the result area; the piece of a MAX result replaces CUR_AMAX of its receive's scale slot; the receive holds what
it has got, and in the clk after its last piece it is freed and 1 is added to its flag. A piece that no receive waits for, and
one that its receive has or is too short for, is discarded and counted in NORX. -/
def Obligations.SumsAndResultsLand : Prop :=
  (∀ (p : Pkt) (s : State), p.typ = 6 → Accepted p s → s.canonical = true →
    fabStore s p.off (p.off + p.plen - 1) = true → Readable s p.off p.plen →
    let f := wfld p.w4 3 0
    let n := fmtBits f / 8
    let elem := fun (bs : List Byte) (i : Nat) => decodeElem f (leNat ((bs.drop (n * i)).take n))
    let old := readBytes s.pool.mem p.off p.plen
    ∃ t, Answers (.raccPacket p) s t ∧
      (∀ i j, i < p.plen / n → j < n → mget (0 : Byte) t.pool.mem (p.off + n * i + j) =
        (leBytes n (convertElem f 0 0 ((elem old i).add (elem p.data i)))).getD j 0) ∧
      (∀ a, a < p.off ∨ p.off + n * (p.plen / n) ≤ a → mget (0 : Byte) t.pool.mem a = mget 0 s.pool.mem a) ∧
      Replied p 4 false [] s t ∧ StoresKept { s with pool := t.pool } t ∧ ControlKept s t) ∧
  (∀ (p : Pkt) (s : State) (r : Recv), p.typ = 11 → Accepted p s → s.canonical = true →
    (s.fab.recv.find? fun r => r.step == wfld p.w5 31 16 && r.tile == wfld p.w6 31 8 && r.op == wfld p.w4 21 20) = some r →
    wfld p.w6 4 0 ∉ r.got → wfld p.w6 4 0 < max 1 (r.elems / 128) →
    (wfld p.w4 21 20 ≠ 1 →
      let n := fmtBits r.rfmt / 8
      let a0 := r.resOff + 128 * wfld p.w6 4 0 * n
      let val := fun k => convertElem r.rfmt 0 0 (resDiv r.divMode (wfld p.w4 16 0) r.nranks
        (decodeElem 1 (leNat ((p.data.drop (2 * k)).take 2))))
      Writable s a0 (128 * n) →
      ∃ t, Answers (.rresPacket p) s t ∧
        (∀ a, mget (0 : Byte) t.pool.mem a = if a0 ≤ a ∧ a < a0 + 128 * n
          then (leBytes n (val ((a - a0) / n))).getD ((a - a0) % n) 0 else mget 0 s.pool.mem a) ∧
        t.fab.recv = s.fab.recv.map (fun x => if x = r then { r with got := r.got ++ [wfld p.w6 4 0] } else x) ∧
        t.fab.adds = s.fab.adds ∧ StoresKept { s with pool := t.pool } t ∧ ControlKept s t) ∧
    (wfld p.w4 21 20 = 1 → (∀ x ∈ s.scaleNow, x.1 ≠ r.slot) →
      ∃ t, Answers (.rresPacket p) s t ∧
        scaleGet t r.slot = { scaleGet s r.slot with curAmax := word (leNat p.data) } ∧
        (∀ n, n ≠ r.slot → scaleGet t n = scaleGet s n) ∧
        t.fab.recv = s.fab.recv.map (fun x => if x = r then { r with got := r.got ++ [wfld p.w6 4 0] } else x) ∧
        t.fab.adds = s.fab.adds ∧ StoresKept { s with scaleNow := t.scaleNow } t ∧ t.err = s.err ∧ ControlKept s t)) ∧
  (∀ s : State, portOk s = true →
    (recvTick s).fab.recv = s.fab.recv.filter (fun r => decide (r.got.length < max 1 (r.elems / 128))) ∧
    (recvTick s).fab.adds = s.fab.adds ++
      (s.fab.recv.filter fun r => decide (max 1 (r.elems / 128) ≤ r.got.length)).map
        (fun r => ⟨r.rflag, 1, none, ownIds s, false, 0⟩)) ∧
  (∀ (p : Pkt) (s : State), p.typ = 11 → Accepted p s →
    (∀ r, (s.fab.recv.find? fun r => r.step == wfld p.w5 31 16 && r.tile == wfld p.w6 31 8 && r.op == wfld p.w4 21 20) = some r →
      wfld p.w6 4 0 ∈ r.got ∨ max 1 (r.elems / 128) ≤ wfld p.w6 4 0) →
    ∃ t, Answers (.rresPacket p) s t ∧ t.fab.norx = satCount 8 (s.fab.norx + 1) ∧ t.fab.recv = s.fab.recv ∧
      StoresKept s t ∧ t.err = s.err ∧ ControlKept s t)

/-- R355, R357, R358, R365, R460: a GETR that matches a request of a GETP writes its bytes at LOFF + 256j, their words poisoned
exactly where the packet is, and one of a GET waits in its place to be pushed, or where it is poisoned faults with FAB_POISON;
the last reply of a GETP ends it. An ACK ends its request: of a PUT or RACC it counts one packet acknowledged, and the last ends
the operation. A NACK ends its request with FAB_NACK, of the instruction it belongs to, and one of a FADD or CARRY faults
directly; a reply with no match, or a GETR of another length than was asked for, is discarded and counted. -/
def Obligations.RepliesMeetTheirRequests : Prop :=
  (∀ (p : Pkt) (s : State) (o : Outst) (f : FabOp), p.typ = 3 → Accepted p s → s.canonical = true →
    (s.fab.outst.find? fun o => o.tagx == p.tagx && (o.typ == 2)) = some o → o.owner = 0 → o.len = p.plen →
    (s.mov.fab.find? fun f => f.e.id == o.id) = some f → f.e.op = 0x2A →
    (∀ x ∈ s.mov.fab, x.e.id = o.id → x.e.op = 0x2A) →
    let a0 := f.e.d.fld 5 23 0 + 256 * o.index
    Writable s a0 p.plen →
    ∃ t, Answers (.getrPacket p) s t ∧ t.fab.outst = s.fab.outst.erase o ∧ Stored s a0 p.plen p.data p.poison t ∧
      (f.acked + 1 < f.packets → t.mov = (setFabOp o.id (fun x => { x with acked := x.acked + 1 }) s).mov ∧
        t.fab.adds = s.fab.adds) ∧
      (f.packets ≤ f.acked + 1 → t.mov = (dropFabOp o.id s).mov ∧
        (wbit f.e.d.w4 18 = true → t.fab.adds = s.fab.adds ++
          [⟨f.e.d.fld 4 17 6, 1, some (4, f.e), ownIds s, false, 1 + p.ch.toNat⟩]) ∧
        (wbit f.e.d.w4 18 = false → t.fab.adds = s.fab.adds)) ∧
      t.err = s.err ∧ StoresKept { s with pool := t.pool } t ∧ ControlKept s t) ∧
  (∀ (p : Pkt) (s : State) (o : Outst) (f : FabOp), p.typ = 3 → Accepted p s →
    (s.fab.outst.find? fun o => o.tagx == p.tagx && (o.typ == 2)) = some o → o.owner = 0 → o.len = p.plen →
    (s.mov.fab.find? fun f => f.e.id == o.id) = some f → f.e.op = 0x29 →
    let u := { counted p s with fab := { (counted p s).fab with outst := s.fab.outst.erase o } }
    Answers (.getrPacket p) s
      (if p.poison then raise 0x64 (FaultCtx.ofEntry 4 f.e 0 0) u
       else setFabOp o.id (fun x => { x with got := (o.index, p.data) :: x.got }) u)) ∧
  (∀ (p : Pkt) (s : State) (o : Outst) (f : FabOp), p.typ = 4 → Accepted p s →
    (s.fab.outst.find? fun o => o.tagx == p.tagx && (o.typ != 2)) = some o → o.owner = 0 →
    (s.mov.fab.find? fun f => f.e.id == o.id) = some f → f.pops = true →
    (f.acked + 1 < f.packets → Answers (.ackPacket p) s
      (setFabOp o.id (fun x => { x with acked := f.acked + 1 })
        { counted p s with fab := { (counted p s).fab with outst := s.fab.outst.erase o } })) ∧
    (f.packets ≤ f.acked + 1 → ∃ t, Answers (.ackPacket p) s t ∧ t.fab.outst = s.fab.outst.erase o ∧
      t.mov = (dropFabOp o.id s).mov ∧ t.live = (complete o.id s).live ∧
      t.fab.adds = s.fab.adds ++ (if wbit f.e.d.w4 18 = true then
        [⟨f.e.d.fld 4 17 6, 1, some (4, f.e), ownIds s, false, 1 + p.ch.toNat⟩] else []) ∧
      StoresKept s t ∧ ControlKept s t)) ∧
  (∀ (p : Pkt) (s : State), p.typ = 5 → Accepted p s →
    (wfld p.w4 12 8 ∈ [8, 9] →
      Answers (.nackPacket p) s (raise 0x61 (FaultCtx.args (wfld p.w4 12 0) (p.src + p.tagx)) (counted p s))) ∧
    (wfld p.w4 12 8 ∉ [8, 9] → ∀ o, (s.fab.outst.find? fun o => o.tagx == p.tagx) = some o →
      Answers (.nackPacket p) s
        (raise 0x61
          (match requestEntry s o with
            | some e => FaultCtx.ofEntry 4 e (wfld p.w4 12 0) (p.src + p.tagx)
            | none => FaultCtx.args (wfld p.w4 12 0) (p.src + p.tagx))
          { counted p s with fab := { (counted p s).fab with outst := s.fab.outst.erase o } })) ∧
    (wfld p.w4 12 8 ∉ [8, 9] → (s.fab.outst.find? fun o => o.tagx == p.tagx) = none →
      Answers (.nackPacket p) s (fabDrop (counted p s)))) ∧
  (∀ (p : Pkt) (s : State), Accepted p s →
    (p.typ = 3 → (∀ o, (s.fab.outst.find? fun o => o.tagx == p.tagx && (o.typ == 2)) = some o → o.len ≠ p.plen) →
      Answers (.getrPacket p) s (fabDrop (counted p s))) ∧
    (p.typ = 4 → (s.fab.outst.find? fun o => o.tagx == p.tagx && (o.typ != 2)) = none →
      Answers (.ackPacket p) s (fabDrop (counted p s))))

/-- R360, R465: a PROBE is answered, whatever its job, with a PROBER of the eight words of identity; the PROBER of the partner
answers the arm check under way: an unequal STRUCT, an equal feed without SAME_ACK, or ARMED. A PROBER that comes from any other
slot, or while no check waits for one, changes nothing of the check and is discarded and counted. -/
def Obligations.ProbesAndTheirAnswersAct : Prop :=
  (∀ (p : Pkt) (s : State), p.typ = 12 → Accepted p s →
    ∃ t, Answers (.probePacket p) s t ∧
      Replied p 13 false (wordsBytes (identWords (counted p s))) s t ∧ t.err = s.err ∧ StoresKept s t ∧ ControlKept s t) ∧
  (∀ (p : Pkt) (s : State), p.typ = 13 → Accepted p s →
    (s.ckpt.state = 1 → s.ckpt.probe.isSome = true → p.srcChip = chipOf s.ckpt.partner →
      p.srcCore = coreOf s.ckpt.partner →
      (hdrField p.data 4 1 ≠ structId s.cfg → Answers (.proberPacket p) s (armEnd 10 (counted p s))) ∧
      (hdrField p.data 4 1 = structId s.cfg → hdrField p.data 15 1 = s.straps.feed.toNat → s.ckpt.sameAck = false →
        Answers (.proberPacket p) s (armEnd 8 (counted p s))) ∧
      (hdrField p.data 4 1 = structId s.cfg → (hdrField p.data 15 1 = s.straps.feed.toNat → s.ckpt.sameAck = true) →
        Answers (.proberPacket p) s { counted p s with ckpt := { s.ckpt with
          state := 2, arm := true, probe := none, sameFeed := hdrField p.data 15 1 == s.straps.feed.toNat } })) ∧
    (p.srcChip ≠ chipOf s.ckpt.partner ∨ p.srcCore ≠ coreOf s.ckpt.partner ∨ s.ckpt.state ≠ 1 ∨ s.ckpt.probe = none →
      Answers (.proberPacket p) s (fabDrop (counted p s)) ∧ (fabDrop (counted p s)).ckpt = s.ckpt))

/-- R361: an accepted RESET packet of REACH warm or data starts a reset of that reach and sets RST_CAUSE bit 7; one with a
reserved REACH, and one whose JOB is not JOB_ID, is discarded and counted in FAB_DROP; no packet is queued in answer, and no
RESET packet starts a cold reset. -/
def Obligations.ResetPacketsStartWarmAndDataResets : Prop :=
  (∀ (p : Pkt) (s : State), p.typ = 14 → Accepted p s →
    (wfld p.w4 1 0 = 1 → Answers (.resetPacket p) s (assertReset 7 2 (counted p s)) ∧
      (assertReset 7 2 (counted p s)).rst.cause.getLsbD 7 = true) ∧
    (wfld p.w4 1 0 = 2 → Answers (.resetPacket p) s (assertReset 7 3 (counted p s)) ∧
      (assertReset 7 3 (counted p s)).rst.cause.getLsbD 7 = true) ∧
    (wfld p.w4 1 0 ∉ [1, 2] → Answers (.resetPacket p) s (fabDrop (counted p s)) ∧
      (fabDrop (counted p s)).fab.fabDrop = satCount 16 (s.fab.fabDrop + 1))) ∧
  (∀ (p : Pkt) (s : State), p.typ = 14 → Arrives p s → Intact p → formOk p = true → p.core = s.straps.core.toNat →
    p.job ≠ s.job.id.toNat → toReplica s p = false →
    ∃ t, Answers (.resetPacket p) s t ∧ t.fab.fabDrop = satCount 16 (s.fab.fabDrop + 1) ∧ t.fab.txq = s.fab.txq ∧
      t.rst = s.rst) ∧
  (∀ (p : Pkt) (s t : State), p.typ = 14 → Arrives p s → Answers (.resetPacket p) s t →
    (∀ x ∈ t.fab.txq, x ∈ s.fab.txq) ∧ (∀ x ∈ t.rst.srcs, x.reach = 1 → x ∈ s.rst.srcs))

/-- R28, R366: a packet that waits, whose channel is free and has credits for its flits, is handed over: the credits are
spent, the channel is busy for its flits, its request is outstanding and the packet is on the wire. A returned credit adds
one to its channel. -/
def Obligations.PacketHandoffSpendsCredits : Prop :=
  (∀ (s : State) (ch : BitVec 1) (p : TxPkt), s.fab.txq.find? (fun q => q.ch == ch.toNat) = some p → portOk s = true →
    p.due ≤ s.clock.ek → (if ch = 0 then s.fab.busy0 else s.fab.busy1) ≤ s.clock.clk →
    flitsOf p.payload.length ≤ (if ch = 0 then s.fab.txCred0 else s.fab.txCred1) →
    let n := flitsOf p.payload.length
    ∃ t, Answers (.packetHandoff ch) s t ∧ t.fab.txq = s.fab.txq.erase p ∧ t.fab.wire = p :: s.fab.wire ∧
      t.fab.outst = s.fab.outst ++ p.req.toList ∧
      t.fab.txCred0 + (if ch = 0 then n else 0) = s.fab.txCred0 ∧
      t.fab.txCred1 + (if ch = 1 then n else 0) = s.fab.txCred1 ∧
      t.fab.busy0 = (if ch = 0 then s.clock.clk + n else s.fab.busy0) ∧
      t.fab.busy1 = (if ch = 1 then s.clock.clk + n else s.fab.busy1) ∧ StoresKept s t ∧ ControlKept s t) ∧
  (∀ s : State, awake s = true → stepDone s 7 = true →
    Answers (.gmiTxCredit 0) s { s with fab := { s.fab with txCred0 := s.fab.txCred0 + 1 } } ∧
    Answers (.gmiTxCredit 1) s { s with fab := { s.fab with txCred1 := s.fab.txCred1 + 1 } }) ∧
  (∀ (s : State) (ch : BitVec 1), awake s = false ∨ stepDone s 7 = false → Answers (.gmiTxCredit ch) s s)

/-! ## Resets, trim, thermal, watch, test access (13_reset_and_power, 01_boundary) -/

/-- R430, R431, R432, R434, R435: a source that asserts joins the asserted sources (one asserted already asserts anew) with its
reach, and holds every step of that reach, every step where the core sleeps; the steps before keep their state, and the
program's state is cleared. A cold reset sets RST_CAUSE to the bits of the sources asserted, with bit 9 over a trim load, resets
the trim, ownership, the error log, the counters and the job registers, and by power-on and brown-out loses the link. A warm
or data reset adds its bit, a warm one bit 9 too where it interrupts step 4, whose shadow it discards; the trim is otherwise
kept, and so are the pool, the images, ownership, the counters and the error log. The watchdog needs 4 slow ticks without
service, and the debug reset its lock to be off. -/
def Obligations.ResetSourcesHoldTheirReach : Prop :=
  (∀ (s : State) (c : Instr) (bit reach : Nat),
    (c, bit, reach) ∈ [(Instr.porAssert, 0, 1), (.brownOut, 1, 1), (.chipRstAssert, 2, 2), (.mgcWatchdogExpiry, 4, 1),
      (.debugReset 1, 8, 1), (.debugReset 2, 8, 2), (.debugReset 3, 8, 3)] →
    (bit = 4 → mgcUp s = true ∧ 4 ≤ s.rst.wdog) → (bit = 8 → s.dbg.lock = false) →
    let first := if awake s = true then [1, 4, 8].getD (reach - 1) 0 else 1
    let src : RstSrc := ⟨bit, reach, s.clock.refc, 7, first⟩
    ∃ t, Answers c s t ∧ ProgramCleared s t ∧
      ((∀ x ∈ s.rst.srcs, x.bit ≠ bit) → t.rst.srcs = s.rst.srcs ++ [src]) ∧
      ((∃ x ∈ s.rst.srcs, x.bit = bit) → t.rst.srcs = s.rst.srcs.map fun x => if x.bit = bit then src else x) ∧
      (∀ i, i < s.rst.steps.length → i + 1 < first → t.rst.steps.getD i ⟨0, 0, 0, 0⟩ = s.rst.steps.getD i ⟨0, 0, 0, 0⟩) ∧
      (∀ i, i < s.rst.steps.length → first ≤ i + 1 → (t.rst.steps.getD i ⟨0, 0, 0, 0⟩).st = 0 ∧
        (t.rst.steps.getD i ⟨0, 0, 0, 0⟩).tFree = s.clock.refc + 1) ∧
      (reach = 1 →
        t.rst.cause = ((s.rst.srcs.foldl (fun c x => c ||| (1 <<< x.bit)) 0 ||| (1 <<< bit)) |||
          (if s.trim.state = 1 then 0x200 else 0) : BitVec 10) ∧
        t.own = Own.init ∧ t.err = Err.init ∧ t.cnt = Cnt.init ∧ t.ckpt = Ckpt.init ∧ t.trim = Trim.init ∧
        t.job = Job.init ∧ t.fab.routes0 = [] ∧ t.fab.routes1 = [] ∧ t.pwr.level = 0 ∧ t.pwr.ready = false ∧
        t.rst.wdog = 0 ∧ t.rst.cold = true ∧
        (bit ≤ 1 → t.fab.link = false ∧ t.fab.txCred0 = 0 ∧ t.fab.txCred1 = 0 ∧ t.fab.rxCred0 = 0 ∧ t.fab.rxCred1 = 0 ∧
          t.fab.rxbuf = []) ∧
        (2 ≤ bit → t.fab.link = s.fab.link ∧ t.fab.rxbuf = s.fab.rxbuf)) ∧
      (2 ≤ reach →
        let cut := reach = 2 ∧ s.trim.state = 1 ∧ ∃ x, s.rst.steps[3]? = some x ∧ x.st = 1
        (cut → t.rst.cause = s.rst.cause ||| 0x200 ||| (1 <<< bit) ∧
          t.trim = { s.trim with state := 0, fuseReq := false, retryAt := none }) ∧
        (¬cut → t.rst.cause = s.rst.cause ||| (1 <<< bit) ∧ t.trim = s.trim) ∧
        t.own = s.own ∧ t.cnt = s.cnt ∧ t.err.v = s.err.v ∧ t.err.log = s.err.log ∧ t.fab.link = s.fab.link ∧
        t.fab.rxbuf = s.fab.rxbuf ∧
        (reach = 2 → t.job = Job.init ∧ t.fab.routes0 = [] ∧ t.fab.routes1 = [] ∧ t.pwr.level = 0 ∧ t.pwr.ready = false) ∧
        (reach = 3 → t.job = s.job ∧ t.fab.routes0 = s.fab.routes0 ∧ t.fab.routes1 = s.fab.routes1 ∧
          (awake s = true → t.pwr.level = s.pwr.level))) ∧
      t.pins = { s.pins with porN := s.pins.porN && bit != 0, chipRstN := s.pins.chipRstN && bit != 2 } ∧
      t.tap = { s.tap with debugRst := s.tap.debugRst || bit == 8 } ∧
      t.pool = s.pool ∧ t.img.a = s.img.a ∧ t.img.b = s.img.b ∧ t.img.cur = s.img.cur ∧ t.cfg = s.cfg ∧
      t.straps = s.straps) ∧
  (∀ s : State, mgcUp s = false ∨ s.rst.wdog < 4 → Answers .mgcWatchdogExpiry s s) ∧
  (∀ s : State, s.dbg.lock = false → Answers (.debugReset 0) s s)

/-- R430, R434, R36: a source's release takes it from the asserted ones and leaves the others; the steps that it held, and
that stay HELD, count their gap from this cycle, and the last cold source latches the straps. A pin releases its source when it
rises, a timed source after its 16 cycles, a brown-out after its 1,000, and the debug reset where its reset bit is 0 besides;
before that nothing is released. A number that names no timed source is no event of the core (the model's fault, log 1).

R433, R434: a HELD step that no source holds, whose predecessor is DONE and whose gap has passed, starts its action and
is RUNNING; a RUNNING step whose action is complete, after the cycles that R433 gives it, is DONE; before that neither event
changes anything. Step 8 raises spr_rdy, and at step 9 the core enters Idle. A number that is no step is no event of the core
(the model's fault, log 1). -/
def Obligations.ResetReleaseFollowsItsSteps : Prop :=
  ((∀ (s : State) (st : Straps) (c : Instr) (bit wait : Nat),
      (c, bit, wait) ∈ [(Instr.chipRstRelease, 2, 0), (.porRelease st, 0, 0), (.brownOutRelease, 1, 1000),
        (.internalResetRelease 3, 3, 16), (.internalResetRelease 4, 4, 16), (.internalResetRelease 5, 5, 16),
        (.internalResetRelease 6, 6, 16), (.internalResetRelease 7, 7, 16), (.internalResetRelease 8, 8, 16),
        (.debugResetRelease, 8, 16)] →
      (bit = 2 → s.pins.chipRstN = false) → (bit = 0 → s.pins.porN = false) →
      (c = .internalResetRelease 8 → s.tap.debugRst = false) → (c = .debugResetRelease → s.dbg.lock = false) →
      ∃ t, Answers c s t ∧
        t.rst.srcs = s.rst.srcs.filter (fun x => !(x.bit == bit && decide (wait = 0 ∨ x.since + wait ≤ s.clock.refc))) ∧
        t.rst.cause = s.rst.cause ∧ t.rst.steps.map (·.st) = s.rst.steps.map (·.st) ∧
        (∀ i x, i < s.rst.steps.length → (s.rst.steps.getD i ⟨0, 0, 0, 0⟩).st = 0 → x ∈ s.rst.srcs → x.bit = bit →
          (wait = 0 ∨ x.since + wait ≤ s.clock.refc) → x.first ≤ i + 1 →
          (t.rst.steps.getD i ⟨0, 0, 0, 0⟩).tFree = s.clock.refc) ∧
        t.strapPins = (if bit = 0 then st else s.strapPins) ∧
        ((∃ x ∈ s.rst.srcs, x.reach = 1) → (∀ x ∈ t.rst.srcs, x.reach ≠ 1) → t.straps = t.strapPins) ∧
        ((∃ x ∈ t.rst.srcs, x.reach = 1) → t.straps = s.straps) ∧
        t.pins = { s.pins with chipRstN := s.pins.chipRstN || bit == 2, porN := s.pins.porN || bit == 0 } ∧
        t.tap = { s.tap with debugRst := s.tap.debugRst && bit != 8 } ∧ t.pool = s.pool ∧ t.own = s.own ∧ StoresKept s t) ∧
    (∀ s : State, s.pins.chipRstN = true → Answers .chipRstRelease s s) ∧
    (∀ (s : State) (st : Straps), s.pins.porN = true → Answers (.porRelease st) s s) ∧
    (∀ (s : State) (b : BitVec 4), b.toNat < 3 ∨ 8 < b.toNat → exec (.internalResetRelease b) s = .fault .noSuchEvent)) ∧
  ((∀ (s : State) (k : BitVec 4), 1 ≤ k.toNat → k.toNat ≤ 9 → s.rst.steps.length = 9 →
      let x := s.rst.steps.getD (k.toNat - 1) ⟨0, 0, 0, 0⟩
      let may := x.st = 0 ∧ (∀ y ∈ s.rst.srcs, k.toNat < y.first) ∧ (k.toNat = 1 ∨ stepDone s (k.toNat - 1) = true) ∧
        max (if k.toNat = 1 then 0 else (s.rst.steps.getD (k.toNat - 2) ⟨0, 0, 0, 0⟩).tDone) x.tFree +
          [0, 16, 16, 16, 8, 8, 8, 4, 4].getD (k.toNat - 1) 0 ≤ s.clock.refc
      (may → ∃ t, Answers (.resetStepStart k) s t ∧
        t.rst = { s.rst with steps := s.rst.steps.set (k.toNat - 1) { x with st := 1, tRun := s.clock.refc } } ∧
        (k = 1 → s.rst.fromPower = true → t.pwr.slewFrom = 0 ∧ t.pwr.vout = levelVolt 0 ∧ t.pwr.slewAt = s.clock.refc) ∧
        (k = 1 → s.rst.fromPower = false → s.rst.fromSleep = true →
          t.pwr.slewFrom = 5000 ∧ t.pwr.vout = levelVolt 0 ∧ t.pwr.slewAt = s.clock.refc) ∧
        (k = 4 → ¬(s.rst.fromSleep = true ∧ s.rst.cold = false) → s.trim.fails ≠ 3 →
          t.trim.fuseReq = true ∧ t.trim.state = 1 ∧ t.trim.reqSince = s.clock.refc) ∧
        StoresKept s t) ∧
      (¬may → Answers (.resetStepStart k) s s)) ∧
    (∀ (s : State) (k : BitVec 4), 1 ≤ k.toNat → k.toNat ≤ 9 → s.rst.steps.length = 9 →
      let x := s.rst.steps.getD (k.toNat - 1) ⟨0, 0, 0, 0⟩
      let asleep := s.rst.fromSleep = true ∧ s.rst.cold = false
      let lost := s.pwr.lostLink = true ∧ s.pwr.brownout = false
      let time := [64, 13, if asleep then 4 else 2000, 0, 256, if s.cfg.wide then 410 else 205, if lost then 4 else 1, 1, 1].getD
        (k.toNat - 1) 0
      let ended := x.st = 1 ∧ x.tRun + time ≤ s.clock.refc ∧ (k = 1 → voltSettled s = true) ∧ (k = 4 → s.trim.state ≠ 1)
      (ended → ∃ t, Answers (.resetStepComplete k) s t ∧
        t.rst.steps = s.rst.steps.set (k.toNat - 1) { x with st := 2, tDone := s.clock.refc } ∧
        (k = 5 → t.img.a = ImgSlot.empty ∧ t.img.b = ImgSlot.empty ∧ t.img.cur = Image.null) ∧
        (k = 6 → s.rst.cold = true → t.pool.mem = [] ∧ t.pool.poison = []) ∧
        (k = 7 → lost → t.fab.link = true ∧ t.fab.rxCred0 = 16 ∧ t.fab.rxCred1 = 16) ∧
        (k = 8 → t.out.sprRdy = true) ∧
        (k = 9 → t.pwr.state = 1 ∧ t.pwr.hwhy = 0 ∧ t.mxa.level = 0 ∧ t.mxb.level = 0) ∧ t.rst.cause = s.rst.cause) ∧
      (¬ended → Answers (.resetStepComplete k) s s)) ∧
    (∀ (s : State) (k : BitVec 4), ¬(1 ≤ k.toNat ∧ k.toNat ≤ 9) →
      exec (.resetStepStart k) s = .fault .noSuchEvent ∧ exec (.resetStepComplete k) s = .fault .noSuchEvent))

/-- R38, R436, R437: a fuse frame that ends in its 100,000 cycles, with a right CRC and word 0, commits the trims, the fused
maximum level and sets STATE to PASS; one with a wrong CRC, a wrong word 0 or too late, and a timeout, counts a failure with
its CAUSE and retries 16 cycles later; the third failure commits the safe defaults and sets RST_CAUSE bit 9. The order of the
CAUSE codes, and that word 0 [15:0] is not compared, are the model's choice (log 92).

R38, R436: fuse_req rises again when it has been 0 for its 16 cycles. -/
def Obligations.TrimLoadsFromTheFuseFrame : Prop :=
  ((∀ s : State, s.trim.fuseReq = true → s.trim.state = 1 →
      (∀ ws : List Word, ws.length = 26 → s.clock.refc ≤ s.trim.reqSince + 100000 →
        crc32c (wordsBytes (ws.take 25)) = ws.getD 25 0 → wfld (ws.getD 0 0) 31 16 = 0x0118 →
        ∃ t, Answers (.fuseFrameEnd ws) s t ∧ t.trim.state = 2 ∧ t.trim.committed = true ∧ t.trim.fails = 0 ∧
          t.trim.fuseReq = false ∧
          t.trim.regTrim.toNat = wfld (ws.getD 1 0) 7 0 ∧ t.trim.limTrim.toNat = wfld (ws.getD 1 0) 15 8 ∧
          t.trim.droopTrim.toNat = wfld (ws.getD 1 0) 23 16 ∧ t.trim.thLogic.toNat = wfld (ws.getD 2 0) 15 0 ∧
          t.trim.thSram.toNat = wfld (ws.getD 2 0) 31 16 ∧ t.trim.fusedMax.toNat = wfld (ws.getD 3 0) 1 0 ∧
          t.rst = s.rst ∧ t.pwr = s.pwr ∧ StoresKept s t) ∧
      (∀ (c : Instr) (cause : Nat),
        ((∃ ws : List Word, c = .fuseFrameEnd ws ∧ ws.length = 26 ∧
            ((s.trim.reqSince + 100000 < s.clock.refc ∧ cause = 3) ∨
              (s.clock.refc ≤ s.trim.reqSince + 100000 ∧ crc32c (wordsBytes (ws.take 25)) ≠ ws.getD 25 0 ∧ cause = 1) ∨
              (s.clock.refc ≤ s.trim.reqSince + 100000 ∧ crc32c (wordsBytes (ws.take 25)) = ws.getD 25 0 ∧
                wfld (ws.getD 0 0) 31 16 ≠ 0x0118 ∧ cause = 2))) ∨
          (c = .fuseTimeout ∧ s.trim.reqSince + 100000 ≤ s.clock.refc ∧ cause = 3)) →
        (s.trim.fails + 1 < 3 → Answers c s { s with trim := { s.trim with
            fails := s.trim.fails + 1, cause := cause, fuseReq := false, retryAt := some (s.clock.refc + 16) } }) ∧
        (s.trim.fails + 1 = 3 → Answers c s { s with
            trim := { Trim.init with state := 3, fails := 3, cause := cause }
            rst := { s.rst with cause := s.rst.cause ||| 0x200 } })) ∧
      (s.clock.refc < s.trim.reqSince + 100000 → Answers .fuseTimeout s s)) ∧
    (∀ (s : State) (ws : List Word), s.trim.fuseReq = false ∨ s.trim.state ≠ 1 →
      Answers (.fuseFrameEnd ws) s s ∧ Answers .fuseTimeout s s)) ∧
  (∀ (s : State) (r : Nat), s.trim.retryAt = some r → s.trim.state = 1 →
      (r ≤ s.clock.refc → Answers .fuseRetry s { s with
        trim := { s.trim with fuseReq := true, reqSince := s.clock.refc, retryAt := none } }) ∧
      (s.clock.refc < r → Answers .fuseRetry s s))

/-- R49, R437, R460: in every power state each temperature is kept as measured; therm_warn is 1 where a tier is at or above its
warning threshold, and a trip at or above the trip threshold faults with THERM_TRIP for that tier. The thresholds are those of a
core whose trim load has committed, or the safe defaults. -/
def Obligations.TemperaturesWarnAndTrip : Prop :=
  ∀ (s : State) (logic sram : Int),
    let lim : Int × Int × Int × Int :=
      if s.trim.committed = true ∧ s.trim.state ≠ 3 then (1600, 1520, 1840, 1760) else (1440, 1360, 1680, 1600)
    let m := { s with
      st := { s.st with tempLogic := BitVec.ofNat 16 (toCode 16 logic), tempSram := BitVec.ofNat 16 (toCode 16 sram) }
      out := { s.out with thermWarn := decide (lim.1 ≤ logic) || decide (lim.2.1 ≤ sram) } }
    let onLogic := raise 0xA2 (FaultCtx.args 0 (toCode 16 logic)) m
    Answers (.thermWarn logic sram) s m ∧
    (lim.2.2.1 ≤ logic → sram < lim.2.2.2 → Answers (.thermalTrip logic sram) s onLogic) ∧
    (logic < lim.2.2.1 → lim.2.2.2 ≤ sram →
      Answers (.thermalTrip logic sram) s (raise 0xA2 (FaultCtx.args 1 (toCode 16 sram)) m)) ∧
    (lim.2.2.1 ≤ logic → lim.2.2.2 ≤ sram →
      Answers (.thermalTrip logic sram) s (raise 0xA2 (FaultCtx.args 1 (toCode 16 sram)) onLogic)) ∧
    (logic < lim.2.2.1 → sram < lim.2.2.2 → Answers (.thermalTrip logic sram) s m)

/-- R450: a core in Shallows opens a window once in a WATCH_PERIOD; one that holds a rotation of the sprout pattern, or a frame
for its slot, records wake lane 1 or 2 (1 where both match), counts the wake, and starts its release from step 1; a window with
neither match only sets the next one's time, and outside a due window nothing changes. -/
def Obligations.WatchWindowWakes : Prop :=
  (∀ (s : State) (samples : List Bool) (frame : Option Byte), s.pwr.state = 3 → s.pwr.watchAt ≤ s.clock.refc →
    let own := frame = some (BitVec.zeroExtend 8 s.straps.slot)
    (sproutMatch s.pwr.sproutUse samples = true ∨ own →
      ∃ t, Answers (.watchWindow samples frame) s t ∧ t.pwr.state = 1 ∧
        t.pwr.wake = (if sproutMatch s.pwr.sproutUse samples = true then 1 else 2) ∧
        t.pwr.wcnt = satCount 16 (s.pwr.wcnt + 1) ∧ t.pwr.level = 0 ∧ t.rst.fromSleep = true ∧
        (∀ x ∈ t.rst.steps, x.st = 0 ∧ x.tFree = s.clock.refc + 1) ∧ t.rst.steps.length = s.rst.steps.length ∧
        StoresKept s t) ∧
    (sproutMatch s.pwr.sproutUse samples = false → ¬own →
      ∃ n, s.clock.refc < n ∧ n ≤ s.clock.refc + 100 * max 1 s.pwr.periodUse ∧
        Answers (.watchWindow samples frame) s { s with pwr := { s.pwr with watchAt := n } })) ∧
  (∀ (s : State) (samples : List Bool) (frame : Option Byte), s.pwr.state ≠ 3 ∨ s.clock.refc < s.pwr.watchAt →
    Answers (.watchWindow samples frame) s s)

/-- R39, R40, R41: the TAP's instructions select their registers through the controller's scans, IDCODE with bit 0 at 1 and the
manufacturer in [11:1], and every value that names no instruction the one bit of BYPASS; IJTAG reaches the management window,
and while debug lock is on a data access reads 0 and is counted, and a debug reset is only counted. A wrapper instruction stands
in its register; WS_SAFE drives every output to its reset state, EXTEST and CLAMP drive the boundary register, and under the
others the outputs are the core's. Nothing but the TAP and the wrapper changes. -/
def Obligations.TestAccessSelectsItsRegisters : Prop :=
  (∀ s : State,
    Answers .tapReset s { s with tap := { s.tap with ctl := .reset, sh := 0, tdo := none, ir := 0x01, dr := 0 } } ∧
    (∃ t, Answers .idcode s t ∧ t.tap.ir = 0x01 ∧ t.tap.ctl = .idle ∧ t.tap.dr.getLsbD 0 = true ∧
      wfld t.tap.dr 11 1 = s.cfg.mfr.toNat ∧ t.tap.blocked = s.tap.blocked ∧ t.tap.debugRst = s.tap.debugRst ∧
      t = { s with tap := t.tap }) ∧
    (∀ ir : Byte, ir ≠ 0x01 → ir ≠ 0x10 → ∃ t, Answers (.bypass ir) s t ∧ t.tap.ir = ir ∧ t.tap.ctl = .idle ∧ t.tap.dr = 0 ∧
      t.tap.blocked = s.tap.blocked ∧ t.tap.debugRst = s.tap.debugRst ∧ t = { s with tap := t.tap }) ∧
    Answers (.bypass 0x01) s s ∧ Answers (.bypass 0x10) s s ∧
    (∃ t, Answers (.ijtag .select) s t ∧ t.tap.ir = 0x10 ∧ t.tap.ctl = .idle ∧ t = { s with tap := t.tap }) ∧
    (s.dbg.lock = true → ∀ (a : BitVec 16) (w : Word) (v : Nat),
      ∀ c ∈ ([.ijtag (.windowRead a), .ijtag (.windowWrite a w), .ijtag (.instrument v w)] : List Instr),
      ∃ t, Answers c s t ∧ t.tap.ir = 0x10 ∧ t.tap.dr = 0 ∧ t.tap.blocked = s.tap.blocked + 1 ∧ t = { s with tap := t.tap }) ∧
    (s.dbg.lock = false → mgcUp s = true → ∀ a : BitVec 16, ∃ t, Answers (.ijtag (.windowRead a)) s t ∧ t.tap.ir = 0x10 ∧
      t.tap.dr = (regValue s a.toNat).getD 0 ∧ t.tap.blocked = s.tap.blocked) ∧
    (s.dbg.lock = false → mgcUp s = true → ∀ (a : BitVec 16) (w : Word), a ≠ 0x0404 → a ≠ 0x0800 →
      ∃ t u, Answers (.ijtag (.windowWrite a w)) s t ∧ u = { s with tap := u.tap } ∧ u.tap.ir = 0x10 ∧
        t = (regWrite a.toNat w u).1) ∧
    (s.dbg.lock = true → ∀ r, Answers (.debugReset r) s { s with tap := { s.tap with blocked := s.tap.blocked + 1 } }) ∧
    (s.dbg.lock = true → Answers .debugResetRelease s { s with tap := { s.tap with blocked := s.tap.blocked + 1 } })) ∧
  (∀ (s : State) (c : Instr) (n : Nat) (p : Pads), (c, n, p) ∈ [(Instr.wsBypass, 0, corePads s), (.wsExtest, 1, s.tap.cells),
      (.wsPreload, 2, corePads s), (.wsClamp, 3, s.tap.cells), (.wsSafe, 4, Pads.reset), (.wsIntestScan, 5, corePads s),
      (.wpExtest, 6, s.tap.cells), (.wpIntestScan, 7, corePads s)] →
    ∃ t, Answers c s t ∧ t.tap.wir = n ∧ padsSeen t = p ∧ (n ≠ 2 → t.tap.cells = s.tap.cells) ∧ t.tap.ir = s.tap.ir ∧
      t.tap.dr = s.tap.dr ∧ t.tap.blocked = s.tap.blocked ∧ t.tap.debugRst = s.tap.debugRst ∧
      t = { s with tap := t.tap, free := t.free })

/-! ## Arrays (05_arrays, 06_backward) -/

/-- R183, R199, R166: a product or comparison at the head of its array's queue that may start, on an array that is free and
may broadcast, with every line of its first k-steps poppable, is under way: it leaves the queue and becomes the array's run,
with no k-step done; accumulators, pool, channels, registers and the other queues are as before.

R63, R64, R161, R164, R176: the k-steps of one clk pop their operand lines and update every cell of the tile, whose accumulators
begin at their opcode's value where the instruction opens the tile; the instruction ends with its K-th k-step, and a closing one
then waits for its swap. GPDX fills the pair turn with the groups of B, and a frozen-weight pair broadcasts on both arrays at once
(log 15). A k-step of a product of class H rounds each product of a row of A and a column of B once into its
cell, MMAN's negated; a k-step of a comparison takes the distance, the sum or the predicate of the two. -/
def Obligations.ProductsStartAndAccumulate : Prop :=
  (∀ (s : State) (c : Instr) (a : Arr) (op : Nat) (e : Entry) (es : List Entry),
      (c, op) ∈ [(Instr.mma a, 0x01), (.mman a, 0x02), (.cdl1 a, 0x08), (.cdl2 a, 0x09), (.cminp a, 0x0A), (.cmaxp a, 0x0B),
        (.ccnt a, 0x0C)] ∨ (c, a, op) ∈ [(Instr.gpdx, Arr.mxa, 0x10), (.gpdw, .mxb, 0x11), (.fwdx, .mxa, 0x12), (.adz, .mxb, 0x13)] →
      Startable s (Arr.slot a) e es → e.op = op → (getArr s a).run = none → (getArr s a).lastStep ≠ some s.clock.clk →
      mayBroadcast s a = true → (fetchClk a ⟨e, 0, [], [], [], [], [], []⟩ s).isSome = true →
      Answers c s (setArr a { getArr s a with run := some ⟨e, 0, [], [], [], [], [], []⟩ } (left (Arr.slot a) es s))) ∧
  ((∀ (s : State) (a : Arr) (r : ArrRun) (f : ArrFetch) (u : State),
      (getArr s a).run = some r → mayBroadcast s a = true → r.e.op ∉ [0x12, 0x13] → fetchClk a r s = some (f, u) →
      let k := r.k + f.a.length
      let w := if r.e.op = 0x10 then
          fillTurn r.e ((chHold s r.e.chY 1).length - (chHold u r.e.chY 1).length) (f.b.flatMap id) u
        else u
      ∃ t, Answers (.kstepBroadcast a) s t ∧
        (getArr t a).acc = (accumulate (tileN s) (openTile s (getArr s a) f.run) f).1 ∧
        (getArr t a).isOpen = true ∧ (getArr t a).armed = false ∧ (getArr t a).lastStep = some s.clock.clk ∧
        ((getArr t a).run.isNone = decide (r.e.kTotal ≤ k)) ∧
        (k < r.e.kTotal ∨ r.e.b0 = false → (getArr t a).swap = (getArr s a).swap) ∧
        (r.e.kTotal ≤ k → r.e.b0 = true → (getArr t a).swap = some (s.clock.clk, r.e) ∧ t.live = u.live) ∧
        (r.e.kTotal ≤ k → r.e.b0 = false → t.live = (complete r.e.id u).live) ∧
        (r.e.op ∉ [0x10, 0x11] → t.turn = u.turn) ∧
        t.chans = w.chans ∧ t.q = u.q ∧ t.pool = u.pool) ∧
    (∀ (s u v : State) (a : Arr) (r q : ArrRun) (f g : ArrFetch),
      let b : Arr := if a = .mxa then .mxb else .mxa
      (getArr s a).run = some r → mayBroadcast s a = true → r.e.op ∈ [0x12, 0x13] → adzPartner s a r = some q →
      fetchClk a r s = some (f, u) → fetchClk b q u = some (g, v) →
      Answers (.kstepBroadcast a) s (broadcastWith b g (broadcastWith a f v))) ∧
    (∀ (s : State) (a : Arr) (r : ArrRun), (getArr s a).run = some r → r.e.op ∈ [0x12, 0x13] → adzPartner s a r = none →
      Answers (.kstepBroadcast a) s s) ∧
    (∀ (n : Nat) (old : List Word) (f : ArrFetch) (ac bc : List Nat), f.a = [ac] → f.b = [bc] →
      f.run.e.op ∈ [0x01, 0x02] ∧ f.run.e.d.fld 0 22 20 = 0 ∨ f.run.e.op ∈ [0x08, 0x09, 0x0A, 0x0B, 0x0C] →
      let e := f.run.e
      let av := fun i => (ac.map (decodeElem e.fmtA)).getD i (FVal.zero false)
      let bv := fun j => (bc.map (decodeElem e.fmtB)).getD j (FVal.zero false)
      let new := (accumulate n old f).1
      new.length = old.length ∧ ∀ p, p < old.length →
        let x := old.getD p 0
        let va := av (p / n)
        let vb := bv (p % n)
        (e.op = 0x01 → new.getD p 0 = accStep x (va.mul vb)) ∧
        (e.op = 0x02 → new.getD p 0 = accStep x (va.mul vb).neg) ∧
        (e.op = 0x08 → new.getD p 0 = accStep x (va.sub vb).abs) ∧
        (e.op = 0x09 → new.getD p 0 = accStep x ((va.sub vb).mul (va.sub vb))) ∧
        (e.op = 0x0A → new.getD p 0 = rneF32 (fminv (f32 x) (rneF32v (va.add vb)))) ∧
        (e.op = 0x0B → new.getD p 0 = rneF32 (fmaxv (f32 x) (rneF32v (va.add vb)))) ∧
        (e.op = 0x0C → new.getD p 0 = if cmpVal (e.d.fld 0 19 17) va vb then accStep x (FVal.ofNat 1) else x)) ∧
    (∀ (s : State) (x : ArrState) (r : ArrRun),
      openTile s x r = if r.k = 0 ∧ ¬(r.e.b1 = true ∧ x.isOpen = true)
        then List.replicate (tileM s * tileN s) (if r.e.op = 0x0A then 0x7F800000 else if r.e.op = 0x0B then 0xFF800000 else 0)
        else x.acc) ∧
    (∀ (s : State) (a : Arr), mayBroadcast s a = false ∨ (getArr s a).run = none → Answers (.kstepBroadcast a) s s))

/-- R182, R181, R166, R183: DISCARD drops the open tile (one that is closed and waits for its swap stays), ARM and QUIET set the array's armed and quiet state, and DRAIN swaps
the open tile (a tile of +0 where none is open) into the empty shadow; each leaves its queue in the clk it starts.

R179: after four counted clk the activity level moves one step toward its target and the count starts anew; at its target,
before four counted clk, or in a skipped clk it stays. -/
def Obligations.ArrayControlsAndActivityAct : Prop :=
  (∀ (s : State) (a : Arr) (e : Entry) (es : List Entry), Startable s (Arr.slot a) e es → (getArr s a).run = none →
      (getArr s a).lastStep ≠ some s.clock.clk →
      let x := getArr s a
      let u := left (Arr.slot a) es s
      (e.op = 0x19 → x.swap = none →
        Answers (.discard a) s (complete e.id (setArr a { x with acc := [], isOpen := false } u))) ∧
      (e.op = 0x19 → x.swap ≠ none → Answers (.discard a) s (complete e.id u)) ∧
      (e.op = 0x1A → Answers (.arm a) s (complete e.id (setArr a { x with armed := true } u))) ∧
      (e.op = 0x1B → Answers (.quiet a) s (complete e.id (setArr a { x with quiet := true, armed := false } u))) ∧
      (e.op = 0x18 → x.swap = none → x.shadow = none →
        ∃ t, Answers (.drain a) s t ∧ (getArr t a).isOpen = false ∧ (getArr t a).acc = [] ∧
          (∃ k, (getArr t a).shadow = some k ∧ k.e = e ∧ k.row = 0 ∧ k.cols = 0 ∧
            k.acc = (if x.isOpen then x.acc else List.replicate (tileM s * tileN s) 0)) ∧
          t.q = u.q ∧ t.live = s.live ∧ StoresKept s t ∧ ControlKept s t)) ∧
  (∀ (s : State) (a : Arr),
      let x := getArr s a
      (x.cnt = 4 → s.clock.skip = false → x.level < x.target →
        Answers (.activityLevelStep a) s (setArr a { x with level := x.level + 1, cnt := 0 } s)) ∧
      (x.cnt = 4 → s.clock.skip = false → x.target < x.level →
        Answers (.activityLevelStep a) s (setArr a { x with level := x.level - 1, cnt := 0 } s)) ∧
      (x.cnt ≠ 4 ∨ s.clock.skip = true ∨ x.level = x.target → Answers (.activityLevelStep a) s s))

/-- R168, R172: a closed tile waits at least until the clk after its last k-step and swaps into the empty shadow, under its
closing instruction.

R169, R170, R172, R173, R84: while CH_OUT has room for it, one row of the tile in the corner turn leaves per clk: its lines join
the channel, with END and NF at 0 until the tile's last line, which has END at 1 and NF at the tile's non-finite flag; the
instruction completes with it. A row that finds no room waits. Where FOLD_EN is 1 the row's values are folded in that clk. -/
def Obligations.ClosedTilesSwapAndDrain : Prop :=
  (∀ (s : State) (a : Arr) (c : Nat) (e : Entry), (getArr s a).swap = some (c, e) → engOk s (Arr.slot a) = true →
      (c < s.clock.clk → (getArr s a).shadow = none →
        ∃ t, Answers (.tileSwap a) s t ∧ (getArr t a).swap = none ∧ (getArr t a).isOpen = false ∧
          (∃ k, (getArr t a).shadow = some k ∧ k.e = e ∧ k.acc = (getArr s a).acc ∧ k.row = 0 ∧ k.cols = 0) ∧
          (getArr t a).corner = (getArr s a).corner ∧ (getArr t a).run = (getArr s a).run ∧ t.q = s.q ∧ t.live = s.live ∧
          StoresKept s t ∧ ControlKept s t) ∧
      (s.clock.clk ≤ c ∨ (getArr s a).shadow ≠ none → Answers (.tileSwap a) s s)) ∧
  (∀ (s : State) (a : Arr) (k : Tile) (rest : List Tile), (getArr s a).corner = k :: rest → engOk s (Arr.slot a) = true →
      (getArr s a).lastRow ≠ some s.clock.clk → k.row < tileM s →
      let k1 := (drainRow s.job.seed (tileN s) k).1
      let vs := (drainRow s.job.seed (tileN s) k).2
      let ls := k1.out.lineq
      let folded := match k.e.foldSlot with
        | some n => (foldInto n vs s).scaleNow
        | none => s.scaleNow
      (ls.length ≤ chRoom s k.e.chOut → k1.row < tileM s → ∃ t, Answers (.drainRowPush a) s t ∧
        (getArr t a).corner = { k1 with out := k1.out.leave ls.length } :: rest ∧ (getArr t a).lastRow = some s.clock.clk ∧
        t.chans = (chPush k.e.chOut (ls.map fun l => (l.1, false, false)) s).chans ∧
        t.scaleNow = folded ∧ t.live = s.live ∧ t.pool = s.pool ∧ t.q = s.q) ∧
      (ls.length ≤ chRoom s k.e.chOut → k1.row = tileM s → 0 < ls.length → ∃ t, Answers (.drainRowPush a) s t ∧
        (getArr t a).corner = rest ∧ (getArr t a).lastRow = some s.clock.clk ∧
        t.chans = (chPush k.e.chOut (ls.mapIdx fun i l =>
          (l.1, decide (i + 1 = ls.length), decide (i + 1 = ls.length) && k1.nf)) s).chans ∧
        t.scaleNow = folded ∧ t.live = (complete k.e.id s).live ∧ t.pool = s.pool ∧ t.q = s.q) ∧
      (chRoom s k.e.chOut < ls.length → k1.row < tileM s → Answers (.drainRowPush a) s s))

/-! ## Vector engine (07_vector) -/

/-- R250, R236, R252: a VEC instruction at the head of the queue that may start, whose chain has issued its closing member,
leaves the queue and waits in its chain: with LSRC 0 over the LEN of its descriptor, with LSRC 1 over the count at the head
of CNT_CH; nothing else but counters changes. One whose start checks fail, or whose count exceeds LEN, faults with DESC_BOUND; one
whose chain is not whole, or whose count cannot be popped, waits. -/
def Obligations.VectorInstructionsStart : Prop :=
  ∀ (s : State) (c : Instr) (op : Nat) (e : Entry) (es : List Entry),
    (c, op) ∈ [(Instr.vecAdd, 0x01), (.vecSub, 0x02), (.vecMul, 0x03), (.fma, 0x04), (.fms, 0x05), (.fnma, 0x06), (.mul3, 0x07),
      (.abs, 0x08), (.neg, 0x09), (.vecMin, 0x0A), (.vecMax, 0x0B), (.clamp, 0x0C), (.sqd, 0x0D), (.cmp, 0x0E), (.sel, 0x0F),
      (.vecAnd, 0x10), (.vecOr, 0x11), (.vecXor, 0x12), (.mand, 0x13), (.mor, 0x14), (.mnot, 0x15), (.cvt, 0x18),
      (.perm, 0x19), (.shuf, 0x1A), (.zip, 0x1B), (.even, 0x1C), (.odd, 0x1D), (.pack, 0x1E), (.unpack, 0x1F), (.ocw, 0x20),
      (.cmprs, 0x28), (.expand, 0x29), (.cnt, 0x2A), (.rng, 0x2B), (.exp2, 0x30), (.log2, 0x31), (.rcp, 0x32),
      (.rsqrt, 0x33), (.sqrt, 0x34), (.tanh, 0x35), (.sigm, 0x36), (.erf, 0x37), (.utab, 0x38)] →
    Startable s 2 e es → e.op = op →
    (chainIssued s = false → Answers c s s) ∧
    (chainIssued s = true →
    (wbit e.d.w1 31 = false → vecStartOk (left 2 es s) e (e.d.fld 1 24 0) = true →
      Answers c s { left 2 es s with vec := { s.vec with started := s.vec.started ++
        [⟨e, e.d.fld 1 24 0, .init, .init, .init, .init, 0, s.clock.ek⟩] } }) ∧
    (wbit e.d.w1 31 = false → vecStartOk (left 2 es s) e (e.d.fld 1 24 0) = false →
      Answers c s (descBound 2 e (left 2 es s))) ∧
    (∀ ls u, wbit e.d.w1 31 = true → chTake (e.d.fld 1 30 25) 3 1 s = some (ls, u) →
      let n := (ls.map (·.data)).headD 0 % 2 ^ 32
      (n ≤ e.d.fld 1 24 0 → vecStartOk (left 2 es u) e n = true →
        Answers c s { left 2 es u with vec := { s.vec with started := s.vec.started ++
          [⟨e, n, .init, .init, .init, .init, 0, s.clock.ek⟩] } }) ∧
      (e.d.fld 1 24 0 < n ∨ vecStartOk (left 2 es u) e n = false → Answers c s (descBound 2 e (left 2 es u)))) ∧
    (wbit e.d.w1 31 = true → chTake (e.d.fld 1 30 25) 3 1 s = none → Answers c s s))

/-- R250, R218, R228, R227, R235, R240, R221: one step of a chain of one member takes V elements of its streams, or what is left,
and hands their results to the member's output, due after the opcode's latency, with the values that are to be folded; the
chain leaves the flow with its last element. An index of PERM out of range faults with PERM_RANGE, an uncorrectable cache word
with OCACHE_ECC. The results of the value opcodes are the exact result of each element, scaled and converted once; those of the
bit opcodes and of the mask opcodes are the bits; a masked element gives +0, or X where MPOL says so. -/
def Obligations.VectorStepComputesItsElements : Prop :=
  (∀ (s u : State) (f : Flow) (m q : Member), s.vec.flow = some f → f.members = [m] → engOk s 2 = true →
    f.step ≤ s.clock.ek → s.ocUpset = [] → m.e.chOut < 56 ∨ m.e.op = 0x20 →
    let hi := min f.len (f.elem + max 1 (stepElems s [m.e]))
    let r := memberResult u f.oc f.elem hi q
    let cost := if m.e.op = 0x1B then 2 else 1
    readyMember f.elem hi (prefetch hi m s).1 { (prefetch hi m s).2 with err := s.err } = some (q, u) →
    (∀ o ∈ s.vec.outs, o.e.id = m.e.id → o.e = m.e) →
    (r.fault = none → ∃ t, Answers .vecStep s t ∧
      t.vec.outs = (s.vec.outs.map fun o => if o.e.id = m.e.id then
        { o with steps := o.steps ++ [⟨s.clock.ek + vecLatency m.e.op, r.codes,
                   (match m.e.foldSlot with
                     | some n => r.folds.map fun x => (x.1 + 1, n, x.2)
                     | none => []),
                   r.cache, if f.len ≤ hi ∧ m.e.op ∈ [0x28, 0x2A] then some r.run else none, decide (f.len ≤ hi)⟩],
                 ended := decide (f.len ≤ hi) } else o) ∧
      (f.len ≤ hi → t.vec.flow = none) ∧
      (hi < f.len → ∃ g, t.vec.flow = some g ∧ g.elem = hi ∧ g.step = s.clock.ek + cost ∧ g.len = f.len) ∧
      t.vec.lastFlow = s.clock.ek + cost - 1 ∧
      t.chans = u.chans ∧ t.pool = u.pool ∧ t.q = u.q ∧ t.sregs = u.sregs ∧ t.scales = u.scales) ∧
    (∀ x, r.fault = some x → Answers .vecStep s (raise 0x0D (FaultCtx.ofEntry 2 m.e x.1 (toCode 32 x.2)) u))) ∧
  (∀ (s v : State) (f : Flow) (e : Entry) (w : Nat), s.vec.flow = some f → engOk s 2 = true → f.step ≤ s.clock.ek →
    cacheCheck f f.elem (min f.len (f.elem + max 1 (stepElems s (f.members.map (·.e))))) s = (v, some (e, w)) →
    Answers .vecStep s (raise 0x41 (FaultCtx.ofEntry 2 e (w / 8) 0)
      { v with err := { v.err with ocUe := satCount 8 (v.err.ocUe + 1) } })) ∧
  (∀ (u : State) (oc : List Host.Cell) (lo hi : Nat) (m : Member) (g : FVal → FVal → FVal → FVal),
    (m.e.op, g) ∈ [(1, fun x y _ => x.add y), (2, fun x y _ => x.sub y), (3, fun x y _ => x.mul y),
      (4, fun x y z => (x.mul y).add z), (5, fun x y z => (x.mul y).sub z), (6, fun x y z => z.sub (x.mul y)),
      (7, fun x y z => (x.mul y).mul z), (8, fun x _ _ => x.abs), (9, fun x _ _ => x.neg), (10, fun x y _ => fminv x y),
      (11, fun x y _ => fmaxv x y),
      (12, fun x y z => if x.isNan || y.isNan || z.isNan then .nan else fminv (fmaxv x y) z),
      (13, fun x y _ => (x.sub y).mul (x.sub y)), (0x18, fun x _ _ => x), (0x20, fun x _ _ => x)] →
    m.e.vMask = false →
    let v := fun o i => if m.e.vUses o then elemVal (m.e.vFmt o) (operandAt oc m o i) else FVal.zero false
    (memberResult u oc lo hi m).codes = convElems u m.e lo ((List.range (hi - lo)).map fun i =>
      if m.e.b1 = true ∧ (m.m.at (i + lo)).1 ≠ 1
      then (if m.e.passX then scaleR86 (m.e.e2 - m.e.e0) (v 0 (i + lo)) else FVal.zero false)
      else scaleR86 (m.e.e2 - m.e.e0) (g (v 0 (i + lo)) (v 1 (i + lo)) (v 2 (i + lo))))) ∧
  (∀ (u : State) (oc : List Host.Cell) (lo hi : Nat) (m : Member) (g : Nat → Nat → Nat),
    (m.e.op, g) ∈ [(0x10, fun x y => x &&& y), (0x11, fun x y => x ||| y), (0x12, fun x y => x ^^^ y),
      (0x1E, fun x y => x + (y <<< fmtBits (m.e.vFmt 0)))] → m.e.vMask = false →
    (memberResult u oc lo hi m).codes =
      (List.range (hi - lo)).map fun i =>
        if m.e.b1 = true ∧ (m.m.at (i + lo)).1 ≠ 1 then (if m.e.passX then ((operandAt oc m 0 (i + lo)).1, 0) else (0, 0))
        else (g (operandAt oc m 0 (i + lo)).1 (operandAt oc m 1 (i + lo)).1, 0)) ∧
  (∀ (u : State) (oc : List Host.Cell) (lo hi : Nat) (m : Member) (g : Nat → Nat → Nat),
    (m.e.op, g) ∈ [(0x13, fun x y => x &&& y), (0x14, fun x y => x ||| y), (0x15, fun x _ => 1 - x)] → m.e.vMask = true →
    (memberResult u oc lo hi m).codes = (List.range (hi - lo)).map fun i => (g (m.x.at (i + lo)).1 (m.y.at (i + lo)).1, 0))

/-- R250, R222, R236, R252: a chain whose members have all started in earlier clks enters the flow, with its outputs, when no chain
flows and no earlier cache write overlaps what it reads; a chain of length 0 hands its counts of 0 to its outputs at once, and
one whose members differ in length faults with CHAIN_LEN.

R222, R84, R330, R237, R239: the output of a chain pushes the lines that its channel has room for and folds the values that
they carry; an OCW writes the cache when its step falls due; a count is pushed in the clk after the last line, where its channel
has room; a chain whose outputs have all finished completes its members and is gone. Here: one output in flight, with its lines,
one cache step, or its count left. -/
def Obligations.VectorChainsRunToTheirChannel : Prop :=
  (∀ (s : State) (ms : List Member) (rest : List Member), startedChain s.vec.started = some (ms, rest) →
      engOk s 2 = true → s.vec.flow = none → (∀ m ∈ ms, m.clk < s.clock.ek) → (s.vec.lastFlow < s.clock.ek ∨ s.vec.lastFlow = 0) →
      cacheBusy s ms = false →
      (∀ len, 0 < len → (∀ m ∈ ms, m.len = len) → Answers .chainFlowStart s (touch { s with vec := { s.vec with
          started := rest
          outs := s.vec.outs ++ chainOuts ms
          flow := some ⟨ms, 0, len, s.clock.ek, 0, s.ocache⟩ } })) ∧
      ((∀ m ∈ ms, m.len = 0) → Answers .chainFlowStart s (touch { s with vec := { s.vec with
          started := rest, outs := s.vec.outs ++ emptyChain (chainOuts ms) s.clock.ek } })) ∧
      (∀ x ∈ ms, ∀ y ∈ ms, x.len ≠ y.len → ∃ e, (∃ m ∈ ms, m.e = e ∧ m.e.b0 = false) ∧
        Answers .chainFlowStart s (raiseInst 0x0C 2 e { s with vec := { s.vec with started := rest } }))) ∧
  ((∀ (s : State) (o : OutStream), s.vec.outs = [o] → engOk s 2 = true → o.steps = [] → o.push = true → o.cnt = none →
      o.ended = true →
      let n := min (chRoom s o.e.chOut) o.out.lineq.length
      ∃ t, Answers .vecResultPush s t ∧
        t.chans = (chPush o.e.chOut ((o.out.lineq.take n).map fun l => (l.1, false, false)) s).chans ∧
        t.scaleNow = (foldAll ((o.held.filter fun h => decide (h.1 ≤ (o.out.leave n).sent)).map (·.2)) s).scaleNow ∧
        (n = o.out.lineq.length → t.vec.outs = [] ∧ t.live = (completeAll o.chain s).live) ∧
        (n < o.out.lineq.length → (t.vec.outs.map fun p => p.out.lineq) = [o.out.lineq.drop n] ∧ t.live = s.live) ∧
        t.pool = s.pool ∧ t.q = s.q ∧ t.sregs = s.sregs ∧ t.scales = s.scales ∧ t.ocache = s.ocache) ∧
    (∀ (s : State) (o : OutStream) (st : StepOut), s.vec.outs = [o] → engOk s 2 = true → o.push = false → o.steps = [st] →
      st.due ≤ s.clock.ek → o.out.lineq = [] → o.cnt = none → st.cnt = none → o.ended = true →
      ∃ t, Answers .vecResultPush s t ∧ t.ocache = st.cache.foldl cacheWrite s.ocache ∧ t.vec.outs = [] ∧
        t.live = (completeAll o.chain s).live ∧ t.scaleNow = (foldAll ((o.held ++ st.folds).map (·.2)) s).scaleNow ∧
        t.chans = s.chans ∧ t.pool = s.pool ∧ t.q = s.q) ∧
    (∀ (s : State) (o : OutStream) (n : Nat), s.vec.outs = [o] → engOk s 2 = true → o.steps = [] → o.out.lineq = [] →
      o.cnt = some n → o.ended = true → o.lastPush < s.clock.ek →
      let c := if o.e.op = 0x28 then o.e.d.fld 2 9 4 else o.e.chOut
      1 ≤ chRoom s c →
      ∃ t, Answers .vecResultPush s t ∧ t.chans = (chPush c [(n, false, false)] s).chans ∧ t.vec.outs = [] ∧
        t.live = (completeAll o.chain s).live ∧ t.pool = s.pool ∧ t.q = s.q))

/-! ## Reduction and scan unit (08_reduction_scan) -/

/-- R272, R274: an RSU instruction at the head of the queue that may start leaves the queue and waits for its flow: with
LSRC 0 over LEN, with LSRC 1 over the count popped; one whose start checks fail, or whose count exceeds LEN, faults with
DESC_BOUND, and one whose count cannot be popped waits. -/
def Obligations.RsuInstructionsStart : Prop :=
  ∀ (s : State) (c : Instr) (op : Nat) (e : Entry) (es : List Entry),
    (c, op) ∈ [(Instr.rsum, 0x01), (.rsumsq, 0x02), (.rmax, 0x03), (.rmin, 0x04), (.ramax, 0x05), (.ramin, 0x06), (.topk, 0x08),
      (.botk, 0x09), (.rstatMv, 0x10), (.rstatMs, 0x11), (.rstatLse, 0x12), (.scadd, 0x18), (.scmax, 0x19), (.scmin, 0x1A),
      (.scmul, 0x1B), (.lrec, 0x1C), (.crset, 0x28), (.crld, 0x29), (.crst, 0x2A), (.crcomb, 0x2B), (.csend, 0x2C)] →
    Startable s 3 e es → e.op = op →
    (wbit e.d.w1 31 = false → rsuStartOk (left 3 es s) e (e.d.fld 1 24 0) = true →
      Answers c s { left 3 es s with rsu := { s.rsu with started := s.rsu.started ++ [(e, e.d.fld 1 24 0, s.clock.ek)] } }) ∧
    (wbit e.d.w1 31 = false → rsuStartOk (left 3 es s) e (e.d.fld 1 24 0) = false →
      Answers c s (descBound 3 e (left 3 es s))) ∧
    (∀ ls u, wbit e.d.w1 31 = true → chTake (e.d.fld 1 30 25) 4 1 s = some (ls, u) →
      let n := (ls.map (·.data)).headD 0 % 2 ^ 32
      (n ≤ e.d.fld 1 24 0 → rsuStartOk (left 3 es u) e n = true →
        Answers c s { left 3 es u with rsu := { s.rsu with started := s.rsu.started ++ [(e, n, s.clock.ek)] } }) ∧
      (e.d.fld 1 24 0 < n ∨ rsuStartOk (left 3 es u) e n = false → Answers c s (descBound 3 e (left 3 es u)))) ∧
    (wbit e.d.w1 31 = true → chTake (e.d.fld 1 30 25) 4 1 s = none → Answers c s s)

/-- R272, R256, R259, R267, R268: the oldest started RSU instruction enters the flow when none flows and nothing that it reads is
still to be written, and its first clk is taken. An instruction of length 0 completes. CRSET of up to four registers is due with
the empty pair in each of them. A row reduction whose one row is taken in the clk is due with the value of the row in the fixed
tree order, its carry-in before it.

R265, R267, R268, R272, R330: a due result of an instruction in the push stage writes its carry registers; the lines of a stream
leave as its channel has room; the oldest record of the statistics buffer is written to the pool whole. An instruction with
nothing left completes and is gone. -/
def Obligations.RsuFlowsMakeAndLandTheirResults : Prop :=
  (∀ (s : State) (e : Entry) (len c : Nat) (rest : List (Entry × Nat × Nat)), s.rsu.started = (e, len, c) :: rest →
      engOk s 3 = true → s.rsu.run = none → c < s.clock.ek → (s.rsu.lastFlow < s.clock.ek ∨ s.rsu.lastFlow = 0) →
      s.rsu.push = [] → s.rsu.stats = [] → (∀ n ∈ rsuReads e len, n ∉ rsuPending s) →
      (len = 0 → Answers .rsuFlowStart s (complete e.id (touch { s with rsu := { s.rsu with started := rest } }))) ∧
      (e.op = 0x28 → 0 < len → len ≤ 4 →
        ∃ t, Answers .rsuFlowStart s t ∧ t.rsu.started = rest ∧ t.rsu.run = none ∧
          (t.rsu.push.map fun p => p.outs.map fun o => (o.due, o.crs)) =
            [[(s.clock.ek + rsuLatency 0x28,
              (List.range len).map fun i => (e.crOut + i, crMake (emptyPair e.rCop)))]] ∧
          t.crs = s.crs ∧ t.chans = s.chans ∧ t.pool = s.pool) ∧
      (∀ (fn : Nat) (r1 : RsuRun) (els : List (Word × Word × Bool)) (u : State),
        (e.op, fn) ∈ [(1, 0), (2, 0), (3, 1), (4, 2)] → e.rAxis = false → 0 < len → len ≤ e.rRow → len ≤ rsuRate s e.op →
        let carry := crPair (crGet s e.crIn)
        let r0 : RsuRun := ⟨e, len, 0, s.clock.ek, .init, .init, .init, [], 0, if e.rCin then carry else (oneW, 0), e.rCin, [], []⟩
        let s0 := touch { s with rsu := { s.rsu with
          started := rest, push := [mkPush e len], run := some { r0 with c := (oneW, 0), have_ := false } } }
        rsuPull r0 len s0 = some (els, r1, u) →
        ∃ t, Answers .rsuFlowStart s t ∧ t.rsu.run = none ∧
          (t.rsu.push.map fun p => p.outs.map fun o => (o.due, o.main)) = [[(s.clock.ek + rsuLatency e.op,
            [(rowReduce (combW fn) (leaves els (if e.op = 2 then sqLeaf else id)) (if e.rCin then some carry.2 else none)).getD
              (emptyW fn)])]] ∧
          t.chans = u.chans ∧ t.pool = u.pool)) ∧
  ((∀ (s : State) (p : RsuPush) (o : RsuOut), s.rsu.push = [p] → p.outs = [o] → engOk s 3 = true → o.due ≤ s.clock.ek →
      p.e.op ∈ [0x28, 0x29, 0x2B] → p.e.rCout ≠ 2 → p.e.foldSlot = none → p.ended = true → s.rsu.stats = [] → o.stat = [] →
      o.send = false → p.main.lineq = [] → p.aux.lineq = [] → p.recs.lineq = [] → p.main.bits.len = 0 → p.main.scales.len = 0 →
      p.aux.bits.len = 0 → p.aux.scales.len = 0 → p.recs.bits.len = 0 → p.recs.scales.len = 0 →
      ∃ t, Answers .rsuResultPush s t ∧ t.crs = o.crs.foldl (fun m x => mset crDefault m x.1 x.2) s.crs ∧ t.rsu.push = [] ∧
        t.live = (complete p.e.id s).live ∧ t.pool = s.pool ∧ t.chans = s.chans ∧ t.sregs = s.sregs ∧ t.flags = s.flags ∧
        t.descs = s.descs ∧ t.scales = s.scales) ∧
    (∀ (s : State) (p : RsuPush), s.rsu.push = [p] → p.outs = [] → engOk s 3 = true → p.ended = true → s.rsu.stats = [] →
      p.e.op ≠ 0x2C ∨ p.handed = true → p.aux.lineq = [] → p.recs.lineq = [] →
      let n := min (chRoom s p.e.chOut) p.main.lineq.length
      ∃ t, Answers .rsuResultPush s t ∧
        t.chans = (chPush p.e.chOut ((p.main.lineq.take n).map fun l => (l.1, false, false)) s).chans ∧
        (n = p.main.lineq.length → t.rsu.push = [] ∧ t.live = (complete p.e.id s).live) ∧
        (n < p.main.lineq.length → (t.rsu.push.map fun q => q.main.lineq) = [p.main.lineq.drop n] ∧ t.live = s.live) ∧
        (p.e.foldSlot = none → t.scaleNow = s.scaleNow) ∧
        t.crs = s.crs ∧ t.pool = s.pool ∧ t.sregs = s.sregs ∧ t.flags = s.flags ∧ t.descs = s.descs ∧ t.scales = s.scales) ∧
    (∀ (s : State) (id a : Nat) (bs : List Byte) (rest : List (Nat × Nat × List Byte)), s.rsu.stats = (id, a, bs) :: rest →
      engOk s 3 = true → s.canonical = true → Writable s a bs.length →
      ∃ t, Answers .statRecordWrite s t ∧ t.rsu.stats = rest ∧ Stored s a bs.length bs false t ∧
        StoresKept { s with pool := t.pool } t))

/-! ## Scalar engine (03_program) -/

/-- R100, R122, R123: an SCL instruction of a REG or IMM form that may start, whose registers hold their results, leaves the
queue, and its result is on its way to SD, due after its latency: integer sums, differences and products saturate to 32
signed bits, shifts take five bits of their count, a division by zero gives all ones and its remainder the dividend. -/
def Obligations.ScalarFormsComputeTheirResult : Prop :=
  ∀ (s : State) (c : Instr) (op lat : Nat) (f : Word → Word → Int → Word) (e : Entry) (es : List Entry),
    let sat : Int → Word := fun x => BitVec.ofInt 32 (max (-2147483648) (min 2147483647 x))
    let bit : Bool → Word := fun b => if b then 1 else 0
    let zx : Int → Word := fun i => BitVec.ofInt 32 (i % 16384)
    (c, op, lat, f) ∈ [(Instr.sclAdd, 0x01, 1, fun a b _ => sat (a.toInt + b.toInt)),
      (.sclSub, 0x02, 1, fun a b _ => sat (a.toInt - b.toInt)), (.sclMul, 0x03, 3, fun a b _ => sat (a.toInt * b.toInt)),
      (.sclAnd, 0x04, 1, fun a b _ => a &&& b), (.sclOr, 0x05, 1, fun a b _ => a ||| b),
      (.sclXor, 0x06, 1, fun a b _ => a ^^^ b), (.shl, 0x07, 1, fun a b _ => a <<< (b.toNat % 32)),
      (.shr, 0x08, 1, fun a b _ => a >>> (b.toNat % 32)), (.sra, 0x09, 1, fun a b _ => a.sshiftRight (b.toNat % 32)),
      (.sclMin, 0x0A, 1, fun a b _ => if a.toInt ≤ b.toInt then a else b),
      (.sclMax, 0x0B, 1, fun a b _ => if a.toInt ≤ b.toInt then b else a),
      (.minu, 0x0C, 1, fun a b _ => if a.toNat ≤ b.toNat then a else b),
      (.maxu, 0x0D, 1, fun a b _ => if a.toNat ≤ b.toNat then b else a),
      (.slt, 0x0E, 1, fun a b _ => bit (decide (a.toInt < b.toInt))), (.sltu, 0x0F, 1, fun a b _ => bit (decide (a.toNat < b.toNat))),
      (.addi, 0x10, 1, fun a _ i => sat (a.toInt + i)), (.andi, 0x11, 1, fun a _ i => a &&& zx i),
      (.ori, 0x12, 1, fun a _ i => a ||| zx i), (.xori, 0x13, 1, fun a _ i => a ^^^ zx i),
      (.shli, 0x14, 1, fun a _ i => a <<< (i % 32).toNat), (.shri, 0x15, 1, fun a _ i => a >>> (i % 32).toNat),
      (.srai, 0x16, 1, fun a _ i => a.sshiftRight (i % 32).toNat),
      (.divu, 0x1A, 34, fun a b _ => if b = 0 then 0xFFFFFFFF else a / b), (.remu, 0x1B, 34, fun a b _ => if b = 0 then a else a % b)] →
    let sa := wfld e.w 19 14
    let sb := wfld e.w 13 8
    let imm : Int := (wfld e.w 13 0 : Int) - (if wbit e.w 13 then 16384 else 0)
    Startable s 6 e es → e.op = op → sregBusy s sa = false →
    (op < 0x10 ∨ 0x1A ≤ op → sregBusy s sb = false) →
    (op = 0x1A ∨ op = 0x1B → divBusy s = false) →
    Answers c s { left 6 es s with scl := { s.scl with fly := s.scl.fly ++
      [⟨e, s.clock.ek + lat, .reg (wfld e.w 25 20) (f (sreg s sa) (sreg s sb) imm)⟩] } }

/-- R122, R124, R125, R126, R83, R85, R87: the other SCL instructions, with no SCL result in flight: CMOV moves where SA is not
0; LI and LUI make their constant; DRD and DWR read and write one descriptor word; CPOP and CPUSH pop and push one count;
TCFG, TCOMMIT and TRD configure, commit and read a scale slot; JREAD reads the job's identity. -/
def Obligations.ScalarMovesReachEveryStore : Prop :=
  ∀ (s : State) (e : Entry) (es : List Entry), Startable s 6 e es → s.scl.fly = [] →
    let sd := wfld e.w 25 20
    let go : State → Nat → SclRes → State := fun u lat r => { u with scl := { u.scl with fly := [⟨e, s.clock.ek + lat, r⟩] } }
    let u := left 6 es s
    (e.op = 0x17 → Answers .cmov s (go u 1
      (if sreg s (wfld e.w 19 14) = 0 then .none else .reg sd (sreg s (wfld e.w 13 8))))) ∧
    (e.op = 0x18 → Answers .li s (go u 1 (.reg sd
      (BitVec.ofInt 32 ((wfld e.w 19 0 : Int) - (if wbit e.w 19 then 1048576 else 0)))))) ∧
    (e.op = 0x19 → Answers .lui s (go u 1 (.reg sd (word (wfld e.w 19 0 * 4096))))) ∧
    (e.op = 0x20 → mget 0 s.descUpset (wfld e.w 19 17 * 64 + wfld e.w 7 2) = 0 → Answers .drd s (go u 2 (.reg sd ((descGet s (wfld e.w 19 17) (wfld e.w 7 2)).get (wfld e.w 16 14))))) ∧
    (e.op = 0x21 → Answers .dwr s (go u 2 (.desc (wfld e.w 19 17) (wfld e.w 7 2) (wfld e.w 16 14) (sreg s sd)))) ∧
    (∀ l v, e.op = 0x28 → chTake (wfld e.w 13 8) 13 1 s = some ([l], v) →
      Answers .cpop s (go (left 6 es v) 2 (.reg sd (word l.data)))) ∧
    (e.op = 0x29 → 1 ≤ chRoom s (wfld e.w 13 8) →
      ∃ t, Answers .cpush s t ∧ t.scl.fly = [⟨e, s.clock.ek + 1, .none⟩] ∧
        t.chans = (chPush (wfld e.w 13 8) [((sreg s sd).toNat, false, false)] s).chans ∧ t.q = u.q ∧ t.sregs = s.sregs ∧
        t.pool = s.pool ∧ t.flags = s.flags ∧ t.descs = s.descs ∧ t.scales = s.scales ∧ t.scaleNow = s.scaleNow ∧
        t.crs = s.crs ∧ t.ocache = s.ocache) ∧
    (e.op = 0x30 → tcfgOk (wfld e.w 13 12) (sreg s sd) = true →
      Answers .tcfg s (go u 2 (.scaleCfg (wfld e.w 19 14) (wfld e.w 13 12) (sreg s sd)))) ∧
    (e.op = 0x30 → tcfgOk (wfld e.w 13 12) (sreg s sd) = false →
      Answers .tcfg s (raise 0x09 (FaultCtx.ofEntry 6 e (wfld e.w 19 14) (sreg s sd).toNat) u)) ∧
    (e.op = 0x31 → Answers .tcommit s (go u 4 (.scaleCommit (wfld e.w 19 14)))) ∧
    (e.op = 0x32 → Answers .trd s (go u 2 (.reg sd ((scaleGet s (wfld e.w 19 14)).word (wfld e.w 13 9))))) ∧
    (e.op = 0x38 → Answers .jread s (go u 1 (.reg sd
      (if wfld e.w 13 0 = 0 then word s.job.id.toNat else word s.job.nranks))))

/-- R122, R118, R119, R126, R87, R330: the result in flight whose latency has passed lands and its instruction completes:
registers S1 to S59 take the value, S0 stays 0, a descriptor takes its one word and is free of wrong bits, a configuration or a
commit joins what reaches its scale slot in this clk, after the replacements and folds of that clk; where nothing else reaches the
slot, CFG sets its fields by SEL and a commit its exponent. Every other store is as before. A result that is not yet due stays in
flight. -/
def Obligations.ScalarResultsLand : Prop :=
  ∀ (s : State) (f : SclFly), s.scl.fly = [f] → engOk s 6 = true → s.canonical = true →
    (s.clock.ek < f.due → Answers .sclComplete s s) ∧
    (f.due ≤ s.clock.ek → (∀ cls n wd v, f.res = .desc cls n wd v → mget 0 s.descUpset (cls * 64 + n) = 0) →
    ∃ t, Answers .sclComplete s t ∧ t.scl.fly = [] ∧ t.live = (complete f.e.id s).live ∧
      (∀ n v, f.res = .reg n v → (1 ≤ n → n ≤ 59 → sreg t n = v) ∧ (∀ k, k ≠ n → sreg t k = sreg s k) ∧ sreg t 0 = 0) ∧
      (∀ cls n wd v, f.res = .desc cls n wd v → descGet t cls n = (descGet s cls n).set wd v ∧
        mget 0 t.descUpset (cls * 64 + n) = 0 ∧
        (∀ cls' n', cls' * 64 + n' ≠ cls * 64 + n → descGet t cls' n' = descGet s cls' n')) ∧
      (∀ sl sel v, f.res = .scaleCfg sl sel v → t.scaleNow = s.scaleNow ++ [(sl, .cfg sel v)] ∧
        (∀ k, k ≠ sl → scaleGet t k = scaleGet s k) ∧
        (scaleEvs s sl = [] →
          (sel = 0 → scaleGet t sl = { scaleGet s sl with
            margin := wfld v 16 13, fmt := wfld v 12 9, policy := wbit v 8, hcount := 0, hptr := 0 }) ∧
          (sel = 1 → scaleGet t sl = { scaleGet s sl with scaleExp := sext 8 (wfld v 7 0) }) ∧
          (sel = 2 → scaleGet t sl = { scaleGet s sl with curAmax := v }))) ∧
      (∀ sl, f.res = .scaleCommit sl → t.scaleNow = s.scaleNow ++ [(sl, .commit)] ∧
        (∀ k, k ≠ sl → scaleGet t k = scaleGet s k) ∧ (scaleEvs s sl = [] → scaleGet t sl = (scaleGet s sl).commit)) ∧
      ((∀ n v, f.res ≠ .reg n v) → t.sregs = s.sregs) ∧ ((∀ a b c d, f.res ≠ .desc a b c d) → t.descs = s.descs) ∧
      ((∀ a b c, f.res ≠ .scaleCfg a b c) → (∀ a, f.res ≠ .scaleCommit a) → t.scaleNow = s.scaleNow) ∧
      t.scales = s.scales ∧ t.pool = s.pool ∧ t.flags = s.flags ∧ t.crs = s.crs ∧ t.chans = s.chans ∧ t.ocache = s.ocache ∧
      t.q = s.q)

/-! ## Flags and the SYN engine (10_flags_and_beat) -/

/-- R327, R323, R331: FSET stores its operand in its flag; FADD adds it, and faults with FLAG_RANGE where the result leaves 0
to 65535; FENCE completes; each in its start clk, once what its AFTER covers has completed. An RFADD leaves the queue and
forms one FADD packet for its remote core, handed over in the next clk. -/
def Obligations.FlagInstructionsActAtTheirStart : Prop :=
  ∀ (s : State) (e : Entry) (es : List Entry), Startable s 5 e es → s.syn.cur = none → afterOk s e = true →
    (∀ c, s.syn.lastDone = some c → c < s.clock.clk) → s.canonical = true →
    let f := wfld e.w 25 14
    let v := if wbit e.d.w1 19 then e.d.fld 1 15 0 else e.s0.toNat % 65536
    let r : Int := (flagGet s f).toNat + ((v : Int) - (if v < 32768 then 0 else 65536))
    mget 0 s.flagUpset (f / 4) = 0 →
    (e.op = 1 → ∃ t, Answers .fset s t ∧ (flagGet t f).toNat = v ∧ (∀ g, g ≠ f → flagGet t g = flagGet s g) ∧
      t.live = (complete e.id s).live ∧ t.syn.cur = none ∧ t.syn.lastDone = some s.clock.clk ∧ t.q = (left 5 es s).q ∧
      t.err = s.err ∧ t.sregs = s.sregs ∧ t.pool = s.pool ∧ t.chans = s.chans) ∧
    (e.op = 2 → ∃ t, Answers .fadd s t ∧ t.live = (complete e.id s).live ∧ t.syn.lastDone = some s.clock.clk ∧
      (0 ≤ r → r ≤ 65535 → ((flagGet t f).toNat : Int) = r ∧ t.err = s.err) ∧
      (r < 0 ∨ 65535 < r → flagGet t f = flagGet s f ∧
        t.err = (raise 0x83 (FaultCtx.ofEntry 5 e ((f <<< 16) + (flagGet s f).toNat) (ownIds s)) (left 5 es s)).err) ∧
      (∀ g, g ≠ f → flagGet t g = flagGet s g) ∧ t.sregs = s.sregs ∧ t.pool = s.pool ∧ t.chans = s.chans) ∧
    (e.op = 6 → ∃ t, Answers .fence s t ∧ t.live = (complete e.id s).live ∧ t.syn.cur = none ∧ t.flags = s.flags ∧
      t.err = s.err ∧ t.sregs = s.sregs ∧ t.pool = s.pool ∧ t.chans = s.chans) ∧
    (∀ re, e.op = 0x18 → activeRoute s (e.d.fld 3 31 20) = some re → ∃ t k, Answers .rfadd s t ∧ t.syn.cur = some e ∧
      t.fab.txq = s.fab.txq ++ [k] ∧ k.due = s.clock.ek + 1 ∧ k.payload = [] ∧ wfld k.hdr.w0 31 27 = 8 ∧
      wfld k.hdr.w4 15 0 = v ∧ k.hdr.w2.toNat * 2 ^ 32 + k.hdr.w1.toNat =
        fabAddr (e.d.fld 3 31 20) 2 (e.d.fld 3 19 8 * 2 ^ 24 + f) ∧ t.flags = s.flags ∧ t.sregs = s.sregs ∧ t.pool = s.pool)

/-- R327, R324, R336: a wait that may start becomes the engine's pending instruction with its count at 0, and a timed wait
with TLIM 0 faults with DESC_BOUND. It passes in a clk in which the flag's value at the start of the clk is at least, or for
the EQ forms equal to, its operand; a take then subtracts the operand.

R336: a timed wait whose count has reached TLIM without passing faults with FLAG_TIMEOUT, or with TOEN expires; in an
unskipped clk after its expiry its TOFLAG takes +1 and it completes. -/
def Obligations.FlagAndTimedWaitsEnd : Prop :=
  ((∀ (s : State) (c : Instr) (op : Nat) (e : Entry) (es : List Entry),
      (c, op) ∈ [(Instr.fwge, 3), (.fweq, 4), (.ftake, 5), (.twge, 0x10), (.tweq, 0x11), (.ttake, 0x12)] →
      Startable s 5 e es → e.op = op → s.syn.cur = none → afterOk s e = true →
      (∀ c, s.syn.lastDone = some c → c < s.clock.clk) →
      (op < 0x10 ∨ e.d.fld 2 16 0 ≠ 0 → mget 0 s.flagUpset (wfld e.w 25 14 / 4) = 0 → Answers c s { left 5 es s with syn :=
        { s.syn with cur := some e, count := 0, startClk := s.clock.clk, expired := false } }) ∧
      (0x10 ≤ op → e.d.fld 2 16 0 = 0 → Answers c s (descBound 5 e (left 5 es s)))) ∧
    (∀ (s : State) (e : Entry), s.syn.cur = some e → e.op ∈ [3, 4, 5, 0x10, 0x11, 0x12] → engOk s 5 = true →
      s.syn.expired = false → (e.op < 0x10 ∨ s.syn.count ≤ e.d.fld 2 16 0) → s.canonical = true →
      let f := wfld e.w 25 14
      let v := if wbit e.d.w1 19 then e.d.fld 1 15 0 else e.s0.toNat % 65536
      mget 0 s.flagUpset (f / 4) = 0 → flagStart s f = flagGet s f →
      (if e.op = 4 ∨ e.op = 0x11 then (flagGet s f).toNat = v else v ≤ (flagGet s f).toNat) →
      ∃ t, Answers .flagWaitPass s t ∧ t.syn.cur = none ∧ t.live = (complete e.id s).live ∧
        (flagGet t f).toNat = (flagGet s f).toNat - (if e.op = 5 ∨ e.op = 0x12 then v else 0) ∧
        (∀ g, g ≠ f → flagGet t g = flagGet s g) ∧ t.err = s.err ∧ t.sregs = s.sregs ∧ t.pool = s.pool ∧ t.q = s.q) ∧
    (∀ (s : State) (e : Entry), s.syn.cur = some e →
      (if e.op = 4 ∨ e.op = 0x11 then (flagStart s (wfld e.w 25 14)).toNat ≠
          (if wbit e.d.w1 19 then e.d.fld 1 15 0 else e.s0.toNat % 65536)
        else (flagStart s (wfld e.w 25 14)).toNat < (if wbit e.d.w1 19 then e.d.fld 1 15 0 else e.s0.toNat % 65536)) →
      Answers .flagWaitPass s s)) ∧
  ((∀ (s : State) (e : Entry), s.syn.cur = some e → e.op ∈ [0x10, 0x11, 0x12] → engOk s 5 = true → s.syn.expired = false →
      (s.syn.count = e.d.fld 2 16 0 ∧ synTest s e = false ∨ e.d.fld 2 16 0 < s.syn.count) →
      (wbit e.d.w2 29 = true → Answers .timedWaitExpiry s { s with syn := { s.syn with expired := true, startClk := s.clock.clk } }) ∧
      (wbit e.d.w2 29 = false → Answers .timedWaitExpiry s
        (raise 0x84 (FaultCtx.ofEntry 5 e ((wfld e.w 25 14 <<< 16) + (flagStart s (wfld e.w 25 14)).toNat)
          (if wbit e.d.w1 19 then e.d.fld 1 15 0 else e.s0.toNat % 65536)) s))) ∧
    (∀ (s : State) (e : Entry), s.syn.cur = some e → engOk s 5 = true → s.syn.expired = true → s.syn.startClk < s.clock.clk →
      s.canonical = true → mget 0 s.flagUpset (e.d.fld 2 28 17 / 4) = 0 → (flagGet s (e.d.fld 2 28 17)).toNat < 65535 →
      ∃ t, Answers .timedWaitProceed s t ∧ t.syn.cur = none ∧ t.live = (complete e.id s).live ∧
        (∀ g, (flagGet t g).toNat = (flagGet s g).toNat + (if g = e.d.fld 2 28 17 then 1 else 0)) ∧ t.err = s.err ∧
        t.sregs = s.sregs ∧ t.pool = s.pool ∧ t.q = s.q) ∧
    (∀ s : State, s.syn.cur = none → Answers .timedWaitExpiry s s ∧ Answers .timedWaitProceed s s))

/-! ## Movement engine and pool (09_pool_and_movement, 11_fabric_and_reduction) -/

/-- R286, R296, R298, R300, R320: a read, write, or transposing instruction at the head of the queue that may start, with a
generator or its buffer idle, leaves the queue and owns that generator (a read one makes its first row accesses in the same clk) or
buffer; one whose descriptor breaks its bounds faults with DESC_BOUND. With no generator idle, or the buffer busy with another
operation, it waits at the head. -/
def Obligations.GeneratorsAndBuffersStart : Prop :=
  ∀ (s : State) (c : Instr) (op : Nat) (e : Entry) (es : List Entry), Startable s 4 e es → e.op = op →
    let u := left 4 es s
    let g : Gen := ⟨e, 0, 0, 0, 0, [], 0, [], [], []⟩
    ((c, op) ∈ [(Instr.rd, 1), (.rdm, 3)] →
      (idleGen s.mov.rg = none → Answers c s s) ∧
      (∀ n, idleGen s.mov.rg = some n →
        (genOk s e = false → Answers c s (descBound 4 e u)) ∧
        (genOk s e = true → ∃ t q, Answers c s t ∧ t = fetchGen n { u with mov := { u.mov with rg := u.mov.rg.set n (some g) } } ∧
          t.mov = { u.mov with rg := u.mov.rg.set n (some q) } ∧ q.e = e ∧ q.line = 0 ∧ q.land = [] ∧ PoolAlone s t ∧
          t.q = u.q ∧ t.live = s.live))) ∧
    ((c, op) ∈ [(Instr.wr, 2), (.wrm, 4)] →
      (idleGen s.mov.wg = none → Answers c s s) ∧
      (∀ n, idleGen s.mov.wg = some n →
        (genOk s e = true → Answers c s { u with mov := { u.mov with wg := u.mov.wg.set n (some g) } }) ∧
        (genOk s e = false → Answers c s (descBound 4 e u)))) ∧
    ((c, op) ∈ [(Instr.tin0, 0x10), (.tin1, 0x11)] →
      (tbBusy s (op - 0x10) = true → Answers c s s) ∧
      (tbBusy s (op - 0x10) = false →
        (1 ≤ e.d.fld 1 24 0 → e.d.fld 1 24 0 ≤ 16777216 →
          Answers c s { u with mov := { u.mov with
            tb0 := if op = 0x10 then some ⟨e, 0, [], [], 0, [], 0, 0⟩ else u.mov.tb0,
            tb1 := if op = 0x11 then some ⟨e, 0, [], [], 0, [], 0, 0⟩ else u.mov.tb1 } }) ∧
        (e.d.fld 1 24 0 = 0 ∨ 16777216 < e.d.fld 1 24 0 → Answers c s (descBound 4 e u))))

/-- R302, R303, R304, R298 (the clk in which each part of a copy happens is the model's choice, log 42): TPC and TPCI whose walks are
legal begin their copy on their buffer; a copy whose ranges overlap faults with OVERLAP, and a walk that breaks its bounds with
DESC_BOUND. The element of the walk at index (i0, i1, …) has byte address BASE + Σ i · STR · 4^SH. TPC takes the tiles in walk order
and writes the element read at (i0, i1, i2, …) of the source to the address of (i1, i0, i2, …) of the destination. TPCI takes the
tile pairs (i2, i3) with i2 ≤ i3 and writes the element of (i0, i1, i2, i3, …) to the address of (i1, i0, i3, i2, …); it reads both
tiles before it writes either. Reading leaves every byte; writing changes the bytes of the written elements alone; the last
byte completes the instruction. Registers, descriptors, flags and channels stay.

R286, R293, R295, R296 (at most 4,096 positions in one clk, log 42): ZERO takes an idle write generator and in each clk, its start
clk included, writes the all-zero code at the next positions of its walk that are not clipped, as many as its row accesses allow;
the clk that reaches the end of the walk completes it. Every byte outside the written elements, registers, descriptors, flags and
channels stay. -/
def Obligations.TransposesAndZeroWriteThePool : Prop :=
  ((∀ (s : State) (c : Instr) (op b : Nat) (e : Entry) (es : List Entry), Startable s 4 e es → e.op = op →
      let u := left 4 es s
      let go := { u with mov := { u.mov with
        cp0 := if b = 0 then some ⟨e, copyUnits e, [], 0⟩ else u.mov.cp0, cp1 := if b = 1 then some ⟨e, copyUnits e, [], 0⟩ else u.mov.cp1 } }
      ((c, op, b) ∈ [(Instr.tpc0, 0x12, 0), (.tpc1, 0x13, 1), (.tpci0, 0x14, 0), (.tpci1, 0x15, 1)] → tbBusy s b = true →
        Answers c s s) ∧
      ((c, op, b) ∈ [(Instr.tpc0, 0x12, 0), (.tpc1, 0x13, 1)] → tbBusy s b = false →
        let ok := copyOk s e.d = true ∧ copyOk s e.d1 = true ∧ (copyWalk e.d).ext = (copyWalk e.d1).ext
        let r1 := walkRange (copyWalk e.d)
        let r2 := walkRange (copyWalk e.d1)
        (¬ok → Answers c s (descBound 4 e u)) ∧
        (ok → r1.1 ≤ r2.2 → r2.1 ≤ r1.2 → Answers c s (raiseInst 0x08 4 e u)) ∧
        (ok → r1.2 < r2.1 ∨ r2.2 < r1.1 → Answers c s go)) ∧
      ((c, op, b) ∈ [(Instr.tpci0, 0x14, 0), (.tpci1, 0x15, 1)] → tbBusy s b = false →
        let ok := copyOk s e.d = true ∧ (copyWalk e.d).ext.getD 2 1 = (copyWalk e.d).ext.getD 3 1
        (¬ok → Answers c s (descBound 4 e u)) ∧ (ok → Answers c s go))) ∧
    (∀ (e : Entry) (i : Nat → Nat) (p : Nat),
      let w := fmtBits (e.d.fld 0 22 19)
      let bit : W8 → Nat → Nat → Nat → Nat → Nat := fun d i0 i1 i2 i3 =>
        let st := fun n => sext 20 (d.fld (n + 2) 19 0) * 4 ^ d.fld 0 (2 * n + 1) (2 * n)
        8 * ((d.fld 1 23 0 : Int) + i0 * st 0 + i1 * st 1 + i2 * st 2 + i3 * st 3 + i 4 * st 4 + i 5 * st 5).toNat +
          (if w < 8 then i0 * w else 0)
      let h : Nat → Nat → List Nat := fun a b => [a, b, i 4, i 5]
      let x := p % 32
      let y := p / 32
      p < 1024 → e.d1.fld 0 22 19 = e.d.fld 0 22 19 → ∀ codes : List Nat,
      (e.op = 0x12 ∨ e.op = 0x13 →
        (unitReads e (h (i 2) (i 3), h (i 2) (i 3)))[p]? = some (bit e.d x y (i 2) (i 3), w) ∧
        (codes.length = 1024 → (unitWrites e (h (i 2) (i 3), h (i 2) (i 3)) codes)[p]? =
          some (bit e.d1 y x (i 2) (i 3), w, codes.getD p 0))) ∧
      (e.op = 0x14 ∨ e.op = 0x15 → i 2 ≠ i 3 → codes.length = 2048 →
        let un := (h (i 2) (i 3), h (i 3) (i 2))
        (unitReads e un)[p]? = some (bit e.d x y (i 2) (i 3), w) ∧ (unitReads e un)[1024 + p]? = some (bit e.d x y (i 3) (i 2), w) ∧
        (unitWrites e un codes)[p]? = some (bit e.d y x (i 3) (i 2), w, codes.getD p 0) ∧
        (unitWrites e un codes)[1024 + p]? = some (bit e.d y x (i 2) (i 3), w, codes.getD (1024 + p) 0)) ∧
      (e.op = 0x14 ∨ e.op = 0x15 → i 2 = i 3 → codes.length = 1024 →
        let un := (h (i 2) (i 3), h (i 3) (i 2))
        (unitReads e un)[p]? = some (bit e.d x y (i 2) (i 3), w) ∧
        (unitWrites e un codes)[p]? = some (bit e.d y x (i 3) (i 2), w, codes.getD p 0))) ∧
    (∀ e : Entry,
      let n2 := e.d.fld 4 31 20 + 1
      let n3 := e.d.fld 5 31 20 + 1
      let n4 := e.d.fld 1 31 24 + 1
      let n5 := e.d.fld 6 31 24 + 1
      (e.op = 0x12 ∨ e.op = 0x13 → copyUnits e = (List.range (n2 * n3 * n4 * n5)).map fun q =>
        ([q % n2, q / n2 % n3, q / n2 / n3 % n4, q / n2 / n3 / n4 % n5], [q % n2, q / n2 % n3, q / n2 / n3 % n4, q / n2 / n3 / n4 % n5])) ∧
      (e.op = 0x14 ∨ e.op = 0x15 → ∀ a b : List Nat, (a, b) ∈ copyUnits e ↔
        ∃ i j k l, i ≤ j ∧ j < n2 ∧ k < n4 ∧ l < n5 ∧ a = [i, j, k, l] ∧ b = [j, i, k, l])) ∧
    (∀ (s : State) (b : Nat) (c : TileCopy) (un : List Nat × List Nat) (us : List (List Nat × List Nat)),
      getCopy s b = some c → b < 2 → c.left = un :: us → engOk s 4 = true → s.canonical = true →
      1 ≤ fmtBits (c.e.d.fld 0 22 19) → c.e.d1.fld 0 22 19 = c.e.d.fld 0 22 19 →
      (c.got.length < (unitReads c.e un).length →
        let rest := (unitReads c.e un).drop c.got.length
        let now := rest.take (rowSpan rest [] 8)
        Clean s now →
        now ≠ [] ∧ getCopy (copyTick b s) b = some { c with got := c.got ++ now.map fun x => readBits s.pool.mem x.1 x.2 } ∧
          (copyTick b s).pool.mem = s.pool.mem ∧ PoolAlone s (copyTick b s) ∧ (copyTick b s).live = s.live) ∧
      ((unitReads c.e un).length ≤ c.got.length →
        let rest := (unitWrites c.e un c.got).drop c.put
        let n := rowSpan (rest.map fun x => (x.1, x.2.1)) [] 8
        Clean s ((rest.take n).map fun x => (x.1, x.2.1)) →
        Wrote (rest.take n) s (copyTick b s) ∧ PoolAlone s (copyTick b s) ∧
        (n < rest.length → getCopy (copyTick b s) b = some { c with put := c.put + n } ∧ (copyTick b s).live = s.live) ∧
        (rest.length ≤ n → us ≠ [] →
          getCopy (copyTick b s) b = some { c with left := us, got := [], put := 0 } ∧ (copyTick b s).live = s.live) ∧
        (rest.length ≤ n → us = [] → getCopy (copyTick b s) b = none ∧ (copyTick b s).live = (complete c.e.id s).live)))) ∧
  ((∀ (s : State) (e : Entry) (es : List Entry), Startable s 4 e es → e.op = 5 →
      (idleGen s.mov.wg = none → Answers .zero s s) ∧
      (∀ n, idleGen s.mov.wg = some n →
        (genOk s e = false → Answers .zero s (descBound 4 e (left 4 es s))) ∧
        (genOk s e = true → Answers .zero s (zeroStep n { left 4 es s with mov :=
          { s.mov with wg := s.mov.wg.set n (some ⟨e, 0, 0, 0, 0, [], 0, [], [], []⟩) } })))) ∧
    (∀ (s : State) (n : Nat) (g : Gen), s.mov.wg.getD n none = some g → s.canonical = true →
      let k := (genStream g.e).k
      let els := fun p => ((List.range (p - g.line)).map (· + g.line)).filterMap fun q =>
        if walkClipped k (walkIdx k.ext q) then none else some (walkBit k (walkIdx k.ext q), k.w, 0)
      Clean s ((els (walkSize k)).map fun x => (x.1, x.2.1)) → 1 ≤ k.w →
      ∃ p, g.line ≤ p ∧ (g.line < walkSize k → g.line < p) ∧ Wrote (els p) s (zeroStep n s) ∧ PoolAlone s (zeroStep n s) ∧
        (walkSize k ≤ p → (zeroStep n s).mov = { s.mov with wg := s.mov.wg.set n none } ∧
          (zeroStep n s).live = (complete g.e.id s).live) ∧
        (p < walkSize k → (zeroStep n s).mov = { s.mov with wg := s.mov.wg.set n (some { g with line := p }) } ∧
          (zeroStep n s).live = s.live)))

/-- R306, R307, R312, R313, R236, R363, R364: a gather, scatter, compressed save or restore, or fabric transfer that may start leaves
the queue and is under way; with LSRC 1 it takes the count popped, one that is too large or whose start checks fail faults with
DESC_BOUND, and a transfer of no bytes completes at once. While the gather engine or the compressor is busy their instructions wait at the
head.

R374, R375, R376, R380: with the reduce sender's buffer free, RSEND posts its receive, unless its issue has posted it, and
stages its tile; RMAXS posts its receive and sends its CUR_AMAX, read at its start, to the tree, or in a one-rank job to itself; either
leaves the queue. A second reduce of the same step, tile and operation faults with FAB_PROTO; while another tile is
staged, or the receive table is full, a reduce waits at the head. -/
def Obligations.GathersTransfersAndReducesStart : Prop :=
  (∀ (s : State) (c : Instr) (op : Nat) (e : Entry) (es : List Entry), Startable s 4 e es → e.op = op →
      let u := left 4 es s
      ((c, op) ∈ [(Instr.gath, 0x18), (.scst, 0x19), (.movScadd, 0x1A)] →
        (s.mov.gath ≠ none → Answers c s s) ∧
        (s.mov.gath = none →
          (wbit e.d.w1 31 = false →
            (gatherOk s e = true → Answers c s { u with mov := { u.mov with gath := some (mkGath e (e.d.fld 1 24 0)) } }) ∧
            (gatherOk s e = false → Answers c s (descBound 4 e u))) ∧
          (∀ ls v, wbit e.d.w1 31 = true → chTake (e.d.fld 1 30 25) 9 1 s = some (ls, v) →
            let n := (ls.map (·.data)).headD 0 % 2 ^ 32
            let y := left 4 es v
            (n ≤ e.d.fld 1 24 0 → gatherOk s e = true → Answers c s { y with mov := { y.mov with gath := some (mkGath e n) } }) ∧
            (e.d.fld 1 24 0 < n ∨ gatherOk s e = false → Answers c s (descBound 4 e y))) ∧
          (wbit e.d.w1 31 = true → chAvail s (e.d.fld 1 30 25) 9 = 0 → Answers c s s))) ∧
      ((c, op) ∈ [(Instr.acsv, 0x20), (.acrs, 0x21)] →
        (s.mov.acmp ≠ none → Answers c s s) ∧
        (s.mov.acmp = none →
          (acmpOk e = true → ∃ t a, Answers c s t ∧ t = { u with mov := { u.mov with acmp := some a } } ∧ a.e = e ∧
            a.save = decide (op = 0x20) ∧ a.elem = 0 ∧ a.sent = 0 ∧ a.asked = 0 ∧ a.body = [] ∧ a.pend = []) ∧
          (acmpOk e = false → Answers c s (descBound 4 e u)))) ∧
      ((c, op) ∈ [(Instr.put, 0x28), (.get, 0x29), (.getp, 0x2A), (.racc, 0x2B)] →
        (wbit e.d.w3 31 = false →
          (fabStartOk u e (e.d.fld 3 24 0) = true →
            Answers c s { u with mov := { u.mov with fab := s.mov.fab ++ [mkFabOp e (e.d.fld 3 24 0) s.clock.ek] } }) ∧
          (fabStartOk u e (e.d.fld 3 24 0) = false → Answers c s (descBound 4 e u))) ∧
        (∀ ls v, wbit e.d.w3 31 = true → chTake (e.d.fld 3 30 25) 11 1 s = some (ls, v) →
          let n := (ls.map (·.data)).headD 0 % 2 ^ 32
          let y := left 4 es v
          (fabStartOk y e n = false → Answers c s (descBound 4 e y)) ∧
          (0 < n → fabStartOk y e n = true →
            Answers c s { y with mov := { s.mov with fab := s.mov.fab ++ [mkFabOp e n s.clock.ek] } }) ∧
          (n = 0 → fabStartOk y e n = true →
            ∃ t, Answers c s t ∧ t.live = (complete e.id s).live ∧ t.q = y.q ∧ t.chans = v.chans ∧
              t.mov = { s.mov with fab := s.mov.fab.filter fun o => o.e.id != e.id } ∧
              t.fab.adds = s.fab.adds ++ (if wbit e.d.w4 18 then [⟨e.d.fld 4 17 6, 1, some (4, e), ownIds s, false, 0⟩] else []) ∧
              (wbit e.d.w4 31 = false ∨ op = 0x29 ∨ op = 0x2A → t.fab.txq = s.fab.txq) ∧
              (wbit e.d.w4 31 = true → op = 0x28 ∨ op = 0x2B → faulting s = false →
                ∀ re, activeRoute s (e.d.fld 1 31 20) = some re → ∃ k, t.fab.txq = s.fab.txq ++ [k] ∧ k.due = s.clock.ek + 2 ∧
                  k.payload = [] ∧ wfld k.hdr.w0 31 27 = 8 ∧ wfld k.hdr.w4 15 0 = 1 ∧ k.hdr.w2.toNat * 2 ^ 32 + k.hdr.w1.toNat =
                    fabAddr (e.d.fld 1 31 20) 2 (e.d.fld 1 19 8 * 2 ^ 24 + e.d.fld 4 30 19)))) ∧
        (wbit e.d.w3 31 = true → chAvail s (e.d.fld 3 30 25) 11 = 0 → Answers c s s))) ∧
  (∀ (s : State) (e : Entry) (es : List Entry), Startable s 4 e es →
      let posted := e.job.getD 8 0 = 1
      let e' := if posted then e else { e with job := e.job.take 8 ++ [1] }
      let recv := if posted then s.fab.recv else s.fab.recv ++ [recvOf e]
      let u := left 4 es { s with fab := { s.fab with recv := recv } }
      let may := posted ∨ (recvTaken s e = false ∧ s.fab.recv.length < 64)
      (e.op = 0x2C → stagingBusy s = true → Answers .rsend s s) ∧
      (e.op = 0x2C → stagingBusy s = false → may →
        (rsendOk u e' = true → Answers .rsend s { u with mov := { s.mov with fab := s.mov.fab ++ [mkFabOp e' 0 s.clock.ek] } }) ∧
        (rsendOk u e' = false → Answers .rsend s (descBound 4 e' u))) ∧
      (e.op = 0x2D → may → (∀ o ∈ s.mov.fab, o.e.id ≠ e.id) →
        ∃ t o, Answers .rmaxs s t ∧ t.q = u.q ∧ t.fab.recv = recv ∧ t.mov = { s.mov with fab := s.mov.fab ++ [o] } ∧ o.e = e' ∧
          (e.job.getD 2 1 ≠ 1 → o.len = 1 ∧ o.local_ = [] ∧
            o.queue.map (·.2) = [wordBytes (scaleGet s (e.d.fld 7 5 0)).curAmax]) ∧
          (e.job.getD 2 1 = 1 → o.queue = [] ∧
            o.local_.map (fun r => (r.op, r.piece, r.count, r.payload)) =
              [(1, 0, 1, wordBytes (scaleGet s (e.d.fld 7 5 0)).curAmax)]) ∧
          StoresKept s t) ∧
      (¬posted → recvTaken s e = true →
        (e.op = 0x2D → Answers .rmaxs s (redFault 0x63 e (left 4 es s))) ∧
        (e.op = 0x2C → stagingBusy s = false → Answers .rsend s (redFault 0x63 e (left 4 es s)))) ∧
      (¬posted → recvTaken s e = false → 64 ≤ s.fab.recv.length →
        (e.op = 0x2D → Answers .rmaxs s s) ∧ (e.op = 0x2C → Answers .rsend s s)))

/-- R286, R296, R298, R299, R301, R330: a line of a read generator whose data have returned joins its channel, and the last one
completes the instruction; without room it stays. A write generator takes one line of its channel, to land three clk later. A
transposing buffer turns its oldest unit, once the buffer holds no lines of another, and pushes its lines as the rate of R301 and the
channel allow; the last line of the last unit completes it.

R306, R308, R309, R310, R311, R312: the next entry of a gather instruction takes effect, one in a clk. Inside its dims, or clamped
into them with OOB 2, a gather from the pool begins its block: it reads the block's elements, all that its row accesses allow in a
clk, and appends the whole block to its stream, without a read where the entry before it took the same block; one of external memory
adds the block to those it asks for. A scatter writes the codes it has popped for the block, and SCADD adds them to the elements there,
64 in a clk. With OOB 1 outside, or a mask bit of 0, a gather supplies zeros and a scatter skips the entry with its codes. Outside with OOB 0 the entry faults with INDEX_BOUND. An entry at work, or lines
that wait, hold back the next. -/
def Obligations.GeneratorsAndGathersMoveTheirData : Prop :=
  ((∀ (s : State) (n : BitVec 4) (r : Gen) (due v : Nat) (rest : List (Nat × Nat)),
      s.mov.rg.getD n.toNat none = some r → r.buf = (due, v) :: rest → due ≤ s.clock.ek → engOk s 4 = true →
      (r.clk ≠ s.clock.ek ∨ r.count < genRate s) →
      (∀ x, some x ∈ s.mov.rg → x.e.id < r.e.id → x.e.chOut ≠ r.e.chOut) →
      let t := chPush r.e.chOut [(v, false, false)] s
      (chRoom s r.e.chOut = 0 → Answers (.generatorLinePush n) s s) ∧
      (1 ≤ chRoom s r.e.chOut → genLines (genStream r.e) ≤ r.line + 1 →
        Answers (.generatorLinePush n) s (complete r.e.id { t with mov := { s.mov with rg := s.mov.rg.set n.toNat none } })) ∧
      (1 ≤ chRoom s r.e.chOut → r.line + 1 < genLines (genStream r.e) →
        Answers (.generatorLinePush n) s { t with mov := { s.mov with rg := s.mov.rg.set n.toNat (some { r with
          line := r.line + 1, clk := s.clock.ek, count := if r.clk = s.clock.ek then r.count + 1 else 1, buf := rest }) } })) ∧
    (∀ (s : State) (n : BitVec 3) (r : Gen) (l : Line) (v : State), s.mov.wg.getD n.toNat none = some r → r.e.op ≠ 5 →
      r.line < genLines (genStream r.e) → engOk s 4 = true → (r.clk ≠ s.clock.ek ∨ r.count < genRate s) →
      (∀ x, some x ∈ s.mov.wg → x.e.id < r.e.id → x.e.op ≠ 5 → x.line < genLines (genStream x.e) → x.e.chX ≠ r.e.chX) →
      chTake r.e.chX 6 1 s = some ([l], v) →
      Answers (.generatorLinePop n) s { v with mov := { s.mov with wg := s.mov.wg.set n.toNat (some { r with
        line := r.line + 1, clk := s.clock.ek, count := if r.clk = s.clock.ek then r.count + 1 else 1
        land := r.land ++ [(s.clock.ek + 3, r.line, l.data)] }) } }) ∧
    (∀ (s : State) (b : BitVec 1) (k : Tin), getTb s b.toNat = some k → engOk s 4 = true →
      let fresh := k.outq = [] ∧ ∃ ls c rest, k.held = (ls, c) :: rest ∧ c < s.clock.ek
      let q := if k.outq = [] then match k.held with
          | (ls, c) :: _ => if c < s.clock.ek then turnUnit k.e ls else []
          | [] => []
        else k.outq
      let scales := q.length - groupLines (fmtBits (k.e.d.fld 0 22 19)) (32 * (k.e.d.fld 0 18 18 + 1))
      let rate := if fmtBits (k.e.d.fld 0 22 19) = 4 then 2 else 4
      let m := min (scales + (rate - (if k.outClk = s.clock.ek then k.outN else 0))) (min (chRoom s k.e.chOut) q.length)
      ∃ t, Answers (.tinUnitEmit b) s t ∧ t.chans = (chPush k.e.chOut ((q.take m).map fun d => (d, false, false)) s).chans ∧
        t.pool = s.pool ∧ t.q = s.q ∧ t.sregs = s.sregs ∧ t.descs = s.descs ∧ t.flags = s.flags ∧ t.scales = s.scales ∧
        (m < q.length → ∃ k', getTb t b.toNat = some k' ∧ k'.e = k.e ∧ k'.outq = q.drop m ∧ t.live = s.live ∧
          (fresh → k'.held = k.held.tail ∧ k'.emitted = k.emitted + 1) ∧ (¬fresh → k'.held = k.held ∧ k'.emitted = k.emitted)) ∧
        (q.length = m → (fresh → k.e.d.fld 1 24 0 ≤ k.emitted + 1) → (¬fresh → k.e.d.fld 1 24 0 ≤ k.emitted) →
          getTb t b.toNat = none ∧ t.live = (complete k.e.id s).live))) ∧
  (∀ (s : State) (g : Gath), s.mov.gath = some g → engOk s 4 = true → s.canonical = true →
      (g.next ≥ g.len ∨ g.out.lineq ≠ [] ∨ g.work ≠ none ∨ g.workClk = some s.clock.ek → Answers .gatherEntryStart s s) ∧
      (∀ (v : Nat) (vs ms : List (Nat × Nat)) (mb : Nat) (codes : List (Nat × Nat)),
        g.next < g.len → g.out.lineq = [] → g.work = none → g.workClk ≠ some s.clock.ek → g.list.ready = (v, 0) :: vs →
        (gMask g.e = true → g.mask.ready = (mb, 0) :: ms) → (g.e.op ≠ 0x18 → g.data.ready = codes ∧ codes.length = gLen g.e) →
        let cs := (List.range 4).map fun d => sext 32 (v >>> (32 * d))
        let masked := gMask g.e = true ∧ mb = 0
        let inside := ∀ p ∈ List.zip (gDims g.e) cs, 0 ≤ p.2 ∧ p.2 < (p.1 : Int)
        let oob := g.e.d.fld 0 17 16
        let at_ := if inside then cs else List.zipWith (fun (d : Nat) (c : Int) => max 0 (min c ((d : Int) - 1))) (gDims g.e) cs
        let n := (List.zip (gDims g.e) at_).foldr (fun p a => p.2.toNat + p.1 * a) 0
        let els := (List.range (gLen g.e)).map fun i => (8 * (gBase g.e + g.e.d.w5.toNat * n) + i * gBits g.e, gBits g.e)
        let k := rowSpan els [] 16
        let now := els.take k
        (g.e.op = 0x18 → ¬masked → inside ∨ oob = 2 → gExt g.e = false → (∀ x, g.last = some x → x.1 ≠ n) → Clean s now →
          ∃ t q, Answers .gatherEntryStart s t ∧ PoolAlone s t ∧ t.pool.mem = s.pool.mem ∧
            t.mov = { s.mov with gath := some q } ∧ q.e = g.e ∧ q.next = g.next + 1 ∧ q.count = g.count + 1 ∧ q.list.ready = vs ∧
            q.workClk = some s.clock.ek ∧
            (k < els.length → q.work = some ⟨n, now.map fun x => readBits s.pool.mem x.1 x.2, k⟩ ∧ q.out = g.out) ∧
            (els.length ≤ k → q.work = none ∧ q.last = some (n, els.map fun x => readBits s.pool.mem x.1 x.2) ∧
              (q.next < g.len → q.out = g.out.put (els.map fun x => (readBits s.pool.mem x.1 x.2, 0))) ∧
              (q.next = g.len → q.out = (g.out.put (els.map fun x => (readBits s.pool.mem x.1 x.2, 0))).finish))) ∧
        (g.e.op = 0x19 → ¬masked → inside ∨ oob = 2 → gExt g.e = false → 1 ≤ gBits g.e → Clean s now →
          ∃ t q, Answers .gatherEntryStart s t ∧ PoolAlone s t ∧ t.mov = { s.mov with gath := some q } ∧
            Wrote (List.zipWith (fun (b : Nat × Nat) (c : Nat × Nat) => (b.1, b.2, c.1)) now codes) s t ∧ q.next = g.next + 1 ∧
            q.count = g.count + 1 ∧ q.data.ready = [] ∧ q.list.ready = vs ∧
            (k < els.length → q.work = some ⟨n, codes.map (·.1), k⟩) ∧ (els.length ≤ k → q.work = none)) ∧
        (g.e.op = 0x1A → ¬masked → inside ∨ oob = 2 → gExt g.e = false → 1 ≤ gBits g.e →
          let f := g.e.d.fld 0 22 19
          let mine := els.take (min 64 k)
          Clean s mine →
          ∃ t q, Answers .gatherEntryStart s t ∧ PoolAlone s t ∧ t.mov = { s.mov with gath := some q } ∧
            Wrote (List.zipWith (fun (b : Nat × Nat) (c : Nat × Nat) => (b.1, b.2,
              convertElem f 0 0 ((decodeElem f (readBits s.pool.mem b.1 b.2)).add (decodeElem f c.1)))) mine codes) s t ∧
            q.next = g.next + 1 ∧ q.count = g.count + 1 ∧ q.data.ready = [] ∧ q.list.ready = vs ∧
            (mine.length < els.length → q.work = some ⟨n, codes.map (·.1), min 64 k⟩) ∧ (els.length ≤ mine.length → q.work = none)) ∧
        (g.e.op = 0x18 → ¬masked → inside ∨ oob = 2 → gExt g.e = false → ∀ old, g.last = some (n, old) →
          ∃ q, Answers .gatherEntryStart s { s with mov := { s.mov with gath := some q } } ∧ q.next = g.next + 1 ∧
            q.count = g.count + 1 ∧ q.list.ready = vs ∧ q.work = none ∧
            (q.next < g.len → q.out = g.out.put (old.map fun x => (x, 0)))) ∧
        (g.e.op = 0x18 → ¬masked → inside ∨ oob = 2 → gExt g.e = true → (∀ x, g.last = some x → x.1 ≠ n) →
          ∃ q b, Answers .gatherEntryStart s { s with mov := { s.mov with gath := some q } } ∧ q.next = g.next + 1 ∧
            q.count = g.count + 1 ∧ q.list.ready = vs ∧ q.out = g.out ∧ q.blocks = g.blocks ++ [b] ∧ b.idx = g.next ∧
            b.addr = gBase g.e + g.e.d.w5.toNat * n ∧ b.asked = 0 ∧ b.got = [] ∧ b.zero = false) ∧
        (g.e.op = 0x18 → masked ∨ (¬inside ∧ oob = 1) → gExt g.e = false →
          ∃ q, Answers .gatherEntryStart s { s with mov := { s.mov with gath := some q } } ∧ q.next = g.next + 1 ∧
            q.count = g.count ∧ q.list.ready = vs ∧ q.work = none ∧
            (q.next < g.len → q.out = g.out.put (List.replicate (gLen g.e) (0, 0)))) ∧
        (g.e.op ≠ 0x18 → masked ∨ (¬inside ∧ oob = 1) →
          ∃ t q, Answers .gatherEntryStart s t ∧ t = { s with mov := { s.mov with gath := some q } } ∧ q.next = g.next + 1 ∧
            q.count = g.count ∧ q.data.ready = [] ∧ q.list.ready = vs) ∧
        (¬masked → ¬inside → oob = 0 → g.blocks = [] →
          ∃ c, Answers .gatherEntryStart s (raise 0x0E (FaultCtx.ofEntry 4 g.e g.next (toCode 32 c)) s) ∧
            ∃ p ∈ List.zip (gDims g.e) cs, p.2 = c ∧ ¬(0 ≤ c ∧ c < (p.1 : Int)))))

/-- R275, R276, R277, R279, R428: a patrol read of a powered bank checks its next row and counts one access of the bank: a word
with one or two wrong bits is counted and waits for its write-back, and an uncorrectable one takes poison, is counted and logged and raises
no fault. Every byte stays where no word is mistaken for another. The write-back corrects the word and leaves every byte as it reads; a
skipped clk, and a core asleep, make neither. -/
def Obligations.PoolIsPatrolledAndCorrected : Prop :=
  (∀ (s : State) (b : BitVec 6), s.clock.skip = true ∨ awake s = false → Answers (.patrolRead b) s s) ∧
  (∀ (s : State) (b : BitVec 6), s.clock.skip = false → awake s = true → stepDone s 6 = true → pdOn s b.toNat = true →
    let r := mget 0 s.pool.patrolRow b.toNat
    ∃ t, Answers (.patrolRead b) s t ∧ PoolAlone s t ∧ t.q = s.q ∧ t.live = s.live ∧ t.mov = s.mov ∧
      t.pool.patrolRow = mset 0 s.pool.patrolRow b.toNat (r + 1) ∧
      (∀ a, rowAddr s b.toNat (r % bankRows s) = some a →
        ((∀ i < 4, mget 0 s.pool.upset (a / 8 + i) = 0) →
          t.pool = { s.pool with patrolRow := t.pool.patrolRow } ∧ t.err = s.err) ∧
        (∀ k, k < 4 → (∀ i, i ≠ k → i < 4 → mget 0 s.pool.upset (a / 8 + i) = 0) →
          (1 ≤ mget 0 s.pool.upset (a / 8 + k) → mget 0 s.pool.upset (a / 8 + k) ≤ 2 →
            t.pool = { s.pool with patrolRow := t.pool.patrolRow, writeback := s.pool.writeback ++ [a / 8 + k] } ∧
            t.err = { s.err with poolCe := satCount 16 (s.err.poolCe + 1) }) ∧
          (mget 0 s.pool.upset (a / 8 + k) = 3 →
            t.pool = { s.pool with
              patrolRow := t.pool.patrolRow, poison := mset false s.pool.poison (a / 8 + k) true, upset := mset 0 s.pool.upset (a / 8 + k) 0 } ∧
            t.err.poolUe = satCount 16 (s.err.poolUe + 1) ∧
            (∀ f ∈ t.err.fresh, f ∈ s.err.fresh ∨ (f.code = 0x46 ∧ f.halt = false)))))) ∧
  (∀ (s : State) (w : BitVec 19), s.clock.skip = true ∨ awake s = false ∨ s.pool.writeback.contains w.toNat = false →
    Answers (.correctedWriteback w) s s) ∧
  (∀ (s : State) (w : BitVec 19), s.clock.skip = false → awake s = true → s.pool.writeback.contains w.toNat = true →
    ∃ t, Answers (.correctedWriteback w) s t ∧ t = { s with cnt := t.cnt, pool := { s.pool with
      upset := mset 0 s.pool.upset w.toNat 0, writeback := s.pool.writeback.filter (· != w.toNat) } })

/-! ## Side-band bus, ownership and management (12_management) -/

/-- R387, R391, R392, R393, R395, R396, R398, R399, R400: a HELLO or DISCOVER is answered with IDENT, a READ with RDATA of the
registers' values or the NACK of its first word without a register, a WAKE with ACK, and an ALERT_ACK with nothing; a WRITE of one
word by the owner that its register accepts makes the register's effect and is acknowledged, a broadcast one without a reply. A request
already answered gets its stored reply once more and has no effect. A HELLO of a stranger, while EOPEN is 1, enrols it. A frame that is
not whole is counted in RXERR, one for another core is ignored, one that finds the queue of eight full is lost and counted in QOVF, and
one that other work comes before waits. -/
def Obligations.FramesOfEnrolledStationsAreServed : Prop :=
  (∀ (s : State) (f : Frame), frameOk f = true → Asks f.src f.dst f.seq f.typ (frameClass f) s →
    let u := heard s
    let ident := wordsBytes (identWords u)
    (f.typ = 0x01 → f.payload = [] → ∃ t, Answers (.hello f) s t ∧ Replies f.src f.seq 0x03 ident u t) ∧
    (f.typ = 0x01 → f.payload ≠ [] → ∃ t, Answers (.hello f) s t ∧ Replies f.src f.seq 0x09 [6, 0, 0, 0] u t) ∧
    (f.typ = 0x02 → f.payload = [] → ∃ t, Answers (.discover f) s t ∧ Replies f.src f.seq 0x03 ident u t) ∧
    (∀ a v, f.typ = 0x05 → a < 65536 → f.payload = leBytes 2 a ++ [1, 0] → regValue u a = some v →
      ∃ t, Answers (.read f) s t ∧ Replies f.src f.seq 0x06 (leBytes 2 a ++ [1, 0] ++ wordBytes v) (readEffect a u) t) ∧
    (f.typ = 0x05 → accessForm f 0 = true → (∀ i < frameWords f, (regValue u (wordAddr f i)).isSome = true) →
      ∃ t, Answers (.read f) s t ∧
        Replies f.src f.seq 0x06 (f.payload ++ wordsBytes (readWords f (frameWords f) 0 u).1) (readWords f (frameWords f) 0 u).2 t) ∧
    (∀ i, f.typ = 0x05 → accessForm f 0 = true → i < frameWords f → regValue u (wordAddr f i) = none →
      (∀ j < i, (regValue u (wordAddr f j)).isSome = true) →
      ∃ t, Answers (.read f) s t ∧ Replies f.src f.seq 0x09 [2, byte i, 0, 0] u t) ∧
    (f.typ = 0x05 → accessForm f 0 = false → ∃ t, Answers (.read f) s t ∧ Replies f.src f.seq 0x09 [6, 0, 0, 0] u t) ∧
    (∀ a w v, f.typ = 0x07 → a < 65536 → f.payload = leBytes 2 a ++ [1, 0] ++ wordBytes w → s.own.state ≠ 0 →
      f.src = s.own.owner → regWrite a w u = (v, 0) → a ≠ 0x0404 → a ≠ 0x0800 → enrolIdx v f.src = enrolIdx s f.src →
      v.straps = s.straps → ∃ t, Answers (.write f) s t ∧ Replies f.src f.seq 0x08 [] v t) ∧
    (f.typ = 0x0F → f.payload = [] → ∃ t, Answers (.wake f) s t ∧ Replies f.src f.seq 0x08 [] u t) ∧
    (f.typ = 0x08 → Answers (.alertAck f) s u)) ∧
  (∀ (s : State) (f : Frame), frameOk f = true → Listens (frameClass f) s → f.dst = 0xFF → (enrolIdx s f.src).isSome = true →
    Unanswered f.src f.seq f.typ s →
    (f.typ = 0x01 → Answers (.hello f) s (heard s)) ∧
    (f.typ = 0x02 → f.payload = [] →
      ∃ t, Answers (.discover f) s t ∧ Replies f.src f.seq 0x03 (wordsBytes (identWords (heard s))) (heard s) t) ∧
    (∀ a w v, f.typ = 0x07 → a < 65536 → f.payload = leBytes 2 a ++ [1, 0] ++ wordBytes w → s.own.state ≠ 0 →
      f.src = s.own.owner → regWrite a w (heard s) = (v, 0) → a ≠ 0x0404 → a ≠ 0x0800 → ∃ t, Answers (.write f) s t ∧ Silent v t)) ∧
  (∀ (s : State) (f : Frame) (i : Nat) (g : Option Frame), frameOk f = true → Listens (frameClass f) s →
    f.dst = BitVec.zeroExtend 8 s.straps.slot → enrolIdx s f.src = some i →
    (s.own.enrol.getD i EnrolEnt.init).last = some (f.seq, f.typ, g) →
    (c : Instr) → (c, f.typ) ∈ [(Instr.hello f, 0x01), (.discover f, 0x02), (.read f, 0x05), (.write f, 0x07), (.claim f, 0x0A),
      (.renew f, 0x0D), (.release f, 0x0E), (.wake f, 0x0F)] →
    ∃ t, Answers c s t ∧ t = { heard s with sb := t.sb, cnt := t.cnt } ∧
      t.sb = { (heard s).sb with out := match g with | some x => [x] | none => [] }) ∧
  (∀ (s : State) (f : Frame), frameOk f = true → Listens (frameClass f) s → f.dst = BitVec.zeroExtend 8 s.straps.slot →
    enrolIdx s f.src = none → f.typ = 0x01 → f.payload = [] → isMaster f.src = true → s.own.eopen = true →
    ∀ i, i < 16 → s.own.enrol.length = 16 → (s.own.enrol.getD i EnrolEnt.init).v = false →
      (∀ j < i, (s.own.enrol.getD j EnrolEnt.init).v = true) →
    ∃ t g e, Answers (.hello f) s t ∧ t.own = { s.own with enrol := s.own.enrol.set i e } ∧ e.v = true ∧ e.claim = true ∧
      e.maxpri = 0xFF ∧ e.station = f.src ∧ t.sb.out = [g] ∧ g.dst = f.src ∧ g.typ = 0x03 ∧ g.seq = f.seq ∧
      t.fab.sbStranger = satCount 16 (s.fab.sbStranger + 1) ∧ StoresKept s t) ∧
  (∀ (s : State) (f : Frame), mgcUp s = true → edgeWork s = false → f.typ = 0x01 →
    let u := { s with sb := { s.sb with out := [], retry := s.sb.retry.filter fun r => r.slots != 0 } }
    let mine := f.dst = BitVec.zeroExtend 8 s.straps.slot ∨ f.dst = 0xFF
    (frameOk f = false → ∃ t, Answers (.hello f) s t ∧
      t = { u with cnt := t.cnt, own := { s.own with rxerr := satCount 16 (s.own.rxerr + 1) } }) ∧
    (frameOk f = true → ¬mine → Answers (.hello f) s u) ∧
    (frameOk f = true → mine → 8 ≤ s.sb.rxq.length →
      Answers (.hello f) s { u with own := { s.own with qovf := satCount 8 (s.own.qovf + 1) } }) ∧
    (frameOk f = true → mine → s.sb.rxq.length < 8 → pendingClass s < 2 → ∃ t, Answers (.hello f) s t ∧
      t = { u with cnt := t.cnt, sb := { u.sb with rxq := s.sb.rxq ++ [f] } }))

/-- R401, R407: a READ of an enrolled station is answered, whoever owns the core; a WRITE of any number of words from an enrolled
station that is not the owner is refused with NACK NOTOWNER, a broadcast one without a reply, and counted in WNACK, and changes
nothing else. -/
def Obligations.WritesAreAcceptedOnlyFromTheOwner : Prop :=
  (∀ (s : State) (f : Frame), frameOk f = true → Asks f.src f.dst f.seq 0x05 4 s → f.typ = 0x05 → accessForm f 0 = true →
    (∀ i, i < frameWords f → (regValue (heard s) (wordAddr f i)).isSome = true) →
    ∃ t p v, Answers (.read f) s t ∧ Replies f.src f.seq 0x06 p v t ∧ p.take 4 = f.payload ∧ p.length = 4 + 4 * frameWords f ∧
      v.own = s.own) ∧
  (∀ (s : State) (f : Frame), frameOk f = true → f.typ = 0x07 → accessForm f (4 * frameWords f) = true →
    s.own.state = 0 ∨ f.src ≠ s.own.owner →
    let u := { heard s with own := { s.own with wnack := satCount 16 (s.own.wnack + 1) } }
    (Asks f.src f.dst f.seq 0x07 (frameClass f) s → ∃ t, Answers (.write f) s t ∧ Replies f.src f.seq 0x09 [1, 0, 0, 0] u t) ∧
    (Listens (frameClass f) s → Unanswered f.src f.seq 0x07 s → f.dst = 0xFF → ∃ t, Answers (.write f) s t ∧ Silent u t))

/-- R402, R403, R404, R405, R406: a CLAIM of a station that may claim opens or joins the election of an unowned core, takes over in a
handover where it is the successor's, and is denied otherwise; RENEW and RELEASE of the owner renew the lease and end the
ownership, and others' are refused; an expired lease ends the ownership, an expired handover window ends the handover, and the end of an
election gives the ownership to the claim of the greatest priority and nonce, of equal ones to the lowest station, with GRANT to it and
DENY to the others. -/
def Obligations.OwnershipFollowsClaimsAndLeases : Prop :=
  (∀ (s : State) (f : Frame) (i : Nat), frameOk f = true → Asks f.src f.dst f.seq f.typ 2 s → enrolIdx s f.src = some i →
    let e := s.own.enrol.getD i EnrolEnt.init
    let u := heard s
    let prio := f.payload.getD 0 0
    let nonce := BitVec.ofNat 24 (leNat (f.payload.drop 1))
    let may := f.payload.length = 4 ∧ e.claim = true ∧ ¬(e.maxpri < prio)
    let denied := { u with own := { u.own with cdeny := satCount 16 (s.own.cdeny + 1) } }
    (f.typ = 0x0A → f.payload.length ≠ 4 → ∃ t, Answers (.claim f) s t ∧ Replies f.src f.seq 0x09 [6, 0, 0, 0] u t) ∧
    (f.typ = 0x0A → f.payload.length = 4 → (e.claim = false ∨ e.maxpri < prio) →
      ∃ t, Answers (.claim f) s t ∧ Replies f.src f.seq 0x09 [8, 0, 0, 0] denied t) ∧
    (f.typ = 0x0A → may → s.own.state = 0 → s.own.window = none →
      ∃ t, Answers (.claim f) s t ∧ Silent { u with own := { u.own with window := some ([⟨f.src, prio, nonce, f.seq⟩], 2) } } t) ∧
    (∀ l n, f.typ = 0x0A → may → s.own.state = 0 → s.own.window = some (l, n) →
      ∃ t, Answers (.claim f) s t ∧ Silent { u with own := { u.own with
        window := some (l.filter (fun x => x.station != f.src) ++ [⟨f.src, prio, nonce, f.seq⟩], n) } } t) ∧
    (f.typ = 0x0A → may → s.own.state = 2 → f.src = s.own.succ →
      ∃ t, Answers (.claim f) s t ∧ Replies f.src f.seq 0x0B (prio :: leBytes 3 nonce.toNat)
        { u with own := { u.own with state := 1, owner := f.src, prio := prio, nonce := nonce, remain := s.own.ticks,
                                     succ := 0xFF, win := 0 } } t) ∧
    (f.typ = 0x0A → may → s.own.state = 1 → f.src = s.own.owner →
      ∃ t, Answers (.claim f) s t ∧ Replies f.src f.seq 0x09 [7, 0, 0, 0] denied t) ∧
    (f.typ = 0x0A → may → (s.own.state = 1 ∧ f.src ≠ s.own.owner) ∨ (s.own.state = 2 ∧ f.src ≠ s.own.succ) →
      ∃ t, Answers (.claim f) s t ∧ Replies f.src f.seq 0x0C (s.own.prio :: leBytes 3 s.own.nonce.toNat) denied t) ∧
    (f.typ = 0x0D → f.payload = [] → s.own.state ≠ 0 → f.src = s.own.owner → ∃ t, Answers (.renew f) s t ∧
      Replies f.src f.seq 0x08 [] { u with own := { u.own with remain := s.own.ticks } } t) ∧
    (f.typ = 0x0D → f.payload = [] → s.own.state = 0 ∨ f.src ≠ s.own.owner → ∃ t, Answers (.renew f) s t ∧
      Replies f.src f.seq 0x09 [1, 0, 0, 0] u t) ∧
    (f.typ = 0x0E → f.payload = [] → s.own.state ≠ 0 → f.src = s.own.owner → ∃ t, Answers (.release f) s t ∧
      Replies f.src f.seq 0x08 [] { u with
        own := { u.own with state := 0, owner := 0xFF, prio := 0, nonce := 0, lock := false, remain := 0, succ := 0xFF, win := 0 }
        dbg := { s.dbg with lock := false } } t) ∧
    (f.typ = 0x0E → f.payload = [] → s.own.state = 0 ∨ f.src ≠ s.own.owner → ∃ t, Answers (.release f) s t ∧
      Replies f.src f.seq 0x09 [1, 0, 0, 0] u t)) ∧
  (∀ s : State, s.own.state ≠ 0 → s.own.remain = 0 → Answers .leaseExpiry s { s with
    own := { s.own with state := 0, owner := 0xFF, prio := 0, nonce := 0, lock := false, remain := 0, succ := 0xFF, win := 0 }
    dbg := { s.dbg with lock := false } }) ∧
  (∀ s : State, s.own.state = 0 ∨ s.own.remain ≠ 0 → Answers .leaseExpiry s s) ∧
  (∀ s : State, s.own.state = 2 → s.own.win = 0 →
    Answers .handoverWindowExpiry s { s with own := { s.own with state := 1, succ := 0xFF } }) ∧
  (∀ s : State, s.own.state ≠ 2 ∨ s.own.win ≠ 0 → Answers .handoverWindowExpiry s s) ∧
  (∀ (s : State) (l : List Claim), s.own.window = some (l, 0) → l ≠ [] → ∃ t w, Answers .electionWindowClose s t ∧ w ∈ l ∧
    (∀ x ∈ l, x.prio.toNat * 2 ^ 24 + x.nonce.toNat < w.prio.toNat * 2 ^ 24 + w.nonce.toNat ∨
      (x.prio.toNat * 2 ^ 24 + x.nonce.toNat = w.prio.toNat * 2 ^ 24 + w.nonce.toNat ∧ w.station ≤ x.station)) ∧
    t.own.state = 1 ∧ t.own.owner = w.station ∧ t.own.prio = w.prio ∧ t.own.nonce = w.nonce ∧ t.own.remain = s.own.ticks ∧
    t.own.window = none ∧ t.own.lock = s.own.lock ∧
    (t.sb.out.map fun g => (g.dst, g.typ, g.seq)) = (s.sb.out.map fun g => (g.dst, g.typ, g.seq)) ++
      l.map (fun x => (x.station, (if x.station = w.station then 0x0B else 0x0C : Byte), x.seq)) ∧ StoresKept s t ∧ t.err = s.err) ∧
  (∀ s : State, (∀ l, s.own.window ≠ some (l, 0)) → Answers .electionWindowClose s s)

/-- R386, R387, R389, R390, R393, R429: a collision sends one of the frames being driven to its backoff of at most 2^n slots, n the
attempts that have failed, and after the sixteenth the frame is abandoned and counted, an ALERT to be queued again; the end of its slots
drives it again. A pending ALERT goes to the owner, and waits for one; with STREAM at 1 and its period over, a pair of EVENT frames goes
to SDST, or is shed while other work waits. -/
def Obligations.CollisionsAlertsAndEvents : Prop :=
  (∀ s : State, mgcUp s = true → s.sb.out ≠ [] → ∃ t i f, Answers .sidebandCollision s t ∧ s.sb.out[i]? = some f ∧
    t.sb.out = s.sb.out.eraseIdx i ∧ t.sb.rxq = s.sb.rxq ∧ StoresKept s t ∧ t.err = s.err ∧
    ((∀ r ∈ s.sb.retry, r.slots = 0 → r.f ≠ f) → t.own = s.own ∧ t.sb.requeue = s.sb.requeue ∧
      ∃ k, 1 ≤ k ∧ k ≤ 2 ∧ t.sb.retry = s.sb.retry ++ [⟨f, 1, k, s.clock.refc⟩]) ∧
    (∀ r, s.sb.retry.find? (fun r => r.slots == 0 && r.f == f) = some r →
      (r.attempts + 1 < 16 → t.own = s.own ∧ t.sb.requeue = s.sb.requeue ∧ ∃ k, 1 ≤ k ∧ k ≤ 2 ^ min (r.attempts + 1) 8 ∧
        t.sb.retry = s.sb.retry.erase r ++ [⟨f, r.attempts + 1, k, s.clock.refc⟩]) ∧
      (16 ≤ r.attempts + 1 → t.own = { s.own with aband := satCount 8 (s.own.aband + 1) } ∧ t.sb.retry = s.sb.retry.erase r ∧
        t.sb.requeue = (s.sb.requeue || f.typ == 0x10)))) ∧
  (∀ s : State, mgcUp s = false ∨ s.sb.out = [] → Answers .sidebandCollision s s) ∧
  (∀ (s : State) (r : Retry), mgcUp s = true →
    s.sb.retry.find? (fun r => r.slots != 0 && decide (r.since + 38 + 200 * (r.slots - 1) ≤ s.clock.refc)) = some r →
    Answers .sidebandBackoffExpiry s { s with sb := { s.sb with
      out := s.sb.out ++ [r.f], retry := s.sb.retry.map fun x => if x = r then { x with slots := 0 } else x } }) ∧
  (∀ s : State, (∀ r ∈ s.sb.retry, r.slots = 0 ∨ s.clock.refc < r.since + 38 + 200 * (r.slots - 1)) →
    Answers .sidebandBackoffExpiry s s) ∧
  (∀ s : State, mgcUp s = true → s.err.alert = true → s.own.state ≠ 0 →
    ∃ t g, Answers .alert s t ∧ t.sb = { s.sb with out := s.sb.out ++ [g] } ∧ g.dst = s.own.owner ∧ g.typ = 0x10 ∧
      g.payload = wordsBytes [errFirstWord s, word s.rst.cause.toNat, s.s63] ∧ t.err = { s.err with alert := false } ∧
      t.own = s.own ∧ StoresKept s t) ∧
  (∀ s : State, s.err.alert = false ∨ s.own.state = 0 → Answers .alert s s) ∧
  (∀ s : State, mgcUp s = true → s.cnt.stream = true → s.cnt.sper.toNat ≤ s.cnt.sinceStream →
    (mgcBusy s = false → ∃ t g h, Answers .event s t ∧ t.sb = { s.sb with out := s.sb.out ++ [g, h] } ∧ g.dst = s.cnt.sdst ∧
      h.dst = s.cnt.sdst ∧ g.typ = 0x11 ∧ h.typ = 0x11 ∧ g.payload.head? = some 0 ∧ h.payload.head? = some 1 ∧
      t.cnt.sinceStream = 0 ∧ StoresKept s t ∧ t.own = s.own ∧ t.err = s.err) ∧
    (mgcBusy s = true → ∃ t, Answers .event s t ∧ t.sb = s.sb ∧ t.cnt.shed = satCount 16 (s.cnt.shed + 1) ∧
      t.cnt.sinceStream = 0 ∧ StoresKept s t ∧ t.own = s.own ∧ t.err = s.err)) ∧
  (∀ s : State, s.cnt.stream = false ∨ s.cnt.sinceStream < s.cnt.sper.toNat → Answers .event s s)

/-- R411, R417, R418, R419, R420: IMG_CTL, IMG_WINDOW and the hash registers load, end, abort and activate an image slot, and
the patch registers begin, fill, end and apply a patch file, each in the states that allow it, and are refused with BUSY or STATE in the
others; a load beyond its length ends in SIZE, and a changed hash of a VALID slot makes it HASH. -/
def Obligations.ImageAndPatchCommandsAct : Prop :=
  (∀ b : Bool, Makes 3 (.imgBegin · b) (fun s => slotInUse s b = false ∧ (imgSlot s !b).status ≠ 1 ∧ (imgSlot s !b).status ≠ 2)
      (fun u => setImgSlot b ⟨1, [], none, 0⟩ { u with
        img := { u.img with bytes := 0 }, imgUpset := u.imgUpset.filter fun p => p.1 / 8192 != b2n b })) ∧
  (∀ b : Bool, Refuses 3 (.imgBegin · b)
      (fun s => slotInUse s b = true ∨ (imgSlot s !b).status = 1 ∨ (imgSlot s !b).status = 2) 5 id) ∧
  (∀ b : Bool, Makes 3 (.imgEnd · b) (fun s => (imgSlot s b).status = 1)
      (fun u => setImgSlot b { imgSlot u b with status := 2 } u)) ∧
  (∀ b : Bool, Refuses 3 (.imgEnd · b) (fun s => (imgSlot s b).status ≠ 1) 7 id) ∧
  (∀ b : Bool, Makes 3 (.imgAbort · b) (fun s => slotInUse s b = false) (setImgSlot b ImgSlot.empty)) ∧
  (∀ b : Bool, Refuses 3 (.imgAbort · b) (fun s => slotInUse s b = true) 5 id) ∧
  (∀ (b : Bool) (held : Option Nat), Makes 3 (.activate · b) (fun s => (imgSlot s b).status = 3 ∧ (s.pwr.state = 1 ∨ s.pwr.state = 2) ∧
        queuesEmpty s = true ∧ firstBusyChan s = none ∧ s.img.pend = false ∧ stepDone s 9 = true ∧
        (match held with | none => s.issue.stop = .none | some e0 => s.issue.stop = .hold e0 ∨ s.issue.stop = .holdWait e0))
      (fun u => { u with pwr := { u.pwr with state := 2, hwhy := 2 }
                         issue := { u.issue with stop := .actRun b held (installDue u b) } })) ∧
  (∀ b : Bool, Refuses 3 (.activate · b) (fun s => (imgSlot s b).status ≠ 3) 7 id) ∧
  (∀ b : Bool, Refuses 3 (.activate · b) (fun s => (imgSlot s b).status = 3 ∧ ((s.pwr.state ≠ 1 ∧ s.pwr.state ≠ 2) ∨
        queuesEmpty s = false ∨ firstBusyChan s ≠ none ∨ s.img.pend = true)) 5 id) ∧
  (∀ (b : Bool) (w : Word), Makes 3 (.imgWindow · w)
      (fun s => (imgSlot s b).status = 1 ∧ (b = true → s.img.a.status ≠ 1) ∧ s.img.bytes + 4 ≤ 65536 ∧
        (12 ≤ (imgSlot s b).bytes.length → s.img.bytes + 4 ≤ leNat (((imgSlot s b).bytes.drop 8).take 4)))
      (fun u => setImgSlot b { imgSlot u b with bytes := (imgSlot u b).bytes ++ wordBytes w } { u with
        img := { u.img with bytes := u.img.bytes + 4 }
        imgUpset := mset 0 u.imgUpset (8192 * b2n b + (imgSlot u b).bytes.length / 8) 0 })) ∧
  (∀ (b : Bool) (w : Word), Refuses 3 (.imgWindow · w)
      (fun s => (imgSlot s b).status = 1 ∧ (b = true → s.img.a.status ≠ 1) ∧ (65536 < s.img.bytes + 4 ∨
        (12 ≤ (imgSlot s b).bytes.length ∧ leNat (((imgSlot s b).bytes.drop 8).take 4) < s.img.bytes + 4))) 7
      (fun u => setImgSlot b { imgSlot u b with status := 0xF } u)) ∧
  (∀ w : Word, Refuses 3 (.imgWindow · w) (fun s => s.img.a.status ≠ 1 ∧ s.img.b.status ≠ 1) 7 id) ∧
  (∀ (b : Bool) (i : BitVec 3) (w : Word), Makes 3 (.imgHashWrite · b i w)
      (fun s => slotInUse s b = false ∨ (if b then s.img.hashB else s.img.hashA).getD i.toNat 0 = w)
      (fun u =>
        let h := (if b then u.img.hashB else u.img.hashA).set i.toNat w
        let v := if b then { u with img := { u.img with hashB := h } } else { u with img := { u.img with hashA := h } }
        if (imgSlot u b).status = 3 ∧ slotInUse u b = false ∧ leNat (wordsBytes h) ≠ (imgSlot u b).body then
          setImgSlot b { imgSlot u b with status := 0xB } v else v)) ∧
  (∀ (b : Bool) (i : BitVec 3) (w : Word), Refuses 3 (.imgHashWrite · b i w)
      (fun s => slotInUse s b = true ∧ (if b then s.img.hashB else s.img.hashA).getD i.toNat 0 ≠ w) 5 id) ∧
  Makes 4 .patchBegin (fun _ => True) (fun u => { u with dbg := { u.dbg with status := 1, bytes := [] } }) ∧
  Makes 4 .patchEnd (fun s => s.dbg.status = 1) (fun u => { u with dbg := { u.dbg with status := 2 } }) ∧
  Refuses 4 .patchEnd (fun s => s.dbg.status ≠ 1) 7 id ∧
  (∀ w : Word, Makes 4 (.patchWindow · w) (fun s => s.dbg.status = 1 ∧ s.dbg.bytes.length + 4 ≤ 8192)
      (fun u => { u with dbg := { u.dbg with bytes := u.dbg.bytes ++ wordBytes w } })) ∧
  (∀ w : Word, Refuses 4 (.patchWindow · w) (fun s => s.dbg.status = 1 ∧ 8192 < s.dbg.bytes.length + 4) 7
      (fun u => { u with dbg := { u.dbg with status := 0xF } })) ∧
  (∀ w : Word, Refuses 4 (.patchWindow · w) (fun s => s.dbg.status ≠ 1) 7 id) ∧
  (∀ (s : State) (r : Req), Orders r 0x07 4 s → s.dbg.status = 3 → s.pwr.state ≠ 0 →
    ∃ t l, Answers (.patchApply r) s t ∧ Acked r { heard s with dbg := { s.dbg with level := l }, free := s.free + 1 } t) ∧
  Refuses 4 .patchApply (fun s => s.dbg.status ≠ 3 ∨ s.pwr.state = 0) 7 id

/-- R342, R351, R352, R400, R404, R407, R411, R424, R459: the owner's commands set the ownership lock, close the enrolment, name or
withdraw a successor, change an enrolment entry, lock debug, clear the first error, set the stall limit, write, copy and commit routes
and clear the counters; a value with a reserved bit or an illegal field is refused with VALUE, a locked register with RO, and a change of
the owner's or the successor's entry with STATE. Route writes and copies wait while a copy or an installation runs. A read of
ROUTE_DATA or of a counter's low word answers its value, and captures the high word. -/
def Obligations.OwnerCommandsSetTheirRegisters : Prop :=
  Makes 2 .ownLock (fun _ => True) (fun u => { u with own := { u.own with lock := true } }) ∧
  Makes 2 .eopenClear (fun _ => True) (fun u => { u with own := { u.own with eopen := false } }) ∧
  (∀ b : Byte, Makes 2 (.ownHandover · b) (fun s => b ≠ 0xFF ∧ ∃ i, enrolIdx s b = some i ∧ (s.own.enrol.getD i EnrolEnt.init).claim = true)
      (fun u => { u with own := { u.own with succ := b, win := 8, state := 2 } })) ∧
  Makes 2 (.ownHandover · 0xFF) (fun _ => True)
      (fun u => { u with own := { u.own with succ := 0xFF, win := 0, state := if u.own.state = 2 then 1 else u.own.state } }) ∧
  (∀ b : Byte, Refuses 2 (.ownHandover · b) (fun s => b ≠ 0xFF ∧ (enrolIdx s b = none ∨
        ∃ i, enrolIdx s b = some i ∧ (s.own.enrol.getD i EnrolEnt.init).claim = false)) 4 id) ∧
  (∀ (n : BitVec 4) (w : Word),
    let st : Byte := BitVec.ofNat 8 (wfld w 7 0)
    let bad : State → Prop := fun s => w &&& 0x3F00FF00 ≠ 0 ∨
      (wbit w 31 = true ∧ (wfld w 7 0 < 0x40 ∨ wfld w 7 0 = 0xFF ∨ ∃ i, enrolIdx s st = some i ∧ i ≠ n.toNat))
    let guarded : State → Prop := fun s =>
      let old := s.own.enrol.getD n.toNat EnrolEnt.init
      old.v = true ∧ (old.station = s.own.owner ∨ (s.own.state = 2 ∧ old.station = s.own.succ)) ∧ w ≠ old.word
    Makes 2 (.enrol · n w) (fun s => ¬bad s ∧ ¬guarded s)
      (fun u =>
        let old := u.own.enrol.getD n.toNat EnrolEnt.init
        let e : EnrolEnt := ⟨wbit w 31, wbit w 30, BitVec.ofNat 8 (wfld w 23 16), st,
          if wbit w 31 = true ∧ old.v = true ∧ old.station = st then old.last else none⟩
        { u with own := { u.own with enrol := u.own.enrol.set n.toNat e } }) ∧
    Refuses 2 (.enrol · n w) bad 4 id ∧ Refuses 2 (.enrol · n w) (fun s => ¬bad s ∧ guarded s) 7 id) ∧
  Makes 4 .dbgLock (fun _ => True) (fun u => { u with dbg := { u.dbg with lock := true } }) ∧
  Makes 4 .errFirstClear (fun _ => True)
      (fun u => { u with err := { u.err with v := false, more := 0, code := 0, info := [0x70000000, 0, 0, 0, 0, 0, 0] } }) ∧
  (∀ w : Word, Makes 4 (.stallCtlWrite · w) (fun s => s.own.lock = false ∧ w.toNat < 2 ^ 25)
      (fun u => { u with sync := { u.sync with stallLimit := w.toNat, stall := 0 } })) ∧
  (∀ w : Word, Refuses 4 (.stallCtlWrite · w) (fun s => s.own.lock = true) 3 id) ∧
  (∀ w : Word, Refuses 4 (.stallCtlWrite · w) (fun s => s.own.lock = false ∧ 2 ^ 25 ≤ w.toNat) 4 id) ∧
  (∀ w : Word, Makes 4 (.routeDataWrite · w)
      (fun s => w &&& 0x1F000000 = 0 ∧ s.fab.copying = false ∧ installing s = false ∧ s.fab.waiting = [] ∧ s.fab.active = false)
      (fun u => { u with routeUpset := mset 0 u.routeUpset (4096 + u.fab.routeIdx.toNat) 0
                         fab := { u.fab with routes1 := mset 0 u.fab.routes1 u.fab.routeIdx.toNat w
                                             routeIdx := u.fab.routeIdx + 1 } })) ∧
  (∀ w : Word, Makes 4 (.routeDataWrite · w)
      (fun s => w &&& 0x1F000000 = 0 ∧ s.fab.copying = false ∧ installing s = false ∧ s.fab.waiting = [] ∧ s.fab.active = true)
      (fun u => { u with routeUpset := mset 0 u.routeUpset u.fab.routeIdx.toNat 0
                         fab := { u.fab with routes0 := mset 0 u.fab.routes0 u.fab.routeIdx.toNat w
                                             routeIdx := u.fab.routeIdx + 1 } })) ∧
  (∀ w : Word, Makes 4 (.routeDataWrite · w) (fun s => w &&& 0x1F000000 = 0 ∧ (s.fab.copying = true ∨ installing s = true))
      (fun u => { u with fab := { u.fab with waiting := u.fab.waiting ++ [some (u.fab.routeIdx.toNat, w)]
                                             routeIdx := u.fab.routeIdx + 1 } })) ∧
  (∀ w : Word, Refuses 4 (.routeDataWrite · w) (fun _ => w &&& 0x1F000000 ≠ 0) 4 id) ∧
  Makes 4 .routeCopy (fun s => s.fab.copying = false ∧ installing s = false ∧ s.fab.waiting = [])
      (fun u => { u with fab := { u.fab with copying := true } }) ∧
  Makes 4 .routeCopy (fun s => s.fab.copying = true ∨ installing s = true)
      (fun u => { u with fab := { u.fab with waiting := u.fab.waiting ++ [none] } }) ∧
  Makes 4 .routeCommit (fun _ => True) (fun u => { u with fab := { u.fab with commit := true } }) ∧
  (∀ (s : State) (r : Req), Orders r 0x07 4 s → s.cnt.sper ≠ 0 → 0x40 ≤ s.cnt.sdst.toNat → s.cnt.sdst.toNat ≤ 0xFE →
    ∃ t, Answers (.cntClr r) s t ∧ Acked r (heard s) t ∧ t.cnt.cyc = 0 ∧ t.cnt.cycSnap = 0 ∧ t.cnt.snapBeat = 0 ∧
      t.cnt.snaps = List.replicate 16 0 ∧ t.cnt.cap = [] ∧ t.cnt.en = s.cnt.en ∧ t.cnt.sel = s.cnt.sel ∧ t.cnt.snap = s.cnt.snap ∧
      t.cnt.stream = s.cnt.stream ∧ (s.cnt.en = false → t.cnt.val = List.replicate 16 0 ∧ t.cnt.ovf = 0)) ∧
  (∀ (s : State) (r : Req), Asks r.src r.dst r.seq 0x05 4 s → ∃ t, Answers (.routeDataRead r) s t ∧
    Replies r.src r.seq 0x06 ([4, 0x40, 1, 0] ++ wordBytes (mget 0 (if s.fab.active then s.fab.routes0 else s.fab.routes1)
        s.fab.routeIdx.toNat))
      { heard s with fab := { s.fab with routeIdx := s.fab.routeIdx + 1 } } t) ∧
  (∀ (s : State) (r : Req) (a : BitVec 16) (v : Nat), Asks r.src r.dst r.seq 0x05 4 s → cntValue (heard s) a.toNat = some v →
    ∃ t, Answers (.cntLoRead r a) s t ∧ Replies r.src r.seq 0x06 (leBytes 2 a.toNat ++ [1, 0] ++ wordBytes (word v)) (heard s) t ∧
      t.cnt.cap.head? = some (a.toNat, word (v >>> 32)))

/-- R439, R448, R449, R465, R476, R479, R486: an accepted RST_CMD asserts its reset, and an accepted request for Shallows or Off puts the
core to sleep, each after its ACK; ARM_CHECK starts the arm check, or ends it with RANGE, a restore from the partner begins to ask for it
and one from the pool reads its header and, where the checks pass, initialises the pool and the operand cache but for the checkpoint
area (log 89); a self-test starts at once in Idle, in Hold or while halted, is queued in Run and in a stop where QUEUE is 1, and is
refused with BUSY there where it is 0. -/
def Obligations.ResetSleepAndTestCommandsAct : Prop :=
  (∀ (s : State) (r : Req) (c : Instr) (reach : Nat), (c, reach) ∈ [(Instr.rstCmdCold r, 1), (.rstCmdWarm r, 2), (.rstCmdData r, 3)] →
    Orders r 0x07 2 s → ∃ v, Acked r (heard s) v ∧ Answers c s (assertReset 3 reach v)) ∧
  (∀ (s : State) (r : Req) (eng : BitVec 3), Orders r 0x07 2 s → eng.toNat ≤ 6 →
    (s.pwr.state = 1 ∨ s.pwr.state = 2 ∨ s.pins.pondHalt = true) →
    ∃ v, Acked r (heard s) v ∧ Answers (.rstCmdEngine r eng) s (engineReset eng.toNat v)) ∧
  (∀ eng : BitVec 3, eng.toNat ≤ 6 → Refuses 2 (.rstCmdEngine · eng)
    (fun s => s.pwr.state ≠ 1 ∧ s.pwr.state ≠ 2 ∧ s.pins.pondHalt = false) 7 id) ∧
  Refuses 2 (.rstCmdEngine · 7) (fun _ => True) 4 id ∧
  (∀ (s : State) (r : Req) (c : Instr) (st : Nat), (c, st) ∈ [(Instr.enterShallows r, 3), (.enterOff r, 4)] → Orders r 0x07 4 s →
    (s.pwr.state = 1 ∨ s.pwr.state = 2) → s.rcv.cmdq = [] → s.fab.outst = [] → s.fab.recv = [] → s.pwr.wcnt < 65536 →
    ∃ v t, Acked r (heard s) v ∧ Answers c s t ∧ t = enterSleep st v ∧ t.pwr.state = st ∧ t.pwr.ready = false ∧
      t.fab.link = false ∧ t.img.cur = Image.null ∧ t.sregs = [] ∧ t.descs = [] ∧ t.flags = [] ∧ t.job = s.job) ∧
  (∀ c ∈ [Instr.enterShallows, .enterOff], Refuses 4 c (fun s => s.pwr.wcnt < 65536 ∧
    ((s.pwr.state ≠ 1 ∧ s.pwr.state ≠ 2) ∨ s.rcv.cmdq ≠ [] ∨ s.fab.outst ≠ [] ∨ s.fab.recv ≠ [])) 7 id) ∧
  (∀ (s : State) (r : Req) (w : Word), Orders r 0x07 4 s → wbit w 31 = true → w &&& 0x1FFF = 0 → s.ckpt.copy = none →
    let ok := ckptBase s % 256 = 0 ∧ inArea s 1 (ckptBase s) (ckptBase s + 2 * ckptLen s - 1) = true
    ∃ t, Answers (.armCheck r w) s t ∧ t.ckpt.tseq.toNat = wfld w 28 13 ∧ t.ckpt.rcv = wbit w 29 ∧
      t.ckpt.sameAck = (if s.own.lock then s.ckpt.sameAck else wbit w 30) ∧ StoresKept s t ∧ t.own.owner = s.own.owner ∧ t.err = s.err ∧
      (ok → t.ckpt.state = 1 ∧ t.ckpt.arm = true ∧ t.ckpt.probe = some s.clock.refc) ∧
      (¬ok → t.ckpt.state = 0xB ∧ t.ckpt.arm = false ∧ t.ckpt.probe = none ∧ t.fab.txq = s.fab.txq)) ∧
  (∀ (s : State) (r : Req) (w : Word), Orders r 0x07 4 s → wfld w 2 0 = 2 → w &&& 0x1FF8 = 0 → restoreReady s = true →
    ∃ t, Answers (.restoreRemote r w) s t ∧ t.ckpt.state = 4 ∧ t.ckpt.restore = some ⟨2, [], 0, []⟩ ∧ StoresKept s t ∧ t.err = s.err) ∧
  (∀ (s : State) (r : Req) (w : Word), Orders r 0x07 4 s → w &&& 0x1FF8 = 0 → restoreReady s = false →
    (wfld w 2 0 = 1 → ∃ t, Answers (.restoreLocal r w) s t ∧ Nacked r 7 (heard s) t) ∧
    (wfld w 2 0 = 2 → ∃ t, Answers (.restoreRemote r w) s t ∧ Nacked r 7 (heard s) t) ∧
    (wfld w 2 0 = 3 → ∃ t, Answers (.restoreHeld r w) s t ∧ Nacked r 7 (heard s) t)) ∧
  (∀ (s : State) (r : Req) (w : Word) (c : Instr) (kind base : Nat),
    (c, kind, base) ∈ [(Instr.restoreLocal r w, 1, ckptBase s), (.restoreHeld r w, 3, replicaBase s)] → Orders r 0x07 4 s →
    wfld w 2 0 = kind → wbit w 31 = false → w &&& 0x1FF8 = 0 → restoreReady s = true → Readable s base 256 →
    s.canonical = true →
    let h := readBytes s.pool.mem base 256
    let k := (armReg false { s with ckpt := { s.ckpt with
      sameAck := if s.own.lock then s.ckpt.sameAck else wbit w 30, rcv := wbit w 29, tseq := BitVec.ofNat 16 (wfld w 28 13) } })
    let lo := max (areaRange s 1).1 (ckptBase s)
    let hi := min (areaRange s 1).2 (ckptBase s + 2 * ckptLen s)
    (restoreHdrOk k kind true h = true → ∃ t, Answers c s t ∧ t.ckpt.state = 4 ∧ t.ckpt.restore = some ⟨kind, h, 1, []⟩ ∧
      t.err.fresh = s.err.fresh ∧ t.ocache = [] ∧
      (∀ a, mget (0 : Byte) t.pool.mem a = if lo ≤ a ∧ a < hi then mget 0 s.pool.mem a else 0) ∧
      t.sregs = s.sregs ∧ t.descs = s.descs ∧ t.flags = s.flags ∧ t.scales = s.scales ∧ t.crs = s.crs ∧ t.chans = s.chans) ∧
    (restoreHdrOk k kind true h = false → ∃ t, Answers c s t ∧ t.ckpt.state = 0xC ∧ t.ckpt.restore = none ∧
      t.err.fresh = s.err.fresh ∧ PoolAlone s t ∧ t.pool.mem = s.pool.mem)) ∧
  (∀ (c : Req → Instr) (q : Bool) (cmd : Nat),
    (c, cmd) ∈ [((Instr.lbist · q), 1), ((Instr.bufferMbist · q), 2), ((Instr.poolMbist · q), 3), ((Instr.selfTestAll · q), 4)] →
    let later : State → Prop := fun s => halted s = false ∧ (s.pwr.state = 0 ∨ inStop s = true)
    Makes 4 c (fun s => s.st.run = none ∧ stepDone s 9 = true ∧ ¬later s)
      (fun u => { u with out := { u.out with sprRdy := false }, st := { u.st with run := some (cmd, false), state := 2 } }) ∧
    (q = true → Makes 4 c (fun s => s.st.run = none ∧ stepDone s 9 = true ∧ later s)
      (fun u => { u with st := { u.st with queued := some cmd, state := 1 } })) ∧
    (q = false → Refuses 4 c (fun s => s.st.run = none ∧ stepDone s 9 = true ∧ later s) 5 id) ∧
    Refuses 4 c (fun s => s.st.run ≠ none ∨ stepDone s 9 = false) 5 id)

/-- R285, R416, R421, R423, R427, R455: a closed slot is checked, and is VALID only where its LEN field is its length, its MAGIC, TARGET
and hash are right; an IMGSW mark whose work has completed begins the installation of its VALID slot, faults with IMG_INVALID where the slot
is not VALID and with IMG_CHAN where a channel holds a line, with both where both hold; when its switch is over the slot's image is in
force, areas that both partitions keep hold their bytes and every other byte is 0, and the program's registers, flags and channels stay. -/
def Obligations.ImagesAreCheckedAndInstalled : Prop :=
  (∀ s : State, awake s = true → stepDone s 5 = true → s.img.a.status = 2 → imgFlaws false s = [] →
    let c := checkImage s.cfg (leNat (wordsBytes s.img.hashA)) s.img.a.bytes
    Answers .imageCheckComplete s { s with img := { s.img with
      a := { s.img.a with status := c.1, image := c.2.2, body := c.2.1 } } }) ∧
  (∀ s : State, awake s = true → stepDone s 5 = true → s.img.a.status ≠ 2 → s.img.b.status = 2 → imgFlaws true s = [] →
    let c := checkImage s.cfg (leNat (wordsBytes s.img.hashB)) s.img.b.bytes
    Answers .imageCheckComplete s { s with img := { s.img with
      b := { s.img.b with status := c.1, image := c.2.2, body := c.2.1 } } }) ∧
  (∀ (c : Cfg) (expect : Nat) (bs : List Byte), (checkImage c expect bs).1 = 3 →
    bs.length = leNat ((bs.drop 8).take 4) ∧ bs.take 4 = [0x43, 0x59, 0x4E, 0x53] ∧ leNat ((bs.drop 0x10).take 4) = structId c ∧
      leNat (sha256 (bs.drop 64)) = expect ∧ sha256 (bs.drop 64) = (bs.drop 0x14).take 32 ∧
      (checkImage c expect bs).2.2.isSome = true) ∧
  (∀ (s : State) (b : Bool) (e0 edges : Nat), s.issue.stop = .imgWait b e0 edges →
    let stopped := { s with issue := { s.issue with stop := .none } }
    (workDone s = false ∨ halted s = true → Answers .imageInstallStart s s) ∧
    (workDone s = true → halted s = false → (imgSlot s b).status ≠ 3 → firstBusyChan s = none → Answers .imageInstallStart s
      (raise 0xA0 (FaultCtx.args (b2n b) (imgSlot s b).status) stopped)) ∧
    (∀ c, workDone s = true → halted s = false → (imgSlot s b).status ≠ 3 → firstBusyChan s = some c → Answers .imageInstallStart s
      (raise 0x0F (FaultCtx.args (b2n b) c) (raise 0xA0 (FaultCtx.args (b2n b) (imgSlot s b).status) stopped))) ∧
    (∀ c, workDone s = true → halted s = false → (imgSlot s b).status = 3 → firstBusyChan s = some c → Answers .imageInstallStart s
      (raise 0x0F (FaultCtx.args (b2n b) c) stopped)) ∧
    (workDone s = true → halted s = false → (imgSlot s b).status = 3 → firstBusyChan s = none → Answers .imageInstallStart s { s with
      pwr := { s.pwr with state := 2, hwhy := 2 }
      issue := { s.issue with stop := .imgRun b e0 edges (installDue s b) } })) ∧
  (∀ (s : State) (b : Bool) (held : Option Nat) (e0 edges due : Nat) (im : Image),
    s.issue.stop = .imgRun b e0 edges due ∨ s.issue.stop = .actRun b held due →
    (imgSlot s b).image = some im → imgFlaws b s = [] → s.canonical = true →
    (s.clock.clk < due → Answers .installationComplete s s) ∧
    (due ≤ s.clock.clk → ∃ t, Answers .installationComplete s t ∧ t.img.cur = im ∧ t.img.infV = true ∧ t.img.inf = b ∧
      t.img.pend = false ∧
      (s.issue.stop = .imgRun b e0 edges due → t.issue.stop = .imgDone e0 edges) ∧
      (s.issue.stop = .actRun b held due → t.pwr.hwhy = 0 ∧ t.pwr.state = (if held.isSome then 2 else 1) ∧
        t.issue.stop = match held with | some e => .hold e | none => .none) ∧
      (let kept : Nat → Prop := fun a => ∃ x, x < 5 ∧ areaKept s.img.cur.areas im.areas x = true ∧
          (im.areas.getD x ⟨0, 0, false⟩).first * bankBytes s ≤ a ∧
          a < ((im.areas.getD x ⟨0, 0, false⟩).first + (im.areas.getD x ⟨0, 0, false⟩).nb) * bankBytes s
       (∀ a, kept a → mget (0 : Byte) t.pool.mem a = mget 0 s.pool.mem a) ∧
       ∀ a, ¬kept a → mget (0 : Byte) t.pool.mem a = 0) ∧
      (∀ l, im.counters = some l → t.cnt.sel = if s.cnt.keep then s.cnt.sel else l) ∧
      (im.counters = none → t.cnt.sel = s.cnt.sel) ∧ t.fab.active = (s.fab.active != im.routes.isSome) ∧
      t.sregs = s.sregs ∧ t.descs = s.descs ∧ t.flags = s.flags ∧ t.chans = s.chans ∧ t.job = s.job ∧ t.own = s.own ∧
      (s.img.cur.power.testBit 121 = false ∨ im.power.testBit 121 = true → t.crs = s.crs) ∧
      (s.img.cur.power.testBit 122 = false ∨ im.power.testBit 122 = true → t.scales = s.scales) ∧
      t.mxa.acc = [] ∧ t.mxb.acc = [] ∧ t.mxa.isOpen = false ∧ t.mxb.isOpen = false))

/-- R342, R343, R344, R352, R411, R463, R464, R465, R468, R469, R479, R486: a CKPT mark whose work has completed stops the core for its
checkpoint, or faults where it may not; a restore whose image is whole writes the image back and ends with the digest's answer; the
arm check times out after 100,000 cycles; the clk that brings a core's stalled clk to its limit faults with DEADLOCK and captures
STALL_SNAP; a self-test, a patch check and a route copy leave their result. -/
def Obligations.LongOperationsEnd : Prop :=
  (∀ (s : State) (snap : Bool) (e0 edges : Nat), s.issue.stop = .ckptWait snap e0 edges →
    (workDone s = false ∨ halted s = true → Answers .ckptStopEntry s s) ∧
    (halted s = false → workDone s = true →
      (∀ code a, stopFault s snap = some (code, a) → Answers .ckptStopEntry s
        (raise (byte code) (if code = 0x0B then FaultCtx.none else ⟨none, none, none, ckptStatusWord s, word a⟩) s)) ∧
      (stopFault s snap = none → Answers .ckptStopEntry s { s with
        pwr := { s.pwr with state := 2, hwhy := 1 }
        issue := { s.issue with stop := .ckptReady snap e0 edges (stopBeats s) } }))) ∧
  (∀ (s : State) (r : Restore) (base : Nat) (body : List Byte), s.ckpt.restore = some r →
    (r.kind = 1 ∧ base = ckptBase s) ∨ (r.kind = 3 ∧ base = replicaBase s) → r.header ≠ [] → s.canonical = true →
    Readable s (base + 256) (ckptLen s - 256) → body = readBytes s.pool.mem (base + 256) (ckptLen s - 256) →
    ∃ t, Answers .restoreComplete s t ∧ t.ckpt.restore = none ∧
      (digestOf body = leNat ((r.header.drop 0x28).take 8) → t.ckpt.state = 5 ∧ t.ckpt.lvalid = decide (r.kind = 1) ∧
        t.ckpt.lseq.toNat = leNat ((r.header.drop 0x0C).take 2) ∧ Restored body t ∧ t.chans = s.chans ∧ t.ocache = s.ocache) ∧
      (digestOf body ≠ leNat ((r.header.drop 0x28).take 8) → t.ckpt.state = 0xD ∧ ProgramCleared s t)) ∧
  (∀ (s : State) (p : Nat), s.ckpt.probe = some p → s.ckpt.state = 1 →
    (p + 100000 ≤ s.clock.refc → Answers .armProbeTimeout s
      { s with ckpt := { s.ckpt with state := 9, arm := false, probe := none } }) ∧
    (s.clock.refc < p + 100000 → Answers .armProbeTimeout s s)) ∧
  (∀ s : State,
    (s.sync.stallLimit ≠ 0 → s.clock.skip = false → stalled s = true → s.sync.stallLimit ≤ s.sync.stall + 1 →
      Answers .stallLimitReached s (raise 0x82 FaultCtx.none { s with sync := { s.sync with
        snap := (List.range 7).map (snapWord s) ++ [snapWait s, s.s63] } })) ∧
    (s.sync.stallLimit = 0 ∨ s.clock.skip = true ∨ stalled s = false ∨ s.sync.stall + 1 < s.sync.stallLimit →
      Answers .stallLimitReached s s)) ∧
  (∀ (s : State) (cmd : Nat) (fail : Option Byte), s.st.run = some (cmd, false) →
    ∃ t, Answers (.selfTestComplete fail) s t ∧ t.st.run = none ∧ t.st.state = (if fail.isSome then 4 else 3) ∧
      t.st.last = cmd ∧ t.st.unit = fail.getD 0xFF ∧ t.st.runs = satCount 16 (s.st.runs + 1) ∧ ProgramCleared s t) ∧
  (∀ (s : State) (cmd : Nat) (fail : Option Byte), s.st.run = some (cmd, true) → s.canonical = true →
    Readable s (ckptBase s) (ckptLen s) →
    let img := readBytes s.pool.mem (ckptBase s) (ckptLen s)
    let body := img.drop 256
    restoreHdrOk s 1 false (img.take 256) = true → digestOf body = leNat ((img.drop 0x28).take 8) →
    ∃ t, Answers (.selfTestComplete fail) s t ∧ t.st.run = none ∧ t.st.state = (if fail.isSome then 4 else 3) ∧
      t.st.last = cmd ∧ t.st.unit = fail.getD 0xFF ∧ t.st.failNow = fail.isSome ∧ t.ckpt.state = s.ckpt.state ∧ Restored body t ∧
      t.ocache = []) ∧
  (∀ (s : State) (fail : Option Byte), s.st.run = none → Answers (.selfTestComplete fail) s s) ∧
  (∀ s : State, s.dbg.status = 2 → Answers .patchCheckComplete s { s with dbg := { s.dbg with
    status := if sha256 s.dbg.bytes = wordsBytes s.dbg.hash then 3 else 0xB } }) ∧
  (∀ s : State, s.dbg.status ≠ 2 → Answers .patchCheckComplete s s) ∧
  (∀ s : State, s.fab.copying = true → installing s = false → s.fab.waiting = [] → s.routeUpset = [] →
    Answers .routeCopyComplete s { s with fab := { s.fab with
      routes1 := if s.fab.active then s.fab.routes1 else s.fab.routes0
      routes0 := if s.fab.active then s.fab.routes1 else s.fab.routes0
      copying := false } }) ∧
  (∀ s : State, s.fab.copying = false ∨ installing s = true → Answers .routeCopyComplete s s)
end

