-- ==== Sys2Proof/Laws/Store.lean ====
section
/-! SUPPORT. The laws of the sparse stores: a read after a write, and that every operation of the pool's bytes keeps the
canonical form. -/

namespace Sys2Proof.Machine

/-! ## Keys above a bound -/

theorem keysAbove_of_lt {α : Type} {a b : Nat} (h : a ≤ b) : ∀ m : List (Nat × α), keysAbove m b = true → keysAbove m a = true
  | [], _ => rfl
  | (k, _) :: t, w => by
    simp only [keysAbove, Bool.and_eq_true, decide_eq_true_eq] at w ⊢
    exact ⟨by omega, keysAbove_of_lt h t w.2⟩

theorem mget_above {α : Type} {d : α} {k : Nat} : ∀ m : List (Nat × α), keysAbove m k = true → mget d m k = d
  | [], _ => rfl
  | (a, _) :: t, w => by
    simp only [keysAbove, Bool.and_eq_true, decide_eq_true_eq] at w
    simp [mget, show ¬ k = a by omega, mget_above t w.2]

theorem keysAbove_mset {α : Type} [DecidableEq α] {d : α} {n k : Nat} {v : α} (hk : n < k) :
    ∀ m : List (Nat × α), keysAbove m n = true → keysAbove (mset d m k v) n = true
  | [], _ => by unfold mset; split <;> simp [keysAbove, hk]
  | (a, x) :: t, w => by
    have w' := w
    simp only [keysAbove, Bool.and_eq_true, decide_eq_true_eq] at w'
    unfold mset
    split
    · split
      · exact w
      · simp [keysAbove, hk, w']
    · split
      · split
        · exact w'.2
        · simp [keysAbove, hk, w']
      · simp [keysAbove, w'.1, keysAbove_mset hk t w'.2]

theorem keysAbove_filter {α : Type} {n : Nat} {p : Nat × α → Bool} :
    ∀ m : List (Nat × α), keysAbove m n = true → keysAbove (m.filter p) n = true
  | [], _ => rfl
  | (a, x) :: t, w => by
    simp only [keysAbove, Bool.and_eq_true, decide_eq_true_eq] at w
    simp only [List.filter]
    split
    · simp [keysAbove, w.1, keysAbove_filter t w.2]
    · exact keysAbove_filter t w.2

/-! ## The canonical form -/

theorem mwf_mset {α : Type} [DecidableEq α] {d : α} {k : Nat} {v : α} :
    ∀ m : List (Nat × α), mwf d m = true → mwf d (mset d m k v) = true
  | [], _ => by unfold mset; split <;> simp_all [mwf, keysAbove]
  | (a, x) :: t, w => by
    have w' := w
    simp only [mwf, Bool.and_eq_true, decide_eq_true_eq] at w'
    obtain ⟨⟨hx, ha⟩, ht⟩ := w'
    unfold mset
    split
    next hlt =>
      split
      · exact w
      · simp_all [mwf, keysAbove, keysAbove_of_lt (Nat.le_of_lt hlt) t]
    next =>
      split
      next heq => split <;> simp_all [mwf]
      next =>
        have := keysAbove_mset (d := d) (v := v) (show a < k by omega) t ha
        simp_all [mwf, mwf_mset t ht]

theorem mwf_filter {α : Type} [DecidableEq α] {d : α} {p : Nat × α → Bool} :
    ∀ m : List (Nat × α), mwf d m = true → mwf d (m.filter p) = true
  | [], _ => rfl
  | (a, x) :: t, w => by
    simp only [mwf, Bool.and_eq_true, decide_eq_true_eq] at w
    simp only [List.filter]
    split
    · simp [mwf, w.1.1, keysAbove_filter t w.1.2, mwf_filter t w.2]
    · exact mwf_filter t w.2

/-- Every write of bytes keeps the canonical form. -/
theorem wf_writeBytes : ∀ (bs : List Byte) (m : List Host.Cell) (a : Nat), Memory.wf m = true →
    Memory.wf (writeBytes m a bs) = true
  | [], _, _, h => h
  | _ :: bs, m, a, h => wf_writeBytes bs _ _ (mwf_mset m h)

/-! ## Reads after writes -/

theorem mget_mset_same {α : Type} [DecidableEq α] {d : α} {k : Nat} {v : α} :
    ∀ m : List (Nat × α), mwf d m = true → mget d (mset d m k v) k = v
  | [], _ => by unfold mset; split <;> simp_all [mget]
  | (a, x) :: t, w => by
    simp only [mwf, Bool.and_eq_true, decide_eq_true_eq] at w
    obtain ⟨⟨_, ha⟩, ht⟩ := w
    unfold mset
    split
    next hlt =>
      split
      next hv =>
        have := mget_above (d := d) t (keysAbove_of_lt (Nat.le_of_lt hlt) t ha)
        simp [mget, show ¬ k = a by omega, this, hv]
      · simp [mget]
    next =>
      split
      next heq =>
        subst heq
        split
        next hv => simp [mget_above (d := d) t ha, hv]
        · simp [mget]
      next hne => simp [mget, hne, mget_mset_same t ht]

theorem mget_mset_other {α : Type} [DecidableEq α] {d : α} {j k : Nat} {v : α} (h : j ≠ k) :
    ∀ m : List (Nat × α), mget d (mset d m k v) j = mget d m j
  | [] => by unfold mset; split <;> simp [mget, h]
  | (a, x) :: t => by
    unfold mset
    split
    · split <;> simp [mget, h]
    · split
      next heq =>
        subst heq
        split
        · simp [mget, h]
        · simp [mget, h]
      next => simp [mget, mget_mset_other h t]

/-- A byte outside the bytes written reads as before. -/
theorem mget_writeBytes_outside {j : Nat} : ∀ (bs : List Byte) (m : List Host.Cell) (a : Nat),
    (j < a ∨ a + bs.length ≤ j) → mget (0 : Byte) (writeBytes m a bs) j = mget 0 m j
  | [], _, _, _ => rfl
  | b :: bs, m, a, ho => by
    simp only [List.length_cons] at ho
    simp only [writeBytes]
    rw [mget_writeBytes_outside bs _ (a + 1) (by omega), mget_mset_other (by omega) m]

/-- A byte of those written reads as it was written. -/
theorem mget_writeBytes_inside {j : Nat} : ∀ (bs : List Byte) (m : List Host.Cell) (a : Nat), Memory.wf m = true →
    j < bs.length → mget (0 : Byte) (writeBytes m a bs) (a + j) = bs.getD j 0
  | [], _, _, _, hj => absurd hj (Nat.not_lt_zero _)
  | b :: bs, m, a, h, hj => by
    simp only [writeBytes]
    cases j with
    | zero =>
      rw [mget_writeBytes_outside bs _ (a + 1) (by omega)]
      simpa using mget_mset_same m h
    | succ j =>
      have := mget_writeBytes_inside (j := j) bs (mset 0 m a b) (a + 1) (mwf_mset m h) (by simpa using hj)
      simpa [show a + (j + 1) = a + 1 + j by omega] using this

end Sys2Proof.Machine
end

