-- ==== Sys2Proof/Laws/Keeps.lean ====
section
/-! SUPPORT. Keeps: what every command and every tick keeps, with the rules by which a proof that an operation keeps it goes
through the operation's text. Each operation of Machine/ has one lemma keeps_<name> in the files that follow. -/

namespace Sys2Proof.Machine

/-- What every command and every tick keeps: the licence parameters, the queue of waiting commands, the canonical form of the
sparse stores. -/
structure Keeps (s t : State) : Prop where
  cfg : t.cfg = s.cfg
  pending : t.pending = s.pending
  canonical : s.canonical = true → t.canonical = true
  fit : s.queuesFit = true → t.queuesFit = true

theorem Keeps.refl (s : State) : Keeps s s := ⟨rfl, rfl, id, id⟩

theorem Keeps.trans {s t u : State} (h : Keeps s t) (k : Keeps t u) : Keeps s u :=
  ⟨k.cfg.trans h.cfg, k.pending.trans h.pending, fun c => k.canonical (h.canonical c), fun c => k.fit (h.fit c)⟩

/-- A state that differs in none of what Keeps speaks of. -/
theorem Keeps.same {r s t : State} (h : Keeps r s) (h1 : t.cfg = s.cfg) (h2 : t.pending = s.pending)
    (h3 : t.pool.mem = s.pool.mem) (h4 : t.pool.poison = s.pool.poison) (h5 : t.sregs = s.sregs) (h6 : t.descs = s.descs)
    (h7 : t.flags = s.flags) (h8 : t.scales = s.scales) (h9 : t.ocache = s.ocache) (h10 : t.crs = s.crs) (h11 : t.q = s.q) : Keeps r t :=
  ⟨h1.trans h.cfg, h2.trans h.pending, fun c => by
    have := h.canonical c
    simpa [State.canonical, h3, h4, h5, h6, h7, h8, h9, h10] using this, fun c => by
    have := h.fit c
    simpa [State.queuesFit, h11] using this⟩

/-- A state whose sparse stores stay canonical. -/
theorem Keeps.stores {r s t : State} (h : Keeps r s) (h1 : t.cfg = s.cfg) (h2 : t.pending = s.pending) (h0 : t.q = s.q)
    (h3 : Memory.wf s.pool.mem = true → Memory.wf t.pool.mem = true)
    (h4 : mwf false s.pool.poison = true → mwf false t.pool.poison = true)
    (h5 : mwf (0 : Word) s.sregs = true → mwf (0 : Word) t.sregs = true)
    (h6 : mwf W8.zero s.descs = true → mwf W8.zero t.descs = true)
    (h7 : mwf (0 : BitVec 16) s.flags = true → mwf (0 : BitVec 16) t.flags = true)
    (h8 : mwf ScaleRec.init s.scales = true → mwf ScaleRec.init t.scales = true)
    (h9 : Memory.wf s.ocache = true → Memory.wf t.ocache = true)
    (h10 : mwf crDefault s.crs = true → mwf crDefault t.crs = true) : Keeps r t :=
  ⟨h1.trans h.cfg, h2.trans h.pending, fun c => by
    have k := h.canonical c
    simp only [State.canonical, Bool.and_eq_true] at k ⊢
    obtain ⟨⟨⟨⟨⟨⟨⟨a, b⟩, c⟩, d⟩, e⟩, f⟩, g⟩, i⟩ := k
    exact ⟨⟨⟨⟨⟨⟨⟨h3 a, h4 b⟩, h5 c⟩, h6 d⟩, h7 e⟩, h8 f⟩, h9 g⟩, h10 i⟩, fun c => by
    have := h.fit c
    simpa [State.queuesFit, h0] using this⟩

theorem Keeps.fst {α : Type} {r t : State} {b : α} {p : State × α} (e : p = (t, b)) (h : Keeps r p.1) : Keeps r t := by
  subst e; exact h

theorem Keeps.snd {α : Type} {r t : State} {a : α} {p : α × State} (e : p = (a, t)) (h : Keeps r p.2) : Keeps r t := by
  subst e; exact h

theorem Keeps.mid {α β : Type} {r t : State} {a : α} {b : β} {p : α × State × β} (e : p = (a, t, b)) (h : Keeps r p.2.1) :
    Keeps r t := by
  subst e; exact h

theorem Keeps.third {α β γ : Type} {r t : State} {a : α} {b : β} {c : γ} {p : α × β × State × γ} (e : p = (a, b, t, c))
    (h : Keeps r p.2.2.1) : Keeps r t := by
  subst e; exact h

theorem Keeps.thirdLast {α β : Type} {r t : State} {a : α} {b : β} {p : α × β × State} (e : p = (a, b, t))
    (h : Keeps r p.2.2) : Keeps r t := by
  subst e; exact h

theorem Keeps.foldl {α : Type} {r : State} {f : State → α → State} (hf : ∀ s a, Keeps r s → Keeps r (f s a)) :
    ∀ (l : List α) {s : State}, Keeps r s → Keeps r (l.foldl f s)
  | [], _, h => h
  | a :: t, _, h => Keeps.foldl hf t (hf _ a h)

theorem Keeps.foldlFst {α β : Type} {r : State} {f : State × β → α → State × β}
    (hf : ∀ (s : State × β) a, Keeps r s.1 → Keeps r (f s a).1) :
    ∀ (l : List α) {s : State × β}, Keeps r s.1 → Keeps r (l.foldl f s).1
  | [], _, h => h
  | a :: t, _, h => Keeps.foldlFst hf t (hf _ a h)

theorem Keeps.foldlSnd {α β : Type} {r : State} {f : β × State → α → β × State}
    (hf : ∀ (s : β × State) a, Keeps r s.2 → Keeps r (f s a).2) :
    ∀ (l : List α) {s : β × State}, Keeps r s.2 → Keeps r (l.foldl f s).2
  | [], _, h => h
  | a :: t, _, h => Keeps.foldlSnd hf t (hf _ a h)

theorem Keeps.upd {r s : State} {p : Pool} {x_straps : Straps} {x_strapPins : Straps} {x_pins : Pins} {x_out : Outs} {x_clock : Clocks} {x_rcv : Rcv} {x_issue : Issue} {x_live : List Live} {x_gates : List Gate} {x_started : List Nat} {x_mxa : ArrState} {x_mxb : ArrState} {x_turn : Turn} {x_vec : VecState} {x_ocUpset : List (Nat × Nat)} {x_flagUpset : List (Nat × Nat)} {x_descUpset : List (Nat × Nat)} {x_routeUpset : List (Nat × Nat)} {x_imgUpset : List (Nat × Nat)} {x_rsu : RsuState} {x_mov : MovState} {x_syn : SynState} {x_scl : SclState} {x_chans : List Chan} {x_s63 : Word} {x_scaleNow : List (Nat × ScaleEv)} {x_flagOld : List (Nat × BitVec 16)} {x_fab : FabState} {x_job : Job} {x_own : Own} {x_sb : Sideband} {x_dbg : Dbg} {x_img : Img} {x_cnt : Cnt} {x_err : Err} {x_sync : Sync} {x_ckpt : Ckpt} {x_st : SelfTest} {x_rst : Rst} {x_trim : Trim} {x_pwr : Pwr} {x_tap : Tap} {x_undo : Option Undo} {x_free : Nat}
    (h : Keeps r s) (hm : p.mem = s.pool.mem) (hp : p.poison = s.pool.poison) :
    Keeps r (State.mk s.cfg x_straps x_strapPins x_pins x_out x_clock x_rcv x_issue s.q x_live x_gates x_started x_mxa x_mxb x_turn x_vec s.ocache x_ocUpset x_flagUpset x_descUpset x_routeUpset x_imgUpset x_rsu s.crs x_mov x_syn x_scl x_chans p s.sregs x_s63 s.descs s.scales x_scaleNow s.flags x_flagOld x_fab x_job x_own x_sb x_dbg x_img x_cnt x_err x_sync x_ckpt x_st x_rst x_trim x_pwr x_tap x_undo x_free s.pending) :=
  h.same rfl rfl hm hp rfl rfl rfl rfl rfl rfl rfl

theorem Keeps.ite {c : Prop} [Decidable c] {r a b : State} (ha : Keeps r a) (hb : Keeps r b) : Keeps r (if c then a else b) := by
  split
  · exact ha
  · exact hb


theorem Keeps.iteFst {β : Type} {c : Prop} [Decidable c] {r : State} {a b : State × β} (ha : Keeps r a.1) (hb : Keeps r b.1) :
    Keeps r (if c then a else b).1 := by
  split
  · exact ha
  · exact hb

theorem getQ_setQ_ne {i j : Nat} {l : List Entry} {s : State} (hi : i < 7) (hj : j < 7) (h : i ≠ j) :
    getQ (setQ i l s) j = getQ s j := by
  interval_cases i <;> interval_cases j <;> first | rfl | exact absurd rfl h

theorem getQ_congr {s t : State} (h : t.q = s.q) (j : Nat) : getQ t j = getQ s j := by
  unfold getQ
  rw [h]

theorem storeOf_above {α : Type} [DecidableEq α] {d : α} : ∀ (l : List α) (n k : Nat), k < n → keysAbove (storeOf d n l) k = true
  | [], _, _, _ => rfl
  | x :: xs, n, k, h => by
    unfold storeOf
    split
    · exact storeOf_above xs (n + 1) k (by omega)
    · simp [keysAbove, h, storeOf_above xs (n + 1) k (by omega)]

theorem mwf_storeOf {α : Type} [DecidableEq α] {d : α} : ∀ (l : List α) (n : Nat), mwf d (storeOf d n l) = true
  | [], _ => rfl
  | x :: xs, n => by
    unfold storeOf
    split
    · exact mwf_storeOf xs _
    · simp_all [mwf, storeOf_above xs (n + 1) n (by omega), mwf_storeOf xs (n + 1)]

theorem wf_cacheWrites : ∀ (l : List (Nat × Nat × Nat)) (oc : List (Nat × Byte)), Memory.wf oc = true →
    Memory.wf (l.foldl cacheWrite oc) = true
  | [], _, h => h
  | _ :: t, _, h => wf_cacheWrites t _ (wf_writeBytes _ _ _ h)

/-- A queue that only shrinks stays within its eight entries. -/
theorem Keeps.queues {r s t : State} (h : Keeps r s) (h1 : t.cfg = s.cfg) (h2 : t.pending = s.pending)
    (hc : s.canonical = true → t.canonical = true) (hq : s.queuesFit = true → t.queuesFit = true) : Keeps r t :=
  ⟨h1.trans h.cfg, h2.trans h.pending, fun c => hc (h.canonical c), fun c => hq (h.fit c)⟩

theorem Keeps.setQ {z s : State} {i : Nat} {l : List Entry} (hl : l.length ≤ 8) (h : Keeps z s) :
    Keeps z (Sys2Proof.Machine.setQ i l s) := by
  refine h.queues ?_ ?_ ?_ ?_
  · unfold Sys2Proof.Machine.setQ; split <;> rfl
  · unfold Sys2Proof.Machine.setQ; split <;> rfl
  · unfold Sys2Proof.Machine.setQ; split <;> exact id
  · unfold Sys2Proof.Machine.setQ State.queuesFit
    split <;> simp <;> omega

structure KeepsOpt {α : Type} (z : State) (pr : α → State) (o : Option α) : Prop where
  of : ∀ x, o = some x → Keeps z (pr x)

theorem KeepsOpt.none {α : Type} {z : State} {pr : α → State} : KeepsOpt z pr Option.none := ⟨fun _ h => nomatch h⟩

theorem KeepsOpt.some {α : Type} {z : State} {pr : α → State} {x : α} (h : Keeps z (pr x)) : KeepsOpt z pr (Option.some x) :=
  ⟨fun _ e => by cases e; exact h⟩

theorem KeepsOpt.someId {z x : State} (h : Keeps z x) : KeepsOpt z id (Option.some x) := .some h

theorem KeepsOpt.someSnd {α : Type} {z x : State} {a : α} (h : Keeps z x) : KeepsOpt z (fun p => p.2) (Option.some (a, x)) := .some h

theorem KeepsOpt.mapSnd {α β : Type} {z : State} {f : α × State → β × State} {o : Option (α × State)}
    (hf : ∀ a t, Keeps z t → Keeps z (f (a, t)).2) (h : KeepsOpt z (fun p => p.2) o) : KeepsOpt z (fun p => p.2) (o.map f) := by
  cases o with
  | none => exact .none
  | some x => exact .some (hf _ _ (h.of x rfl))

theorem KeepsOpt.map {α β : Type} {z : State} {pr : α → State} {qr : β → State} {f : α → β} {o : Option α}
    (hf : ∀ x, Keeps z (pr x) → Keeps z (qr (f x))) (h : KeepsOpt z pr o) : KeepsOpt z qr (o.map f) := by
  cases o with
  | none => exact .none
  | some x => exact .some (hf x (h.of x rfl))

theorem KeepsOpt.orElse {α : Type} {z : State} {pr : α → State} {a : Option α} {b : Unit → Option α} (h : KeepsOpt z pr a)
    (k : ∀ u, KeepsOpt z pr (b u)) : KeepsOpt z pr (a.orElse b) := by
  cases a with
  | none => exact k ()
  | some x => exact h

theorem KeepsOpt.bindSnd {α β : Type} {z : State} {qr : β → State} {o : Option (α × State)} {f : α × State → Option β}
    (h : KeepsOpt z (fun p => p.2) o) (hf : ∀ a t, Keeps z t → KeepsOpt z qr (f (a, t))) : KeepsOpt z qr (o >>= f) := by
  cases o with
  | none => exact .none
  | some x => exact hf _ _ (h.of x rfl)

theorem KeepsOpt.ite {α : Type} {z : State} {pr : α → State} {c : Prop} [Decidable c] {a b : Option α} (ha : KeepsOpt z pr a)
    (hb : KeepsOpt z pr b) : KeepsOpt z pr (if c then a else b) := by
  split
  · exact ha
  · exact hb

structure KeepsOut (z : State) (o : Host.Outcome State Fault Refusal) : Prop where
  of : ∀ t, o = .next t → Keeps z t

theorem KeepsOut.next {z t : State} (h : Keeps z t) : KeepsOut z (.next t) := ⟨fun _ e => by cases e; exact h⟩

theorem KeepsOut.fault {z : State} {f : Fault} : KeepsOut z (.fault f) := ⟨fun _ e => nomatch e⟩

end Sys2Proof.Machine
end

