-- ==== Sys2Proof/Laws/KeepsOps.lean ====
section
/-! SUPPORT. What each operation keeps (Laws/Keeps.lean): the shared operations, operand streams, walks, packets. -/

set_option maxRecDepth 20000

namespace Sys2Proof.Machine

theorem keeps_bump {z : State} (src : ℕ) (n : ℕ) (s : State)  (hk0 : Keeps z s) : Keeps z (bump src n s) := by
  unfold bump
  try dsimp only
  iterate 14 (try any_goals first
    | with_reducible assumption | with_reducible exact fun _ _ h => h
    | with_reducible refine Keeps.foldl (fun _ _ _ => ?_) _ ?_
    | with_reducible refine Keeps.foldlFst (fun _ _ _ => ?_) _ ?_
    | with_reducible refine Keeps.foldlSnd (fun _ _ _ => ?_) _ ?_ | with_reducible refine Keeps.fst ‹_› ?_
    | with_reducible refine Keeps.snd ‹_› ?_ | with_reducible refine Keeps.mid ‹_› ?_
    | with_reducible refine Keeps.third ‹_› ?_ | with_reducible refine Keeps.thirdLast ‹_› ?_
    | with_reducible refine Keeps.ite ?_ ?_ | split | refine Keeps.upd ?_ rfl rfl)

theorem keeps_touch {z : State} (s : State)  (hk0 : Keeps z s) : Keeps z (touch s) := by
  unfold touch
  try dsimp only
  iterate 14 (try any_goals first
    | with_reducible assumption | refine Keeps.upd ?_ rfl rfl)

theorem keeps_freshBits {z : State} (w : ℕ) (s : State)  (hk0 : Keeps z s) : Keeps z (freshBits w s).2 := by
  unfold freshBits
  try dsimp only
  iterate 14 (try any_goals first
    | with_reducible assumption | refine Keeps.upd ?_ rfl rfl)

theorem keeps_freshNat {z : State} (lo : ℕ) (hi : ℕ) (s : State)  (hk0 : Keeps z s) : Keeps z (freshNat lo hi s).2 := by
  unfold freshNat
  try dsimp only
  iterate 14 (try any_goals first
    | with_reducible assumption | refine Keeps.upd ?_ rfl rfl)

theorem keeps_lowerLate {z : State} (s : State)  (hk0 : Keeps z s) : Keeps z (lowerLate s) := by
  unfold lowerLate
  try dsimp only
  iterate 14 (try any_goals first
    | with_reducible assumption | with_reducible refine Keeps.ite ?_ ?_ | split | refine Keeps.upd ?_ rfl rfl)

theorem keeps_haltEngines {z : State} (s : State)  (hk0 : Keeps z s) : Keeps z (haltEngines s) := by
  refine hk0.queues rfl rfl id fun h => ?_
  simp only [State.queuesFit, haltEngines, List.all_cons, Bool.and_eq_true] at h ⊢
  simp_all

theorem keeps_noteError {z : State} (halt : Bool) (code : Byte) (c : FaultCtx) (s : State)  (hk0 : Keeps z s) : Keeps z (noteError halt code c s) := by
  unfold noteError
  try dsimp only
  iterate 14 (try any_goals first
    | with_reducible assumption | with_reducible refine Keeps.ite ?_ ?_ | split | refine Keeps.upd ?_ rfl rfl)

theorem keeps_raise {z : State} (code : Byte) (c : FaultCtx) (s : State)  (hk0 : Keeps z s) : Keeps z (raise code c s) := by
  unfold raise
  try dsimp only
  iterate 14 (try any_goals first
    | with_reducible assumption | with_reducible apply keeps_noteError)

theorem keeps_logError {z : State} (code : Byte) (c : FaultCtx) (s : State)  (hk0 : Keeps z s) : Keeps z (logError code c s) := by
  unfold logError
  try dsimp only
  iterate 14 (try any_goals first
    | with_reducible assumption | with_reducible apply keeps_noteError)

theorem keeps_recordErrors {z : State} (s : State)  (hk0 : Keeps z s) : Keeps z (recordErrors s) := by
  unfold recordErrors
  try dsimp only
  iterate 14 (try any_goals first
    | with_reducible assumption | with_reducible exact fun _ _ h => h
    | with_reducible refine Keeps.foldl (fun _ _ _ => ?_) _ ?_
    | with_reducible refine Keeps.foldlFst (fun _ _ _ => ?_) _ ?_
    | with_reducible refine Keeps.foldlSnd (fun _ _ _ => ?_) _ ?_ | refine Keeps.upd ?_ rfl rfl)

theorem keeps_settle {z : State} (s : State)  (hk0 : Keeps z s) : Keeps z (settle s) := by
  unfold settle
  try dsimp only
  iterate 14 (try any_goals first
    | with_reducible assumption | with_reducible apply keeps_lowerLate
    | with_reducible apply keeps_recordErrors | with_reducible apply keeps_haltEngines
    | with_reducible refine Keeps.ite ?_ ?_ | split | refine Keeps.upd ?_ rfl rfl)

theorem keeps_raiseInst {z : State} (code : Byte) (slot : ℕ) (e : Entry) (s : State)  (hk0 : Keeps z s) : Keeps z (raiseInst code slot e s) := by
  unfold raiseInst
  try dsimp only
  iterate 14 (try any_goals first
    | with_reducible assumption | with_reducible apply keeps_raise)

theorem keeps_descBound {z : State} (slot : ℕ) (e : Entry) (s : State)  (hk0 : Keeps z s) : Keeps z (descBound slot e s) := by
  unfold descBound
  try dsimp only
  iterate 14 (try any_goals first
    | with_reducible assumption | with_reducible apply keeps_raiseInst)

theorem keeps_setSreg {z : State} (n : ℕ) (v : Word) (s : State)  (hk0 : Keeps z s) : Keeps z (setSreg n v s) := by
  unfold setSreg
  split
  · exact hk0.stores rfl rfl rfl id id (mwf_mset _) id id id id id
  · exact hk0

theorem keeps_descSet {z : State} (cls : ℕ) (n : ℕ) (d : W8) (s : State)  (hk0 : Keeps z s) : Keeps z (descSet cls n d s) :=
  hk0.stores rfl rfl rfl id id id (mwf_mset _) id id id id

theorem keeps_setFlag {z : State} (f : ℕ) (v : BitVec 16) (s : State)  (hk0 : Keeps z s) : Keeps z (setFlag f v s) :=
  keeps_touch _ (hk0.stores rfl rfl rfl id id id id (mwf_mset _) id id id)

theorem keeps_addFlag {z : State} (f : ℕ) (x : ℤ) (inst : Option (ℕ × Entry)) (src : ℕ) (s : State)  (hk0 : Keeps z s) : Keeps z (addFlag f x inst src s) := by
  unfold addFlag
  try dsimp only
  iterate 14 (try any_goals first
    | with_reducible assumption | with_reducible apply keeps_setFlag | with_reducible apply keeps_raise
    | with_reducible refine Keeps.fst ‹_› ?_ | with_reducible refine Keeps.snd ‹_› ?_
    | with_reducible refine Keeps.mid ‹_› ?_ | with_reducible refine Keeps.third ‹_› ?_
    | with_reducible refine Keeps.thirdLast ‹_› ?_ | with_reducible refine Keeps.ite ?_ ?_ | split
    | refine Keeps.upd ?_ rfl rfl)

theorem keeps_addLater {z : State} (f : ℕ) (x : ℤ) (inst : Option (ℕ × Entry)) (src : ℕ) (remote : Bool) (s : State)  (hk0 : Keeps z s) : Keeps z (addLater f x inst src remote s) := by
  unfold addLater
  try dsimp only
  iterate 14 (try any_goals first
    | with_reducible assumption | with_reducible apply keeps_touch | refine Keeps.upd ?_ rfl rfl)

theorem keeps_scaleSet {z : State} (n : ℕ) (r : ScaleRec) (s : State)  (hk0 : Keeps z s) : Keeps z (scaleSet n r s) :=
  hk0.stores rfl rfl rfl id id id id id (mwf_mset _) id id

theorem keeps_scaleEvent {z : State} (n : ℕ) (ev : ScaleEv) (s : State)  (hk0 : Keeps z s) : Keeps z (scaleEvent n ev s) := by
  unfold scaleEvent
  try dsimp only
  iterate 14 (try any_goals first
    | with_reducible assumption | refine Keeps.upd ?_ rfl rfl)

theorem keeps_foldInto {z : State} (n : ℕ) (vs : List FVal) (s : State)  (hk0 : Keeps z s) : Keeps z (foldInto n vs s) := by
  unfold foldInto
  try dsimp only
  iterate 14 (try any_goals first
    | with_reducible assumption | with_reducible apply keeps_scaleEvent
    | with_reducible refine Keeps.foldl (fun _ _ _ => ?_) _ ?_
    | with_reducible refine Keeps.foldlFst (fun _ _ _ => ?_) _ ?_
    | with_reducible refine Keeps.foldlSnd (fun _ _ _ => ?_) _ ?_ | with_reducible refine Keeps.ite ?_ ?_
    | split)

theorem keeps_foldAll {z : State} (l : List (ℕ × FVal)) (s : State)  (hk0 : Keeps z s) : Keeps z (foldAll l s) := by
  unfold foldAll
  try dsimp only
  iterate 14 (try any_goals first
    | with_reducible assumption | with_reducible apply keeps_foldInto | with_reducible exact fun _ _ h => h
    | with_reducible refine Keeps.foldl (fun _ _ _ => ?_) _ ?_
    | with_reducible refine Keeps.foldlFst (fun _ _ _ => ?_) _ ?_
    | with_reducible refine Keeps.foldlSnd (fun _ _ _ => ?_) _ ?_)

theorem keeps_landScales {z : State} (s : State)  (hk0 : Keeps z s) : Keeps z (landScales s) := by
  unfold landScales
  try dsimp only
  iterate 14 (try any_goals first
    | with_reducible assumption | with_reducible apply keeps_scaleSet | with_reducible exact fun _ _ h => h
    | with_reducible refine Keeps.foldl (fun _ _ _ => ?_) _ ?_
    | with_reducible refine Keeps.foldlFst (fun _ _ _ => ?_) _ ?_
    | with_reducible refine Keeps.foldlSnd (fun _ _ _ => ?_) _ ?_ | with_reducible refine Keeps.ite ?_ ?_
    | split | refine Keeps.upd ?_ rfl rfl)

theorem keeps_setChan {z : State} (c : ℕ) (x : Chan) (s : State)  (hk0 : Keeps z s) : Keeps z (setChan c x s) := by
  unfold setChan
  try dsimp only
  iterate 14 (try any_goals first
    | with_reducible assumption | refine Keeps.upd ?_ rfl rfl)

theorem keeps_chLeave {z : State} (c : ℕ) (n : ℕ) (s : State)  (hk0 : Keeps z s) : Keeps z (chLeave c n s) := by
  unfold chLeave
  try dsimp only
  iterate 14 (try any_goals first
    | with_reducible assumption | with_reducible apply keeps_setChan | with_reducible apply keeps_touch
    | refine Keeps.upd ?_ rfl rfl)

theorem keeps_chPop {z : State} (c : ℕ) (ep : ℕ) (n : ℕ) (s : State)  (hk0 : Keeps z s) : Keeps z (chPop c ep n s) := by
  unfold chPop
  try dsimp only
  iterate 14 (try any_goals first
    | with_reducible assumption | with_reducible apply keeps_chLeave | with_reducible apply keeps_touch
    | with_reducible apply keeps_setChan | with_reducible refine Keeps.ite ?_ ?_ | split
    | refine Keeps.upd ?_ rfl rfl)

theorem keeps_forkPop {z : State} (c : ℕ) (n : ℕ) (s : State)  (hk0 : Keeps z s) : Keeps z (forkPop c n s) := by
  unfold forkPop
  try dsimp only
  iterate 14 (try any_goals first
    | with_reducible assumption | with_reducible apply keeps_chLeave | with_reducible apply keeps_setChan
    | refine Keeps.upd ?_ rfl rfl)

theorem keeps_chTake {z : State} (c : ℕ) (ep : ℕ) (n : ℕ) (s : State)  (hk0 : Keeps z s) : KeepsOpt z (fun x => x.2) (chTake c ep n s) := by
  unfold chTake
  try dsimp only
  iterate 14 (try any_goals first
    | with_reducible assumption | with_reducible apply keeps_chPop | with_reducible exact KeepsOpt.none
    | with_reducible refine KeepsOpt.someSnd ?_ | with_reducible refine Keeps.ite ?_ ?_ | split)

theorem keeps_chTake' {z tt : State} {c : ℕ} {ep : ℕ} {n : ℕ} {s : State} {y0 : List Line}  (e : (chTake c ep n s) = some (y0, tt)) (hk0 : Keeps z s) : Keeps z tt :=
  (keeps_chTake _ _ _ _  hk0).of _ e

theorem keeps_chPush {z : State} (c : ℕ) (ls : List (ℕ × Bool × Bool)) (s : State)  (hk0 : Keeps z s) : Keeps z (chPush c ls s) := by
  unfold chPush
  try dsimp only
  iterate 14 (try any_goals first
    | with_reducible assumption | with_reducible apply keeps_setChan | with_reducible apply keeps_touch
    | with_reducible exact fun _ _ h => h | with_reducible refine Keeps.ite ?_ ?_ | split
    | refine Keeps.upd ?_ rfl rfl)

theorem keeps_eccReplace {z : State} (w : ℕ) (s : State)  (hk0 : Keeps z s) : Keeps z (eccReplace w s) :=
  Keeps.stores hk0 rfl rfl rfl (wf_writeBytes _ _ _) (mwf_mset _) id id id id id id

theorem keeps_eccMistake {z : State} (w : ℕ) (s : State)  (hk0 : Keeps z s) : Keeps z (eccMistake w s) := by
  unfold eccMistake
  try dsimp only
  iterate 14 (try any_goals first
    | with_reducible assumption | with_reducible apply keeps_eccReplace | with_reducible refine Keeps.ite ?_ ?_
    | split)

theorem keeps_eccMistakes {z : State} (ws : List ℕ) (s : State)  (hk0 : Keeps z s) : Keeps z (eccMistakes ws s) := by
  unfold eccMistakes
  try dsimp only
  iterate 14 (try any_goals first
    | with_reducible assumption | with_reducible apply keeps_eccMistake | with_reducible exact fun _ _ h => h
    | with_reducible refine Keeps.foldl (fun _ _ _ => ?_) _ ?_
    | with_reducible refine Keeps.foldlFst (fun _ _ _ => ?_) _ ?_
    | with_reducible refine Keeps.foldlSnd (fun _ _ _ => ?_) _ ?_ | with_reducible refine Keeps.ite ?_ ?_
    | split)

theorem keeps_eccCount {z : State} (c : ℕ) (w : ℕ) (s : State)  (hk0 : Keeps z s) : Keeps z (eccCount c w s) := by
  unfold eccCount
  try dsimp only
  iterate 14 (try any_goals first
    | with_reducible assumption | with_reducible apply keeps_bump | with_reducible refine Keeps.ite ?_ ?_
    | split | refine Keeps.upd ?_ rfl rfl)

theorem keeps_eccTouch {z : State} (w : ℕ) (s : State)  (hk0 : Keeps z s) : Keeps z (eccTouch w s) := by
  unfold eccTouch
  try dsimp only
  iterate 14 (try any_goals first
    | with_reducible assumption | with_reducible apply keeps_eccCount)

theorem keeps_bumpBank {z : State} (a : ℕ) (s : State)  (hk0 : Keeps z s) : Keeps z (bumpBank a s) := by
  unfold bumpBank
  try dsimp only
  iterate 14 (try any_goals first
    | with_reducible assumption | with_reducible apply keeps_bump | with_reducible refine Keeps.fst ‹_› ?_
    | with_reducible refine Keeps.snd ‹_› ?_ | with_reducible refine Keeps.mid ‹_› ?_
    | with_reducible refine Keeps.third ‹_› ?_ | with_reducible refine Keeps.thirdLast ‹_› ?_ | split
    | refine Keeps.upd ?_ rfl rfl)

theorem keeps_bumpRows {z : State} (a : ℕ) (n : ℕ) (s : State)  (hk0 : Keeps z s) : Keeps z (bumpRows a n s) := by
  unfold bumpRows
  try dsimp only
  iterate 14 (try any_goals first
    | with_reducible assumption | with_reducible apply keeps_bumpBank | with_reducible exact fun _ _ h => h
    | with_reducible refine Keeps.foldl (fun _ _ _ => ?_) _ ?_
    | with_reducible refine Keeps.foldlFst (fun _ _ _ => ?_) _ ?_
    | with_reducible refine Keeps.foldlSnd (fun _ _ _ => ?_) _ ?_ | with_reducible refine Keeps.ite ?_ ?_
    | split)

theorem keeps_poolRead {z : State} (a : ℕ) (n : ℕ) (s : State)  (hk0 : Keeps z s) : Keeps z (poolRead a n s).1 := by
  unfold poolRead
  try dsimp only
  iterate 14 (try any_goals first
    | with_reducible assumption | with_reducible apply keeps_eccMistakes | with_reducible apply keeps_eccTouch
    | with_reducible apply keeps_touch | with_reducible apply keeps_bumpRows
    | with_reducible exact fun _ _ h => h | with_reducible refine Keeps.foldl (fun _ _ _ => ?_) _ ?_
    | with_reducible refine Keeps.foldlFst (fun _ _ _ => ?_) _ ?_
    | with_reducible refine Keeps.foldlSnd (fun _ _ _ => ?_) _ ?_)

theorem keeps_touchRange {z : State} (a : ℕ) (n : ℕ) (s : State)  (hk0 : Keeps z s) : Keeps z (touchRange a n s).1 := by
  unfold touchRange
  try dsimp only
  iterate 14 (try any_goals first
    | with_reducible assumption | with_reducible apply keeps_eccMistakes | with_reducible apply keeps_bumpRows
    | with_reducible apply keeps_eccTouch | with_reducible exact fun _ _ h => h
    | with_reducible refine Keeps.foldl (fun _ _ _ => ?_) _ ?_
    | with_reducible refine Keeps.foldlFst (fun _ _ _ => ?_) _ ?_
    | with_reducible refine Keeps.foldlSnd (fun _ _ _ => ?_) _ ?_ | with_reducible refine Keeps.fst ‹_› ?_
    | with_reducible refine Keeps.snd ‹_› ?_ | with_reducible refine Keeps.mid ‹_› ?_
    | with_reducible refine Keeps.third ‹_› ?_ | with_reducible refine Keeps.thirdLast ‹_› ?_ | split
    | refine Keeps.upd ?_ rfl rfl)

theorem keeps_poolWriteWord {z : State} (poison : Bool) (a : ℕ) (bs : List Byte) (w : ℕ) (s : State)  (hk0 : Keeps z s) : Keeps z (poolWriteWord poison a bs w s).1 := by
  unfold poolWriteWord
  extract_lets lo hi part whole s1
  have h1 : Keeps z s1 := Keeps.ite hk0 (keeps_eccTouch _ _ (keeps_eccMistakes _ _ hk0))
  split
  · exact h1
  · exact Keeps.stores h1 rfl rfl rfl (wf_writeBytes _ _ _) (mwf_mset _) id id id id id id

theorem keeps_poolWrite {z : State} (poison : Bool) (a : ℕ) (bs : List Byte) (s : State)  (hk0 : Keeps z s) : Keeps z (poolWrite poison a bs s).1 := by
  unfold poolWrite
  try dsimp only
  iterate 14 (try any_goals first
    | with_reducible assumption | with_reducible apply keeps_poolWriteWord | with_reducible apply keeps_touch
    | with_reducible apply keeps_bumpRows | with_reducible exact fun _ _ h => h
    | with_reducible refine Keeps.foldl (fun _ _ _ => ?_) _ ?_
    | with_reducible refine Keeps.foldlFst (fun _ _ _ => ?_) _ ?_
    | with_reducible refine Keeps.foldlSnd (fun _ _ _ => ?_) _ ?_ | with_reducible refine Keeps.fst ‹_› ?_
    | with_reducible refine Keeps.snd ‹_› ?_ | with_reducible refine Keeps.mid ‹_› ?_
    | with_reducible refine Keeps.third ‹_› ?_ | with_reducible refine Keeps.thirdLast ‹_› ?_ | split)

theorem keeps_poolUe {z : State} (slot : ℕ) (e : Entry) (addr : ℕ) (ep : ℕ) (s : State)  (hk0 : Keeps z s) : Keeps z (poolUe slot e addr ep s) := by
  unfold poolUe
  try dsimp only
  iterate 14 (try any_goals first
    | with_reducible assumption | with_reducible apply keeps_raise)

theorem keeps_dequeue {z : State} (slot : ℕ) (s : State)  (hk0 : Keeps z s) : Keeps z (dequeue slot s) := by
  have h : Keeps z (setQ slot (getQ s slot).tail s) := by
    refine hk0.queues ?_ ?_ ?_ ?_
    · unfold setQ; split <;> rfl
    · unfold setQ; split <;> rfl
    · unfold setQ; split <;> exact id
    · unfold setQ getQ State.queuesFit
      split <;> simp <;> omega
  have k := keeps_bump (0x010 + slot) 1 _ h
  exact Keeps.upd k rfl rfl

theorem keeps_complete {z : State} (id : ℕ) (s : State)  (hk0 : Keeps z s) : Keeps z (complete id s) := by
  unfold complete
  try dsimp only
  iterate 14 (try any_goals first
    | with_reducible assumption | with_reducible exact fun _ _ h => h | with_reducible refine Keeps.ite ?_ ?_
    | split | refine Keeps.upd ?_ rfl rfl)

theorem keeps_completeAll {z : State} (ids : List ℕ) (s : State)  (hk0 : Keeps z s) : Keeps z (completeAll ids s) := by
  unfold completeAll
  try dsimp only
  iterate 14 (try any_goals first
    | with_reducible assumption | with_reducible apply keeps_complete | with_reducible exact fun _ _ h => h
    | with_reducible refine Keeps.foldl (fun _ _ _ => ?_) _ ?_
    | with_reducible refine Keeps.foldlFst (fun _ _ _ => ?_) _ ?_
    | with_reducible refine Keeps.foldlSnd (fun _ _ _ => ?_) _ ?_)

theorem keeps_LineOut_drainUpTo {z : State} (m : ℕ) (c : ℕ) (o : LineOut) (s : State)  (hk0 : Keeps z s) : Keeps z (LineOut.drainUpTo m c o s).2 := by
  unfold LineOut.drainUpTo
  try dsimp only
  iterate 14 (try any_goals first
    | with_reducible assumption | with_reducible apply keeps_chPush)

theorem keeps_LineOut_drain {z : State} (c : ℕ) (o : LineOut) (s : State)  (hk0 : Keeps z s) : Keeps z (LineOut.drain c o s).2 := by
  unfold LineOut.drain
  try dsimp only
  iterate 14 (try any_goals first
    | with_reducible assumption | with_reducible apply keeps_LineOut_drainUpTo)

theorem keeps_fetchAhead {z : State} (ep : ℕ) (c : ℕ) (w : ℕ) (n : ℕ) (st : InStream) (s : State)  (hk0 : Keeps z s) : Keeps z (fetchAhead ep c w n st s).2 := by
  unfold fetchAhead
  try dsimp only
  iterate 14 (try any_goals first
    | with_reducible assumption | with_reducible refine keeps_chTake' ‹_› ?_
    | with_reducible apply keeps_chTake | with_reducible exact fun _ _ h => h
    | with_reducible refine Keeps.foldl (fun _ _ _ => ?_) _ ?_
    | with_reducible refine Keeps.foldlFst (fun _ _ _ => ?_) _ ?_
    | with_reducible refine Keeps.foldlSnd (fun _ _ _ => ?_) _ ?_ | with_reducible refine Keeps.fst ‹_› ?_
    | with_reducible refine Keeps.snd ‹_› ?_ | with_reducible refine Keeps.mid ‹_› ?_
    | with_reducible refine Keeps.third ‹_› ?_ | with_reducible refine Keeps.thirdLast ‹_› ?_
    | with_reducible refine Keeps.ite ?_ ?_ | split | refine Keeps.upd ?_ rfl rfl)

theorem keeps_fetchElems {z : State} (ep : ℕ) (c : ℕ) (w : ℕ) (n : ℕ) (st : InStream) (s : State)  (hk0 : Keeps z s) : KeepsOpt z (fun x => x.2) (fetchElems ep c w n st s) := by
  unfold fetchElems
  try dsimp only
  iterate 14 (try any_goals first
    | with_reducible assumption | with_reducible refine keeps_chTake' ‹_› ?_
    | with_reducible apply keeps_chTake | with_reducible exact fun _ _ h => h
    | with_reducible exact KeepsOpt.none | with_reducible refine KeepsOpt.someSnd ?_
    | with_reducible refine KeepsOpt.mapSnd (fun _ _ _ => ?_) ?_
    | with_reducible refine Keeps.foldl (fun _ _ _ => ?_) _ ?_
    | with_reducible refine Keeps.foldlFst (fun _ _ _ => ?_) _ ?_
    | with_reducible refine Keeps.foldlSnd (fun _ _ _ => ?_) _ ?_ | with_reducible refine Keeps.fst ‹_› ?_
    | with_reducible refine Keeps.snd ‹_› ?_ | with_reducible refine Keeps.mid ‹_› ?_
    | with_reducible refine Keeps.third ‹_› ?_ | with_reducible refine Keeps.thirdLast ‹_› ?_
    | with_reducible refine Keeps.ite ?_ ?_ | split | refine Keeps.upd ?_ rfl rfl)

theorem keeps_fetchElems' {z tt : State} {ep : ℕ} {c : ℕ} {w : ℕ} {n : ℕ} {st : InStream} {s : State} {y0 : InStream}  (e : (fetchElems ep c w n st s) = some (y0, tt)) (hk0 : Keeps z s) : Keeps z tt :=
  (keeps_fetchElems _ _ _ _ _ _  hk0).of _ e

theorem keeps_pullBlocks {z : State} (ep : ℕ) (c : ℕ) (f : ℕ) (rowlen : ℕ) (len : ℕ) (n : ℕ) (x6 : ℕ) (x7 : InStream) (x8 : State)  (hk0 : Keeps z x8) : Keeps z (pullBlocks ep c f rowlen len n x6 x7 x8).2 := by
  induction x6 generalizing x7 x8 with
  | zero => exact hk0
  | succ k ih =>
    unfold pullBlocks
    dsimp only
    split
    · exact hk0
    · split
      · exact hk0
      · split
        · exact ih _ _ (keeps_chTake' ‹_› hk0)
        · exact keeps_chTake' ‹_› hk0

theorem keeps_queuePacket {z : State} (p : PktSpec) (due : ℕ) (req : Option Outst) (live : Option ℕ) (s : State)  (hk0 : Keeps z s) : KeepsOpt z id (queuePacket p due req live s) := by
  unfold queuePacket
  try dsimp only
  iterate 14 (try any_goals first
    | with_reducible assumption | with_reducible exact KeepsOpt.none | with_reducible refine KeepsOpt.someId ?_
    | with_reducible refine Keeps.fst ‹_› ?_ | with_reducible refine Keeps.snd ‹_› ?_
    | with_reducible refine Keeps.mid ‹_› ?_ | with_reducible refine Keeps.third ‹_› ?_
    | with_reducible refine Keeps.thirdLast ‹_› ?_ | split | refine Keeps.upd ?_ rfl rfl)

theorem keeps_queuePacket' {z tt : State} {p : PktSpec} {due : ℕ} {req : Option Outst} {live : Option ℕ} {s : State}   (e : (queuePacket p due req live s) = some tt) (hk0 : Keeps z s) : Keeps z tt :=
  (keeps_queuePacket _ _ _ _ _  hk0).of _ e

theorem keeps_queueInst {z : State} (slot : ℕ) (e : Entry) (p : PktSpec) (due : ℕ) (req : Option Outst) (live : Option ℕ) (s : State)  (hk0 : Keeps z s) : Keeps z (queueInst slot e p due req live s) := by
  unfold queueInst
  try dsimp only
  iterate 14 (try any_goals first
    | with_reducible assumption | with_reducible refine keeps_queuePacket' ‹_› ?_
    | with_reducible apply keeps_queuePacket | with_reducible apply keeps_raise
    | with_reducible refine Keeps.fst ‹_› ?_ | with_reducible refine Keeps.snd ‹_› ?_
    | with_reducible refine Keeps.mid ‹_› ?_ | with_reducible refine Keeps.third ‹_› ?_
    | with_reducible refine Keeps.thirdLast ‹_› ?_ | split | refine Keeps.upd ?_ rfl rfl)

theorem keeps_fabDrop {z : State} (s : State)  (hk0 : Keeps z s) : Keeps z (fabDrop s) := by
  unfold fabDrop
  try dsimp only
  iterate 14 (try any_goals first
    | with_reducible assumption | with_reducible apply keeps_bump | refine Keeps.upd ?_ rfl rfl)

theorem keeps_queueReply {z : State} (p : PktSpec) (s : State)  (hk0 : Keeps z s) : Keeps z (queueReply p s) := by
  unfold queueReply
  try dsimp only
  iterate 14 (try any_goals first
    | with_reducible assumption | with_reducible refine keeps_queuePacket' ‹_› ?_
    | with_reducible apply keeps_queuePacket | with_reducible apply keeps_fabDrop
    | with_reducible refine Keeps.fst ‹_› ?_ | with_reducible refine Keeps.snd ‹_› ?_
    | with_reducible refine Keeps.mid ‹_› ?_ | with_reducible refine Keeps.third ‹_› ?_
    | with_reducible refine Keeps.thirdLast ‹_› ?_ | split | refine Keeps.upd ?_ rfl rfl)

theorem keeps_freshTag {z : State} (s : State)  (hk0 : Keeps z s) : Keeps z (freshTag s).2 := by
  unfold freshTag
  try dsimp only
  iterate 14 (try any_goals first
    | with_reducible assumption | with_reducible exact fun _ _ h => h | with_reducible refine Keeps.fst ‹_› ?_
    | with_reducible refine Keeps.snd ‹_› ?_ | with_reducible refine Keeps.mid ‹_› ?_
    | with_reducible refine Keeps.third ‹_› ?_ | with_reducible refine Keeps.thirdLast ‹_› ?_ | split
    | refine Keeps.upd ?_ rfl rfl)

theorem keeps_handedOff {z : State} (id : ℕ) (s : State)  (hk0 : Keeps z s) : Keeps z (handedOff id s) := by
  unfold handedOff
  try dsimp only
  iterate 14 (try any_goals first
    | with_reducible assumption | with_reducible apply keeps_complete | with_reducible exact fun _ _ h => h
    | with_reducible refine Keeps.ite ?_ ?_ | split | refine Keeps.upd ?_ rfl rfl)

theorem keeps_handOver {z : State} (p : TxPkt) (s : State)  (hk0 : Keeps z s) : Keeps z (handOver p s) := by
  unfold handOver
  try dsimp only
  iterate 14 (try any_goals first
    | with_reducible assumption | with_reducible apply keeps_bump | with_reducible apply keeps_handedOff
    | with_reducible refine Keeps.fst ‹_› ?_ | with_reducible refine Keeps.snd ‹_› ?_
    | with_reducible refine Keeps.mid ‹_› ?_ | with_reducible refine Keeps.third ‹_› ?_
    | with_reducible refine Keeps.thirdLast ‹_› ?_ | with_reducible refine Keeps.ite ?_ ?_ | split
    | refine Keeps.upd ?_ rfl rfl)

theorem keeps_synDone {z : State} (e : Entry) (s : State)  (hk0 : Keeps z s) : Keeps z (synDone e s) := by
  unfold synDone
  try dsimp only
  iterate 14 (try any_goals first
    | with_reducible assumption | with_reducible apply keeps_complete | with_reducible exact fun _ _ h => h
    | with_reducible refine Keeps.ite ?_ ?_ | split | refine Keeps.upd ?_ rfl rfl)

theorem keeps_synAct {z : State} (op : ℕ) (f : Entry → State → State) (s : State) (hf : ∀ a0 a1, Keeps z a1 → Keeps z (f a0 a1)) (hk0 : Keeps z s) : Keeps z (synAct op f s) := by
  unfold synAct
  try dsimp only
  iterate 14 (try any_goals first
    | with_reducible assumption | with_reducible apply keeps_synDone | with_reducible apply keeps_dequeue
    | with_reducible apply hf | with_reducible refine Keeps.fst ‹_› ?_ | with_reducible refine Keeps.snd ‹_› ?_
    | with_reducible refine Keeps.mid ‹_› ?_ | with_reducible refine Keeps.third ‹_› ?_
    | with_reducible refine Keeps.thirdLast ‹_› ?_ | split | refine Keeps.upd ?_ rfl rfl)

theorem keeps_execFence {z : State} (s : State)  (hk0 : Keeps z s) : KeepsOut z (execFence s) :=
  .next (keeps_synAct _ _ _ (fun _ _ h => h) hk0)

theorem keeps_execTimedWaitExpiry {z : State} (s : State)  (hk0 : Keeps z s) : KeepsOut z (execTimedWaitExpiry s) := by
  unfold execTimedWaitExpiry
  try dsimp only
  iterate 14 (try any_goals first
    | with_reducible assumption | with_reducible apply keeps_raise | with_reducible refine KeepsOut.next ?_
    | with_reducible refine Keeps.fst ‹_› ?_ | with_reducible refine Keeps.snd ‹_› ?_
    | with_reducible refine Keeps.mid ‹_› ?_ | with_reducible refine Keeps.third ‹_› ?_
    | with_reducible refine Keeps.thirdLast ‹_› ?_ | with_reducible refine Keeps.ite ?_ ?_ | split
    | refine Keeps.upd ?_ rfl rfl)

theorem keeps_execRfadd {z : State} (s : State)  (hk0 : Keeps z s) : KeepsOut z (execRfadd s) := by
  unfold execRfadd
  try dsimp only
  iterate 14 (try any_goals first
    | with_reducible assumption | with_reducible apply keeps_dequeue | with_reducible apply keeps_queueInst
    | with_reducible refine KeepsOut.next ?_ | with_reducible refine Keeps.fst ‹_› ?_
    | with_reducible refine Keeps.snd ‹_› ?_ | with_reducible refine Keeps.mid ‹_› ?_
    | with_reducible refine Keeps.third ‹_› ?_ | with_reducible refine Keeps.thirdLast ‹_› ?_ | split
    | refine Keeps.upd ?_ rfl rfl)

theorem keeps_synTick {z : State} (s : State)  (hk0 : Keeps z s) : Keeps z (synTick s) := by
  unfold synTick
  try dsimp only
  iterate 14 (try any_goals first
    | with_reducible assumption | with_reducible apply keeps_bump | with_reducible apply keeps_synDone
    | with_reducible refine Keeps.fst ‹_› ?_ | with_reducible refine Keeps.snd ‹_› ?_
    | with_reducible refine Keeps.mid ‹_› ?_ | with_reducible refine Keeps.third ‹_› ?_
    | with_reducible refine Keeps.thirdLast ‹_› ?_ | with_reducible refine Keeps.ite ?_ ?_ | split
    | refine Keeps.upd ?_ rfl rfl)

theorem keeps_synBeatEdge {z : State} (s : State)  (hk0 : Keeps z s) : Keeps z (synBeatEdge s) := by
  unfold synBeatEdge
  try dsimp only
  iterate 14 (try any_goals first
    | with_reducible assumption | with_reducible refine Keeps.fst ‹_› ?_
    | with_reducible refine Keeps.snd ‹_› ?_ | with_reducible refine Keeps.mid ‹_› ?_
    | with_reducible refine Keeps.third ‹_› ?_ | with_reducible refine Keeps.thirdLast ‹_› ?_
    | with_reducible refine Keeps.ite ?_ ?_ | split | refine Keeps.upd ?_ rfl rfl)

theorem keeps_touchWords {z : State} (ws : List ℕ) (s : State)  (hk0 : Keeps z s) : Keeps z (touchWords ws s).1 := by
  unfold touchWords
  try dsimp only
  iterate 14 (try any_goals first
    | with_reducible assumption | with_reducible apply keeps_eccMistakes | with_reducible apply keeps_eccTouch
    | with_reducible apply keeps_bumpBank | with_reducible apply keeps_touch
    | with_reducible exact fun _ _ h => h | with_reducible refine Keeps.foldl (fun _ _ _ => ?_) _ ?_
    | with_reducible refine Keeps.foldlFst (fun _ _ _ => ?_) _ ?_
    | with_reducible refine Keeps.foldlSnd (fun _ _ _ => ?_) _ ?_ | with_reducible refine Keeps.ite ?_ ?_
    | with_reducible refine Keeps.iteFst ?_ ?_ | split)

theorem keeps_readElems {z : State} (bits : List (ℕ × ℕ)) (s : State)  (hk0 : Keeps z s) : Keeps z (readElems bits s).1 := by
  unfold readElems
  try dsimp only
  iterate 14 (try any_goals first
    | with_reducible assumption | with_reducible apply keeps_touchWords | with_reducible exact fun _ _ h => h
    | with_reducible refine Keeps.fst ‹_› ?_ | with_reducible refine Keeps.snd ‹_› ?_
    | with_reducible refine Keeps.mid ‹_› ?_ | with_reducible refine Keeps.third ‹_› ?_
    | with_reducible refine Keeps.thirdLast ‹_› ?_ | split)

theorem keeps_writeWordBits {z : State} (ps : List (ℕ × ℕ × ℕ × ℕ)) (w : ℕ) (s : State)  (hk0 : Keeps z s) : Keeps z (writeWordBits ps w s).1 := by
  unfold writeWordBits
  extract_lets mine cover whole s1 old new_
  have h1 : Keeps z s1 := Keeps.ite hk0 (keeps_eccTouch _ _ (keeps_eccMistakes _ _ hk0))
  split
  · exact h1
  · exact Keeps.stores h1 rfl rfl rfl (wf_writeBytes _ _ _) (mwf_mset _) id id id id id id

theorem keeps_writeElems {z : State} (els : List (ℕ × ℕ × ℕ)) (s : State)  (hk0 : Keeps z s) : Keeps z (writeElems els s).1 := by
  unfold writeElems
  try dsimp only
  iterate 20 (try any_goals first
    | with_reducible assumption | with_reducible apply keeps_writeWordBits
    | with_reducible apply keeps_bumpBank | with_reducible apply keeps_touch
    | with_reducible exact KeepsOut.fault | with_reducible refine KeepsOut.next ?_
    | with_reducible exact KeepsOpt.none | with_reducible refine KeepsOpt.someId ?_
    | with_reducible refine KeepsOpt.someSnd ?_ | with_reducible refine KeepsOpt.mapSnd (fun _ _ _ => ?_) ?_
    | with_reducible refine KeepsOpt.orElse ?_ (fun _ => ?_)
    | with_reducible refine Keeps.foldl (fun _ _ _ => ?_) _ ?_
    | with_reducible refine Keeps.foldlFst (fun _ _ _ => ?_) _ ?_
    | with_reducible refine Keeps.foldlSnd (fun _ _ _ => ?_) _ ?_ | with_reducible refine Keeps.fst ‹_› ?_
    | with_reducible refine Keeps.snd ‹_› ?_ | with_reducible refine Keeps.mid ‹_› ?_
    | with_reducible refine Keeps.third ‹_› ?_ | with_reducible refine Keeps.thirdLast ‹_› ?_
    | with_reducible refine Keeps.ite ?_ ?_ | with_reducible refine Keeps.iteFst ?_ ?_ | split
    | refine Keeps.upd ?_ rfl rfl)

theorem keeps_readLine {z : State} (g : GenStream) (l : ℕ) (s : State)  (hk0 : Keeps z s) : Keeps z (readLine g l s).1 := by
  unfold readLine
  try dsimp only
  iterate 14 (try any_goals first
    | with_reducible assumption | with_reducible apply keeps_touchWords | with_reducible exact fun _ _ h => h
    | with_reducible refine Keeps.fst ‹_› ?_ | with_reducible refine Keeps.snd ‹_› ?_
    | with_reducible refine Keeps.mid ‹_› ?_ | with_reducible refine Keeps.third ‹_› ?_
    | with_reducible refine Keeps.thirdLast ‹_› ?_ | split | refine Keeps.upd ?_ rfl rfl)

theorem keeps_writeLine {z : State} (g : GenStream) (l : ℕ) (v : ℕ) (s : State)  (hk0 : Keeps z s) : Keeps z (writeLine g l v s).1 := by
  unfold writeLine
  try dsimp only
  iterate 14 (try any_goals first
    | with_reducible assumption | with_reducible apply keeps_writeElems)

end Sys2Proof.Machine
end

