-- ==== Sys2Proof/Laws/KeepsIssue.lean ====
section
/-! SUPPORT. What each operation keeps (Laws/Keeps.lean): the spring receiver, the issue point, the resets of data. -/

set_option maxRecDepth 20000

namespace Sys2Proof.Machine

theorem keeps_poolKeep {z : State} (keep : ℕ → Bool) (s : State)  (hk0 : Keeps z s) : Keeps z (poolKeep keep s) :=
  hk0.stores rfl rfl rfl (mwf_filter _) (mwf_filter _) id id id id id id

theorem keeps_clearData {z : State} (s : State)  (hk0 : Keeps z s) : Keeps z (clearData s) := by
  refine hk0.queues rfl rfl (fun h => ?_) (fun _ => rfl)
  simp only [State.canonical, clearData, Bool.and_eq_true] at h ⊢
  obtain ⟨⟨⟨⟨⟨⟨⟨a, b⟩, c⟩, d⟩, e⟩, f⟩, g⟩, i⟩ := h
  exact ⟨⟨⟨⟨⟨⟨⟨a, b⟩, rfl⟩, rfl⟩, rfl⟩, rfl⟩, rfl⟩, rfl⟩

theorem keeps_clearWarm {z : State} (s : State)  (hk0 : Keeps z s) : Keeps z (clearWarm s) := by
  unfold clearWarm
  try dsimp only
  iterate 14 (try any_goals first
    | with_reducible assumption | with_reducible refine Keeps.ite ?_ ?_ | split | refine Keeps.upd ?_ rfl rfl)

theorem keeps_clearCold {z : State} (s : State)  (hk0 : Keeps z s) : Keeps z (clearCold s) := by
  unfold clearCold
  try dsimp only
  iterate 14 (try any_goals first
    | with_reducible assumption | refine Keeps.upd ?_ rfl rfl)

theorem keeps_loseLink {z : State} (s : State)  (hk0 : Keeps z s) : Keeps z (loseLink s) := by
  unfold loseLink
  try dsimp only
  iterate 14 (try any_goals first
    | with_reducible assumption | refine Keeps.upd ?_ rfl rfl)

theorem keeps_interruptTrim {z : State} (s : State)  (hk0 : Keeps z s) : Keeps z (interruptTrim s) := by
  unfold interruptTrim
  try dsimp only
  iterate 14 (try any_goals first
    | with_reducible assumption | with_reducible refine Keeps.fst ‹_› ?_
    | with_reducible refine Keeps.snd ‹_› ?_ | with_reducible refine Keeps.mid ‹_› ?_
    | with_reducible refine Keeps.third ‹_› ?_ | with_reducible refine Keeps.thirdLast ‹_› ?_
    | with_reducible refine Keeps.ite ?_ ?_ | split | refine Keeps.upd ?_ rfl rfl)

theorem keeps_holdSteps {z : State} (first : ℕ) (s : State)  (hk0 : Keeps z s) : Keeps z (holdSteps first s) := by
  unfold holdSteps
  try dsimp only
  iterate 14 (try any_goals first
    | with_reducible assumption | with_reducible exact fun _ _ h => h | with_reducible refine Keeps.ite ?_ ?_
    | split | refine Keeps.upd ?_ rfl rfl)

theorem keeps_wakePwr {z : State} (s : State)  (hk0 : Keeps z s) : Keeps z (wakePwr s) := by
  unfold wakePwr
  try dsimp only
  iterate 14 (try any_goals first
    | with_reducible assumption | refine Keeps.upd ?_ rfl rfl)

theorem keeps_assertReset {z : State} (bit : ℕ) (reach : ℕ) (s : State)  (hk0 : Keeps z s) : Keeps z (assertReset bit reach s) := by
  unfold assertReset
  extract_lets asleep already first src srcs layout rst0 s1 intr s2 s3 s4 s5 s6 s7 cause rst1 s8
  have h1 : Keeps z s1 := Keeps.upd hk0 rfl rfl
  have h2 : Keeps z s2 := Keeps.ite (keeps_interruptTrim _ h1) h1
  have h3 : Keeps z s3 := keeps_clearData _ h2
  have h4 : Keeps z s4 := Keeps.ite (keeps_wakePwr _ h3) h3
  have h5 : Keeps z s5 := Keeps.ite (keeps_clearWarm _ h4) h4
  have h6 : Keeps z s6 := Keeps.ite (keeps_clearCold _ h5) h5
  have h7 : Keeps z s7 := Keeps.ite (keeps_loseLink _ h6) h6
  exact keeps_holdSteps _ _ (Keeps.upd h7 rfl rfl)

theorem keeps_ctrlParity {z : State} (c : FaultCtx) (s : State)  (hk0 : Keeps z s) : Keeps z (ctrlParity c s) := by
  unfold ctrlParity
  try dsimp only
  iterate 14 (try any_goals first
    | with_reducible assumption | with_reducible apply keeps_assertReset | with_reducible apply keeps_logError)

theorem keeps_critUe {z : State} (c : FaultCtx) (s : State)  (hk0 : Keeps z s) : Keeps z (critUe c s) := by
  unfold critUe
  try dsimp only
  iterate 14 (try any_goals first
    | with_reducible assumption | with_reducible apply keeps_assertReset | with_reducible apply keeps_logError)

theorem keeps_critRead {z : State} (key : ℕ) (n : ℕ) (s : State)  (hk0 : Keeps z s) : Keeps z (critRead key n s).1 := by
  unfold critRead
  try dsimp only
  iterate 14 (try any_goals first
    | with_reducible assumption | with_reducible apply keeps_critUe | with_reducible refine Keeps.fst ‹_› ?_
    | with_reducible refine Keeps.snd ‹_› ?_ | with_reducible refine Keeps.mid ‹_› ?_
    | with_reducible refine Keeps.third ‹_› ?_ | with_reducible refine Keeps.thirdLast ‹_› ?_ | split
    | refine Keeps.upd ?_ rfl rfl)

theorem keeps_critReads {z : State} (x0 : List (ℕ × ℕ)) (x1 : State)  (hk0 : Keeps z x1) : Keeps z (critReads x0 x1).1 := by
  induction x0 generalizing x1 with
  | nil => exact hk0
  | cons p ps ih =>
    have h := keeps_critRead p.1 p.2 x1 hk0
    unfold critReads
    split
    next e => rw [e] at h; exact ih _ h
    next e => rw [e] at h; exact h

theorem keeps_descReads {z : State} (ds : List (ℕ × ℕ)) (s : State)  (hk0 : Keeps z s) : Keeps z (descReads ds s).1 := by
  unfold descReads
  try dsimp only
  iterate 14 (try any_goals first
    | with_reducible assumption | with_reducible apply keeps_critReads | with_reducible exact fun _ _ h => h
    | with_reducible refine Keeps.ite ?_ ?_ | with_reducible refine Keeps.iteFst ?_ ?_ | split)

theorem keeps_flagUse {z : State} (f : ℕ) (act : State → State) (s : State) (hact : ∀ a0, Keeps z a0 → Keeps z (act a0)) (hk0 : Keeps z s) : Keeps z (flagUse f act s) := by
  unfold flagUse
  try dsimp only
  iterate 14 (try any_goals first
    | with_reducible assumption | with_reducible apply keeps_critRead | with_reducible apply hact
    | with_reducible refine Keeps.fst ‹_› ?_ | with_reducible refine Keeps.snd ‹_› ?_
    | with_reducible refine Keeps.mid ‹_› ?_ | with_reducible refine Keeps.third ‹_› ?_
    | with_reducible refine Keeps.thirdLast ‹_› ?_ | split | refine Keeps.upd ?_ rfl rfl)

theorem keeps_landAdd {z : State} (a : FlagAdd) (s : State)  (hk0 : Keeps z s) : Keeps z (landAdd a s) := by
  unfold landAdd
  refine keeps_flagUse _ _ _ (fun t ht => ?_) hk0
  exact Keeps.ite (keeps_bump _ _ _ (keeps_addFlag _ _ _ _ _ ht)) (keeps_addFlag _ _ _ _ _ ht)

theorem keeps_landAdds {z : State} (s : State)  (hk0 : Keeps z s) : Keeps z (landAdds s) := by
  unfold landAdds
  try dsimp only
  iterate 14 (try any_goals first
    | with_reducible assumption | with_reducible apply keeps_landAdd | with_reducible exact fun _ _ h => h
    | with_reducible refine Keeps.foldl (fun _ _ _ => ?_) _ ?_
    | with_reducible refine Keeps.foldlFst (fun _ _ _ => ?_) _ ?_
    | with_reducible refine Keeps.foldlSnd (fun _ _ _ => ?_) _ ?_ | with_reducible refine Keeps.ite ?_ ?_
    | split | refine Keeps.upd ?_ rfl rfl)

theorem keeps_latchStraps {z : State} (s : State)  (hk0 : Keeps z s) : Keeps z (latchStraps s) := by
  unfold latchStraps
  try dsimp only
  iterate 14 (try any_goals first
    | with_reducible assumption | refine Keeps.upd ?_ rfl rfl)

theorem keeps_releaseWhere {z : State} (p : RstSrc → Bool) (s : State)  (hk0 : Keeps z s) : Keeps z (releaseWhere p s) := by
  unfold releaseWhere
  try dsimp only
  iterate 14 (try any_goals first
    | with_reducible assumption | with_reducible apply keeps_latchStraps | with_reducible exact fun _ _ h => h
    | with_reducible refine Keeps.ite ?_ ?_ | split | refine Keeps.upd ?_ rfl rfl)

theorem keeps_dropHoldsOf {z : State} (ends : List ℕ) (s : State)  (hk0 : Keeps z s) : Keeps z (dropHoldsOf ends s) := by
  unfold dropHoldsOf
  try dsimp only
  iterate 14 (try any_goals first
    | with_reducible assumption | with_reducible exact fun _ _ h => h | with_reducible refine Keeps.ite ?_ ?_
    | split | refine Keeps.upd ?_ rfl rfl)

theorem keeps_engineReset {z : State} (eng : ℕ) (s : State)  (hk0 : Keeps z s) : Keeps z (engineReset eng s) := by
  unfold engineReset
  extract_lets d0 s0 i1 j1 f1 s1
  have h1 : Keeps z s0 := Keeps.setQ (by simp) (Keeps.upd (keeps_dropHoldsOf _ _ hk0) rfl rfl)
  have h2 : Keeps z s1 := by
    unfold s1
    split <;> exact Keeps.upd h1 rfl rfl
  exact Keeps.upd h2 rfl rfl

theorem keeps_setHalf {z : State} (h : Bool) (x : Half) (s : State)  (hk0 : Keeps z s) : Keeps z (setHalf h x s) := by
  unfold setHalf
  try dsimp only
  iterate 14 (try any_goals first
    | with_reducible assumption | with_reducible refine Keeps.ite ?_ ?_ | split | refine Keeps.upd ?_ rfl rfl)

theorem keeps_writeBundles {z : State} (x0 : ℕ) (x1 : Load) (x2 : State)  (hk0 : Keeps z x2) : Keeps z (writeBundles x0 x1 x2).2 := by
  induction x0 generalizing x1 x2 with
  | zero => exact hk0
  | succ k ih =>
    unfold writeBundles
    dsimp only
    split
    · exact ih _ _ (Keeps.ite (keeps_setHalf _ _ _ hk0) (keeps_raise _ _ _ (keeps_setHalf _ _ _ hk0)))
    · exact hk0

theorem keeps_finishBlock {z : State} (l : Load) (s : State)  (hk0 : Keeps z s) : Keeps z (finishBlock l s) := by
  unfold finishBlock
  try dsimp only
  iterate 14 (try any_goals first
    | with_reducible assumption | with_reducible apply keeps_setHalf | with_reducible apply keeps_raise
    | with_reducible exact fun _ _ h => h | with_reducible refine Keeps.foldl (fun _ _ _ => ?_) _ ?_
    | with_reducible refine Keeps.foldlFst (fun _ _ _ => ?_) _ ?_
    | with_reducible refine Keeps.foldlSnd (fun _ _ _ => ?_) _ ?_ | with_reducible refine Keeps.ite ?_ ?_
    | split | refine Keeps.upd ?_ rfl rfl)

theorem keeps_finishDesc {z : State} (l : Load) (s : State)  (hk0 : Keeps z s) : Keeps z (finishDesc l s) := by
  unfold finishDesc
  try dsimp only
  iterate 14 (try any_goals first
    | with_reducible assumption | with_reducible apply keeps_raise | with_reducible exact fun _ _ h => h
    | with_reducible refine Keeps.fst ‹_› ?_ | with_reducible refine Keeps.snd ‹_› ?_
    | with_reducible refine Keeps.mid ‹_› ?_ | with_reducible refine Keeps.third ‹_› ?_
    | with_reducible refine Keeps.thirdLast ‹_› ?_ | with_reducible refine Keeps.ite ?_ ?_ | split
    | refine Keeps.upd ?_ rfl rfl)

theorem keeps_loadFlit {z : State} (data : BitVec 128) (l : Load) (s : State)  (hk0 : Keeps z s) : Keeps z (loadFlit data l s) := by
  unfold loadFlit
  try dsimp only
  iterate 14 (try any_goals first
    | with_reducible assumption | with_reducible apply keeps_finishDesc | with_reducible apply keeps_setHalf
    | with_reducible apply keeps_raise | with_reducible apply keeps_finishBlock
    | with_reducible apply keeps_writeBundles | with_reducible refine Keeps.fst ‹_› ?_
    | with_reducible refine Keeps.snd ‹_› ?_ | with_reducible refine Keeps.mid ‹_› ?_
    | with_reducible refine Keeps.third ‹_› ?_ | with_reducible refine Keeps.thirdLast ‹_› ?_
    | with_reducible refine Keeps.ite ?_ ?_ | split | refine Keeps.upd ?_ rfl rfl)

theorem keeps_cmdLoadBlock {z : State} (w3 : Word) (w2 : Word) (w1 : Word) (w0 : Word) (s : State)  (hk0 : Keeps z s) : Keeps z (cmdLoadBlock w3 w2 w1 w0 s) := by
  unfold cmdLoadBlock
  try dsimp only
  iterate 14 (try any_goals first
    | with_reducible assumption | with_reducible apply keeps_raise | with_reducible apply keeps_setHalf
    | with_reducible apply keeps_finishBlock | with_reducible exact fun _ _ h => h
    | with_reducible refine Keeps.ite ?_ ?_ | split | refine Keeps.upd ?_ rfl rfl)

theorem keeps_enqueue {z : State} (c : Cmd) (ctx : FaultCtx) (s : State)  (hk0 : Keeps z s) : Keeps z (enqueue c ctx s) := by
  unfold enqueue
  try dsimp only
  iterate 14 (try any_goals first
    | with_reducible assumption | with_reducible apply keeps_raise | with_reducible refine Keeps.ite ?_ ?_
    | split | refine Keeps.upd ?_ rfl rfl)

theorem keeps_cmdReplay {z : State} (w3 : Word) (w2 : Word) (w1 : Word) (w0 : Word) (s : State)  (hk0 : Keeps z s) : Keeps z (cmdReplay w3 w2 w1 w0 s) := by
  unfold cmdReplay
  try dsimp only
  iterate 14 (try any_goals first
    | with_reducible assumption | with_reducible apply keeps_raise | with_reducible apply keeps_enqueue
    | with_reducible refine Keeps.ite ?_ ?_ | split)

theorem keeps_cmdDescLoad {z : State} (w3 : Word) (w2 : Word) (w1 : Word) (w0 : Word) (s : State)  (hk0 : Keeps z s) : Keeps z (cmdDescLoad w3 w2 w1 w0 s) := by
  unfold cmdDescLoad
  try dsimp only
  iterate 14 (try any_goals first
    | with_reducible assumption | with_reducible apply keeps_raise | with_reducible refine Keeps.ite ?_ ?_
    | split | refine Keeps.upd ?_ rfl rfl)

theorem keeps_cmdBeatNo {z : State} (w3 : Word) (w2 : Word) (w1 : Word) (w0 : Word) (s : State)  (hk0 : Keeps z s) : Keeps z (cmdBeatNo w3 w2 w1 w0 s) := by
  unfold cmdBeatNo
  try dsimp only
  iterate 14 (try any_goals first
    | with_reducible assumption | with_reducible apply keeps_raise | with_reducible apply keeps_enqueue
    | with_reducible refine Keeps.ite ?_ ?_ | split)

theorem keeps_cmdResume {z : State} (w3 : Word) (w2 : Word) (w1 : Word) (w0 : Word) (s : State)  (hk0 : Keeps z s) : Keeps z (cmdResume w3 w2 w1 w0 s) := by
  unfold cmdResume
  try dsimp only
  iterate 14 (try any_goals first
    | with_reducible assumption | with_reducible apply keeps_raise | with_reducible refine Keeps.ite ?_ ?_
    | split | refine Keeps.upd ?_ rfl rfl)

theorem keeps_cmdFlit {z : State} (w3 : Word) (w2 : Word) (w1 : Word) (w0 : Word) (s : State)  (hk0 : Keeps z s) : Keeps z (cmdFlit w3 w2 w1 w0 s) := by
  unfold cmdFlit
  try dsimp only
  iterate 14 (try any_goals first
    | with_reducible assumption | with_reducible apply keeps_cmdLoadBlock
    | with_reducible apply keeps_cmdReplay | with_reducible apply keeps_cmdDescLoad
    | with_reducible apply keeps_cmdBeatNo | with_reducible apply keeps_cmdResume
    | with_reducible apply keeps_raise | with_reducible refine Keeps.fst ‹_› ?_
    | with_reducible refine Keeps.snd ‹_› ?_ | with_reducible refine Keeps.mid ‹_› ?_
    | with_reducible refine Keeps.third ‹_› ?_ | with_reducible refine Keeps.thirdLast ‹_› ?_
    | with_reducible refine Keeps.ite ?_ ?_ | split | refine Keeps.upd ?_ rfl rfl)

theorem keeps_execSpringDataFlit {z : State} (typ : BitVec 2) (data : BitVec 128) (s : State)  (hk0 : Keeps z s) : KeepsOut z (execSpringDataFlit typ data s) := by
  unfold execSpringDataFlit
  try dsimp only
  iterate 14 (try any_goals first
    | with_reducible assumption | with_reducible apply keeps_cmdFlit | with_reducible apply keeps_loadFlit
    | with_reducible apply keeps_raise | with_reducible refine KeepsOut.next ?_
    | with_reducible refine Keeps.fst ‹_› ?_ | with_reducible refine Keeps.snd ‹_› ?_
    | with_reducible refine Keeps.mid ‹_› ?_ | with_reducible refine Keeps.third ‹_› ?_
    | with_reducible refine Keeps.thirdLast ‹_› ?_ | with_reducible refine Keeps.ite ?_ ?_ | split
    | refine Keeps.upd ?_ rfl rfl)

theorem keeps_execLoadBlock {z : State} (w3 : BitVec 24) (w2 : Word) (w1 : Word) (w0 : Word) (s : State)  (hk0 : Keeps z s) : KeepsOut z (execLoadBlock w3 w2 w1 w0 s) := by
  unfold execLoadBlock
  try dsimp only
  iterate 14 (try any_goals first
    | with_reducible assumption | with_reducible apply keeps_cmdFlit | with_reducible refine KeepsOut.next ?_)

theorem keeps_execReplay {z : State} (w3 : BitVec 24) (w2 : Word) (w1 : Word) (w0 : Word) (s : State)  (hk0 : Keeps z s) : KeepsOut z (execReplay w3 w2 w1 w0 s) := by
  unfold execReplay
  try dsimp only
  iterate 14 (try any_goals first
    | with_reducible assumption | with_reducible apply keeps_cmdFlit | with_reducible refine KeepsOut.next ?_)

theorem keeps_execDescLoad {z : State} (w3 : BitVec 24) (w2 : Word) (w1 : Word) (w0 : Word) (s : State)  (hk0 : Keeps z s) : KeepsOut z (execDescLoad w3 w2 w1 w0 s) := by
  unfold execDescLoad
  try dsimp only
  iterate 14 (try any_goals first
    | with_reducible assumption | with_reducible apply keeps_cmdFlit | with_reducible refine KeepsOut.next ?_)

theorem keeps_execBeatNo {z : State} (w3 : BitVec 24) (w2 : Word) (w1 : Word) (w0 : Word) (s : State)  (hk0 : Keeps z s) : KeepsOut z (execBeatNo w3 w2 w1 w0 s) := by
  unfold execBeatNo
  try dsimp only
  iterate 14 (try any_goals first
    | with_reducible assumption | with_reducible apply keeps_cmdFlit | with_reducible refine KeepsOut.next ?_)

theorem keeps_execResume {z : State} (w3 : BitVec 24) (w2 : Word) (w1 : Word) (w0 : Word) (s : State)  (hk0 : Keeps z s) : KeepsOut z (execResume w3 w2 w1 w0 s) := by
  unfold execResume
  try dsimp only
  iterate 14 (try any_goals first
    | with_reducible assumption | with_reducible apply keeps_cmdFlit | with_reducible refine KeepsOut.next ?_)

theorem keeps_finishCmd {z : State} (c : ℕ) (s : State)  (hk0 : Keeps z s) : Keeps z (finishCmd c s) := by
  unfold finishCmd
  try dsimp only
  iterate 14 (try any_goals first
    | with_reducible assumption | refine Keeps.upd ?_ rfl rfl)

theorem keeps_retireCmd {z : State} (s : State)  (hk0 : Keeps z s) : Keeps z (retireCmd s) := by
  unfold retireCmd
  try dsimp only
  iterate 14 (try any_goals first
    | with_reducible assumption | with_reducible refine Keeps.fst ‹_› ?_
    | with_reducible refine Keeps.snd ‹_› ?_ | with_reducible refine Keeps.mid ‹_› ?_
    | with_reducible refine Keeps.third ‹_› ?_ | with_reducible refine Keeps.thirdLast ‹_› ?_
    | with_reducible refine Keeps.ite ?_ ?_ | split | refine Keeps.upd ?_ rfl rfl)

theorem keeps_execDescLoadExecute {z : State} (s : State)  (hk0 : Keeps z s) : KeepsOut z (execDescLoadExecute s) := by
  unfold execDescLoadExecute
  try dsimp only
  iterate 14 (try any_goals first
    | with_reducible assumption | with_reducible apply keeps_finishCmd | with_reducible apply keeps_descSet
    | with_reducible refine KeepsOut.next ?_ | with_reducible refine Keeps.fst ‹_› ?_
    | with_reducible refine Keeps.snd ‹_› ?_ | with_reducible refine Keeps.mid ‹_› ?_
    | with_reducible refine Keeps.third ‹_› ?_ | with_reducible refine Keeps.thirdLast ‹_› ?_
    | with_reducible refine Keeps.ite ?_ ?_ | split | refine Keeps.upd ?_ rfl rfl)

theorem keeps_execBeatNoExecute {z : State} (s : State)  (hk0 : Keeps z s) : KeepsOut z (execBeatNoExecute s) := by
  unfold execBeatNoExecute
  try dsimp only
  iterate 14 (try any_goals first
    | with_reducible assumption | with_reducible apply keeps_finishCmd | with_reducible refine KeepsOut.next ?_
    | with_reducible refine Keeps.fst ‹_› ?_ | with_reducible refine Keeps.snd ‹_› ?_
    | with_reducible refine Keeps.mid ‹_› ?_ | with_reducible refine Keeps.third ‹_› ?_
    | with_reducible refine Keeps.thirdLast ‹_› ?_ | with_reducible refine Keeps.ite ?_ ?_ | split
    | refine Keeps.upd ?_ rfl rfl)

theorem keeps_advance {z : State} (s : State)  (hk0 : Keeps z s) : Keeps z (advance s) := by
  unfold advance
  try dsimp only
  iterate 14 (try any_goals first
    | with_reducible assumption | with_reducible apply keeps_finishCmd | with_reducible refine Keeps.fst ‹_› ?_
    | with_reducible refine Keeps.snd ‹_› ?_ | with_reducible refine Keeps.mid ‹_› ?_
    | with_reducible refine Keeps.third ‹_› ?_ | with_reducible refine Keeps.thirdLast ‹_› ?_
    | with_reducible refine Keeps.ite ?_ ?_ | split | refine Keeps.upd ?_ rfl rfl)

theorem keeps_applyPatch {z : State} (h : Bool) (it : ℕ) (b : ℕ) (p : ℕ) (s : State)  (hk0 : Keeps z s) : Keeps z (applyPatch h it b p s) := by
  unfold applyPatch
  try dsimp only
  iterate 14 (try any_goals first
    | with_reducible assumption | with_reducible apply keeps_ctrlParity | with_reducible apply keeps_descReads
    | with_reducible apply keeps_bump | with_reducible apply keeps_descSet | with_reducible apply keeps_raise
    | with_reducible refine Keeps.fst ‹_› ?_ | with_reducible refine Keeps.snd ‹_› ?_
    | with_reducible refine Keeps.mid ‹_› ?_ | with_reducible refine Keeps.third ‹_› ?_
    | with_reducible refine Keeps.thirdLast ‹_› ?_ | with_reducible refine Keeps.ite ?_ ?_ | split
    | refine Keeps.upd ?_ rfl rfl)

theorem keeps_applyPatches {z : State} (h : Bool) (it : ℕ) (b : ℕ) (x3 : List ℕ) (x4 : State)  (hk0 : Keeps z x4) : Keeps z (applyPatches h it b x3 x4) := by
  induction x3 generalizing x4 with
  | nil => exact hk0
  | cons p ps ih =>
    unfold applyPatches
    dsimp only
    split
    · exact keeps_applyPatch _ _ _ _ _ hk0
    · exact ih _ (keeps_applyPatch _ _ _ _ _ hk0)

theorem keeps_execPatchListApply {z : State} (s : State)  (hk0 : Keeps z s) : KeepsOut z (execPatchListApply s) := by
  unfold execPatchListApply
  try dsimp only
  iterate 14 (try any_goals first
    | with_reducible assumption | with_reducible apply keeps_applyPatches
    | with_reducible apply keeps_finishCmd | with_reducible refine KeepsOut.next ?_
    | with_reducible exact KeepsOut.fault | with_reducible refine Keeps.fst ‹_› ?_
    | with_reducible refine Keeps.snd ‹_› ?_ | with_reducible refine Keeps.mid ‹_› ?_
    | with_reducible refine Keeps.third ‹_› ?_ | with_reducible refine Keeps.thirdLast ‹_› ?_
    | with_reducible refine Keeps.ite ?_ ?_ | split | refine Keeps.upd ?_ rfl rfl)

theorem keeps_postRecv {z : State} (e : Entry) (s : State)  (hk0 : Keeps z s) : Keeps z (postRecv e s).2 := by
  unfold postRecv
  try dsimp only
  iterate 14 (try any_goals first
    | with_reducible assumption | with_reducible refine Keeps.ite ?_ ?_ | split | refine Keeps.upd ?_ rfl rfl)

theorem keeps_raiseAll {z : State} (fs : List (ℕ × FaultCtx)) (s : State)  (hk0 : Keeps z s) : Keeps z (raiseAll fs s) := by
  unfold raiseAll
  try dsimp only
  iterate 14 (try any_goals first
    | with_reducible assumption | with_reducible apply keeps_raise | with_reducible exact fun _ _ h => h
    | with_reducible refine Keeps.foldl (fun _ _ _ => ?_) _ ?_
    | with_reducible refine Keeps.foldlFst (fun _ _ _ => ?_) _ ?_
    | with_reducible refine Keeps.foldlSnd (fun _ _ _ => ?_) _ ?_)

theorem keeps_noteIssue {z : State} (s : State)  (hk0 : Keeps z s) : Keeps z (noteIssue s) := by
  unfold noteIssue
  try dsimp only
  iterate 14 (try any_goals first
    | with_reducible assumption | with_reducible apply keeps_bump | with_reducible refine Keeps.ite ?_ ?_
    | split | refine Keeps.upd ?_ rfl rfl)

theorem keeps_enterQueue {z : State} (p : Nat × Entry) (s : State) (hl : (getQ s p.1).length < 8) (hk0 : Keeps z s) :
    Keeps z (enterQueue p s) := by
  unfold enterQueue
  have hp : ∀ r : Entry × State, r = (if postsRecv p.1 p.2 then postRecv p.2 s else (p.2, s)) → Keeps z r.2 ∧ r.2.q = s.q := by
    intro r e
    subst e
    split
    · refine ⟨keeps_postRecv _ _ hk0, ?_⟩
      unfold postRecv
      split <;> rfl
    · exact ⟨hk0, rfl⟩
  generalize hr : (if postsRecv p.1 p.2 then postRecv p.2 s else (p.2, s)) = r
  obtain ⟨k1, k2⟩ := hp r hr.symm
  obtain ⟨e, s1⟩ := r
  have hh : Keeps z (setQ p.1 (getQ s1 p.1 ++ [e]) s1) := by
    refine Keeps.setQ ?_ k1
    rw [getQ_congr k2]
    simpa using hl
  dsimp only
  split
  · exact Keeps.upd hh rfl rfl
  · split
    · exact Keeps.upd hh rfl rfl
    · exact Keeps.upd hh rfl rfl


theorem enterQueue_q (p : Nat × Entry) (s : State) : ∃ e, (enterQueue p s).q = (setQ p.1 (getQ s p.1 ++ [e]) s).q := by
  have hq : ∀ (i : Nat) (l : List Entry) (a b : State), a.q = b.q → (setQ i l a).q = (setQ i l b).q := by
    intro i l a b h
    unfold setQ
    split <;> simp [h]
  have hp : (if postsRecv p.1 p.2 then postRecv p.2 s else (p.2, s)).2.q = s.q := by
    split
    · unfold postRecv
      split <;> rfl
    · rfl
  unfold enterQueue
  generalize (if postsRecv p.1 p.2 then postRecv p.2 s else (p.2, s)) = r at hp
  obtain ⟨e, s1⟩ := r
  refine ⟨e, ?_⟩
  rw [← getQ_congr hp, ← hq _ _ _ _ hp]
  dsimp only
  split
  · rfl
  · split <;> rfl


theorem keeps_enterAll {z : State} : ∀ (l : List (Nat × Entry)) (s : State), (l.map (·.1)).Nodup →
    (∀ p ∈ l, p.1 < 7 ∧ (getQ s p.1).length < 8) → Keeps z s → Keeps z (l.foldl (fun u p => enterQueue p u) s)
  | [], _, _, _, h => h
  | p :: t, s, hn, hr, h => by
    simp only [List.map_cons, List.nodup_cons, List.mem_map, not_exists, not_and] at hn
    have hp := hr p (by simp)
    refine keeps_enterAll t _ hn.2 (fun x hx => ?_) (keeps_enterQueue p s hp.2 h)
    have hx7 := hr x (by simp [hx])
    obtain ⟨e, he⟩ := enterQueue_q p s
    refine ⟨hx7.1, ?_⟩
    rw [getQ_congr he, getQ_setQ_ne hp.1 hx7.1 (fun e => hn.1 x hx e.symm)]
    exact hx7.2


theorem getQ_noteIssue (s : State) (j : Nat) : getQ (noteIssue s) j = getQ s j := by
  refine getQ_congr ?_ j
  unfold noteIssue bump
  dsimp only
  split <;> rfl


theorem getQ_advance (s : State) (j : Nat) : getQ (advance s) j = getQ s j := by
  refine getQ_congr ?_ j
  unfold advance
  dsimp only
  repeat' split
  all_goals rfl


theorem critRead_q (k n : Nat) (s : State) (h : (critRead k n s).2 = true) : (critRead k n s).1.q = s.q := by
  unfold critRead at h ⊢
  split <;> first | rfl | simp_all


theorem critReads_q : ∀ (l : List (Nat × Nat)) (s : State), (critReads l s).2 = true → (critReads l s).1.q = s.q
  | [], _, _ => rfl
  | p :: ps, s, h => by
    unfold critReads at h ⊢
    split
    next t e =>
      rw [e] at h
      have h1 := critRead_q p.1 p.2 s (by rw [e])
      rw [e] at h1
      exact (critReads_q ps t h).trans h1
    next t e => rw [e] at h; exact absurd h (by simp)


theorem descReads_q (l : List (Nat × Nat)) (s : State) (h : (descReads l s).2 = true) : (descReads l s).1.q = s.q := by
  unfold descReads at h ⊢
  split
  · rfl
  next hc => rw [if_neg hc] at h; exact critReads_q _ _ h


theorem keeps_execBundleIssue {z : State} (s : State)  (hk0 : Keeps z s) : KeepsOut z (execBundleIssue s) := by
  unfold execBundleIssue
  split
  · dsimp only
    split
    · rename_i hc
      split
      · exact .next (keeps_ctrlParity _ _ hk0)
      · split
        next u e => exact .next (Keeps.fst e (keeps_descReads _ _ hk0))
        next u e =>
          have hu : Keeps z u := Keeps.fst e (keeps_descReads _ _ hk0)
          have hq : u.q = s.q := by
            have := descReads_q _ s (by rw [e])
            rwa [e] at this
          split
          · refine .next (keeps_enterAll _ _ ?_ ?_ (keeps_noteIssue _ (keeps_advance _ hu)))
            · simp only [bundleEntries, bundleSlots, List.map_map, Function.comp_def, List.map_id']
              exact List.Nodup.filter _ List.nodup_range
            · intro p hp
              simp only [bundleEntries, List.mem_map] at hp
              obtain ⟨i, hi, rfl⟩ := hp
              simp only [Bool.and_eq_true, roomFor, List.all_eq_true, decide_eq_true_eq] at hc
              refine ⟨?_, ?_⟩
              · simp only [bundleSlots, List.mem_filter, List.mem_range] at hi
                exact hi.1
              · rw [getQ_noteIssue, getQ_advance, getQ_congr hq]
                exact hc.1.2 i hi
          · exact .next (keeps_raiseAll _ _ (keeps_noteIssue _ (keeps_advance _ hu)))
    · exact .next hk0
  · exact .next hk0

theorem keeps_issueMark {z : State} (op : ℕ) (act : MarkAct) (b : W8) (h : Bool) (it : ℕ) (bi : ℕ) (s : State)  (hk0 : Keeps z s) : Keeps z (issueMark op act b h it bi s) := by
  unfold issueMark
  try dsimp only
  iterate 14 (try any_goals first
    | with_reducible assumption | with_reducible apply keeps_bump | with_reducible apply keeps_noteIssue
    | with_reducible apply keeps_advance | with_reducible apply keeps_lowerLate
    | with_reducible apply keeps_raise | with_reducible refine Keeps.ite ?_ ?_ | split
    | refine Keeps.upd ?_ rfl rfl)

theorem keeps_markIssue {z : State} (op : ℕ) (act : W8 → MarkAct) (f : W8 → State → State) (s : State) (hf : ∀ a0 a1, Keeps z a1 → Keeps z (f a0 a1)) (hk0 : Keeps z s) : Keeps z (markIssue op act f s) := by
  unfold markIssue
  try dsimp only
  iterate 14 (try any_goals first
    | with_reducible assumption | with_reducible apply keeps_ctrlParity | with_reducible apply keeps_issueMark
    | with_reducible apply hf | with_reducible refine Keeps.fst ‹_› ?_ | with_reducible refine Keeps.snd ‹_› ?_
    | with_reducible refine Keeps.mid ‹_› ?_ | with_reducible refine Keeps.third ‹_› ?_
    | with_reducible refine Keeps.thirdLast ‹_› ?_ | with_reducible refine Keeps.ite ?_ ?_ | split
    | refine Keeps.upd ?_ rfl rfl)

theorem keeps_execBeatMark {z : State} (s : State)  (hk0 : Keeps z s) : KeepsOut z (execBeatMark s) := by
  unfold execBeatMark
  try dsimp only
  iterate 14 (try any_goals first
    | with_reducible assumption | with_reducible apply keeps_markIssue | with_reducible exact fun _ _ h => h
    | with_reducible refine KeepsOut.next ?_)

theorem keeps_execHoldMark {z : State} (s : State)  (hk0 : Keeps z s) : KeepsOut z (execHoldMark s) := by
  unfold execHoldMark
  try dsimp only
  iterate 14 (try any_goals first
    | with_reducible assumption | with_reducible apply keeps_markIssue | with_reducible exact fun _ _ h => h
    | with_reducible refine KeepsOut.next ?_)

theorem keeps_execImgswMark {z : State} (s : State)  (hk0 : Keeps z s) : KeepsOut z (execImgswMark s) :=
  .next (keeps_markIssue _ _ _ _ (fun _ _ h => Keeps.upd h rfl rfl) hk0)

theorem keeps_execCkptMark {z : State} (s : State)  (hk0 : Keeps z s) : KeepsOut z (execCkptMark s) := by
  unfold execCkptMark
  try dsimp only
  iterate 14 (try any_goals first
    | with_reducible assumption | with_reducible apply keeps_markIssue | with_reducible exact fun _ _ h => h
    | with_reducible refine KeepsOut.next ?_)

theorem keeps_synWait {z : State} (op : ℕ) (s : State)  (hk0 : Keeps z s) : Keeps z (synWait op s) := by
  unfold synWait
  split
  · dsimp only
    have h := keeps_dequeue 5 s hk0
    split
    · exact keeps_descBound _ _ _ h
    · exact keeps_flagUse _ _ _ (fun _ ht => Keeps.upd ht rfl rfl) h
  · exact hk0

theorem keeps_execFset {z : State} (s : State)  (hk0 : Keeps z s) : KeepsOut z (execFset s) :=
  .next (keeps_synAct _ _ _ (fun _ _ h => keeps_flagUse _ _ _ (fun _ k => keeps_setFlag _ _ _ k) h) hk0)

theorem keeps_execFadd {z : State} (s : State)  (hk0 : Keeps z s) : KeepsOut z (execFadd s) :=
  .next (keeps_synAct _ _ _ (fun _ _ h => keeps_flagUse _ _ _ (fun _ k => keeps_addFlag _ _ _ _ _ k) h) hk0)

theorem keeps_execFwge {z : State} (s : State)  (hk0 : Keeps z s) : KeepsOut z (execFwge s) := by
  unfold execFwge
  try dsimp only
  iterate 14 (try any_goals first
    | with_reducible assumption | with_reducible apply keeps_synWait | with_reducible refine KeepsOut.next ?_)

theorem keeps_execFweq {z : State} (s : State)  (hk0 : Keeps z s) : KeepsOut z (execFweq s) := by
  unfold execFweq
  try dsimp only
  iterate 14 (try any_goals first
    | with_reducible assumption | with_reducible apply keeps_synWait | with_reducible refine KeepsOut.next ?_)

theorem keeps_execFtake {z : State} (s : State)  (hk0 : Keeps z s) : KeepsOut z (execFtake s) := by
  unfold execFtake
  try dsimp only
  iterate 14 (try any_goals first
    | with_reducible assumption | with_reducible apply keeps_synWait | with_reducible refine KeepsOut.next ?_)

theorem keeps_execTwge {z : State} (s : State)  (hk0 : Keeps z s) : KeepsOut z (execTwge s) := by
  unfold execTwge
  try dsimp only
  iterate 14 (try any_goals first
    | with_reducible assumption | with_reducible apply keeps_synWait | with_reducible refine KeepsOut.next ?_)

theorem keeps_execTweq {z : State} (s : State)  (hk0 : Keeps z s) : KeepsOut z (execTweq s) := by
  unfold execTweq
  try dsimp only
  iterate 14 (try any_goals first
    | with_reducible assumption | with_reducible apply keeps_synWait | with_reducible refine KeepsOut.next ?_)

theorem keeps_execTtake {z : State} (s : State)  (hk0 : Keeps z s) : KeepsOut z (execTtake s) := by
  unfold execTtake
  try dsimp only
  iterate 14 (try any_goals first
    | with_reducible assumption | with_reducible apply keeps_synWait | with_reducible refine KeepsOut.next ?_)

theorem keeps_execFlagWaitPass {z : State} (s : State)  (hk0 : Keeps z s) : KeepsOut z (execFlagWaitPass s) := by
  unfold execFlagWaitPass
  split
  · split
    · refine .next (keeps_flagUse _ _ _ (fun t ht => ?_) hk0)
      have h := keeps_bump 0x030 1 _ (keeps_synDone ‹_› t ht)
      exact Keeps.ite (keeps_addFlag _ _ _ _ _ h) h
    · exact .next hk0
  · exact .next hk0

theorem keeps_execTimedWaitProceed {z : State} (s : State)  (hk0 : Keeps z s) : KeepsOut z (execTimedWaitProceed s) := by
  unfold execTimedWaitProceed
  try dsimp only
  iterate 14 (try any_goals first
    | with_reducible assumption | with_reducible apply keeps_bump | with_reducible apply keeps_synDone
    | with_reducible apply keeps_flagUse | with_reducible apply keeps_addFlag
    | with_reducible refine KeepsOut.next ?_ | with_reducible refine Keeps.fst ‹_› ?_
    | with_reducible refine Keeps.snd ‹_› ?_ | with_reducible refine Keeps.mid ‹_› ?_
    | with_reducible refine Keeps.third ‹_› ?_ | with_reducible refine Keeps.thirdLast ‹_› ?_
    | with_reducible refine Keeps.ite ?_ ?_ | split | refine Keeps.upd ?_ rfl rfl)

end Sys2Proof.Machine
end

