-- ==== Sys2Proof/Laws/KeepsEngines.lean ====
section
/-! SUPPORT. What each operation keeps (Laws/Keeps.lean): the arrays, the vector engine, the RSU, the scalar unit. -/

set_option maxRecDepth 20000

namespace Sys2Proof.Machine

theorem keeps_setArr {z : State} (a : Arr) (x : ArrState) (s : State)  (hk0 : Keeps z s) : Keeps z (setArr a x s) := by
  unfold setArr
  try dsimp only
  iterate 14 (try any_goals first
    | with_reducible assumption | with_reducible refine Keeps.fst ‹_› ?_
    | with_reducible refine Keeps.snd ‹_› ?_ | with_reducible refine Keeps.mid ‹_› ?_
    | with_reducible refine Keeps.third ‹_› ?_ | with_reducible refine Keeps.thirdLast ‹_› ?_ | split
    | refine Keeps.upd ?_ rfl rfl)

theorem keeps_fetchGroups {z : State} (ep : ℕ) (c : ℕ) (f : ℕ) (h : ℕ) (n : ℕ) (k : ℕ) (buf : List ℕ) (scales : List ℕ) (s : State)  (hk0 : Keeps z s) : KeepsOpt z (fun x => x.2.2.2) (fetchGroups ep c f h n k buf scales s) := by
  unfold fetchGroups
  dsimp only
  split
  · exact .none
  · exact .some (keeps_chTake' ‹_› hk0)

theorem keeps_fetchGroups' {z tt : State} {ep : ℕ} {c : ℕ} {f : ℕ} {h : ℕ} {n : ℕ} {k : ℕ} {buf : List ℕ} {scales : List ℕ} {s : State} {y0 : List (List ℕ)} {y1 : List ℕ} {y2 : List ℕ}  (e : (fetchGroups ep c f h n k buf scales s) = some (y0, y1, y2, tt)) (hk0 : Keeps z s) : Keeps z tt :=
  (keeps_fetchGroups _ _ _ _ _ _ _ _ _  hk0).of _ e

theorem keeps_fetchClk {z : State} (a : Arr) (r : ArrRun) (s : State)  (hk0 : Keeps z s) : KeepsOpt z (fun x => x.2) (fetchClk a r s) := by
  unfold fetchClk
  try dsimp only
  iterate 14 (try any_goals first
    | with_reducible assumption | with_reducible refine keeps_fetchGroups' ‹_› ?_
    | with_reducible apply keeps_fetchGroups | with_reducible exact fun _ _ h => h
    | with_reducible exact KeepsOpt.none | with_reducible refine KeepsOpt.someSnd ?_
    | with_reducible refine KeepsOpt.mapSnd (fun _ _ _ => ?_) ?_ | with_reducible refine Keeps.fst ‹_› ?_
    | with_reducible refine Keeps.snd ‹_› ?_ | with_reducible refine Keeps.mid ‹_› ?_
    | with_reducible refine Keeps.third ‹_› ?_ | with_reducible refine Keeps.thirdLast ‹_› ?_
    | with_reducible refine Keeps.ite ?_ ?_ | split | refine Keeps.upd ?_ rfl rfl)

theorem keeps_fetchClk' {z tt : State} {a : Arr} {r : ArrRun} {s : State} {y0 : ArrFetch}  (e : (fetchClk a r s) = some (y0, tt)) (hk0 : Keeps z s) : Keeps z tt :=
  (keeps_fetchClk _ _ _  hk0).of _ e

theorem keeps_fillTurn {z : State} (e : Entry) (popped : ℕ) (codes : List ℕ) (s : State)  (hk0 : Keeps z s) : Keeps z (fillTurn e popped codes s) := by
  unfold fillTurn
  try dsimp only
  iterate 14 (try any_goals first
    | with_reducible assumption | with_reducible apply keeps_chPop | with_reducible refine Keeps.ite ?_ ?_
    | split | refine Keeps.upd ?_ rfl rfl)

theorem keeps_freeTurn {z : State} (s : State)  (hk0 : Keeps z s) : Keeps z (freeTurn s) := by
  unfold freeTurn
  try dsimp only
  iterate 14 (try any_goals first
    | with_reducible assumption | with_reducible refine Keeps.ite ?_ ?_ | split | refine Keeps.upd ?_ rfl rfl)

theorem keeps_broadcastWith {z : State} (a : Arr) (f : ArrFetch) (s : State)  (hk0 : Keeps z s) : Keeps z (broadcastWith a f s) := by
  unfold broadcastWith
  try dsimp only
  iterate 14 (try any_goals first
    | with_reducible assumption | with_reducible apply keeps_touch | with_reducible apply keeps_bump
    | with_reducible apply keeps_setArr | with_reducible apply keeps_freeTurn
    | with_reducible apply keeps_complete | with_reducible refine Keeps.fst ‹_› ?_
    | with_reducible refine Keeps.snd ‹_› ?_ | with_reducible refine Keeps.mid ‹_› ?_
    | with_reducible refine Keeps.third ‹_› ?_ | with_reducible refine Keeps.thirdLast ‹_› ?_
    | with_reducible refine Keeps.ite ?_ ?_ | split | refine Keeps.upd ?_ rfl rfl)

theorem keeps_execKstepBroadcast {z : State} (a : Arr) (s : State)  (hk0 : Keeps z s) : KeepsOut z (execKstepBroadcast a s) := by
  unfold execKstepBroadcast
  try dsimp only
  iterate 14 (try any_goals first
    | with_reducible assumption | with_reducible refine keeps_fetchClk' ‹_› ?_
    | with_reducible apply keeps_fetchClk | with_reducible apply keeps_broadcastWith
    | with_reducible apply keeps_fillTurn | with_reducible refine KeepsOut.next ?_
    | with_reducible refine Keeps.fst ‹_› ?_ | with_reducible refine Keeps.snd ‹_› ?_
    | with_reducible refine Keeps.mid ‹_› ?_ | with_reducible refine Keeps.third ‹_› ?_
    | with_reducible refine Keeps.thirdLast ‹_› ?_ | with_reducible refine Keeps.ite ?_ ?_ | split
    | refine Keeps.upd ?_ rfl rfl)

theorem keeps_startProduct {z : State} (a : Arr) (op : ℕ) (s : State)  (hk0 : Keeps z s) : Keeps z (startProduct a op s) := by
  unfold startProduct
  try dsimp only
  iterate 14 (try any_goals first
    | with_reducible assumption | with_reducible refine keeps_fetchClk' ‹_› ?_
    | with_reducible apply keeps_fetchClk | with_reducible apply keeps_dequeue
    | with_reducible apply keeps_setArr | with_reducible refine Keeps.fst ‹_› ?_
    | with_reducible refine Keeps.snd ‹_› ?_ | with_reducible refine Keeps.mid ‹_› ?_
    | with_reducible refine Keeps.third ‹_› ?_ | with_reducible refine Keeps.thirdLast ‹_› ?_
    | with_reducible refine Keeps.ite ?_ ?_ | split | refine Keeps.upd ?_ rfl rfl)

theorem keeps_execMma {z : State} (a : Arr) (s : State)  (hk0 : Keeps z s) : KeepsOut z (execMma a s) := by
  unfold execMma
  try dsimp only
  iterate 14 (try any_goals first
    | with_reducible assumption | with_reducible apply keeps_startProduct
    | with_reducible refine KeepsOut.next ?_)

theorem keeps_execMman {z : State} (a : Arr) (s : State)  (hk0 : Keeps z s) : KeepsOut z (execMman a s) := by
  unfold execMman
  try dsimp only
  iterate 14 (try any_goals first
    | with_reducible assumption | with_reducible apply keeps_startProduct
    | with_reducible refine KeepsOut.next ?_)

theorem keeps_execCdl1 {z : State} (a : Arr) (s : State)  (hk0 : Keeps z s) : KeepsOut z (execCdl1 a s) := by
  unfold execCdl1
  try dsimp only
  iterate 14 (try any_goals first
    | with_reducible assumption | with_reducible apply keeps_startProduct
    | with_reducible refine KeepsOut.next ?_)

theorem keeps_execCdl2 {z : State} (a : Arr) (s : State)  (hk0 : Keeps z s) : KeepsOut z (execCdl2 a s) := by
  unfold execCdl2
  try dsimp only
  iterate 14 (try any_goals first
    | with_reducible assumption | with_reducible apply keeps_startProduct
    | with_reducible refine KeepsOut.next ?_)

theorem keeps_execCminp {z : State} (a : Arr) (s : State)  (hk0 : Keeps z s) : KeepsOut z (execCminp a s) := by
  unfold execCminp
  try dsimp only
  iterate 14 (try any_goals first
    | with_reducible assumption | with_reducible apply keeps_startProduct
    | with_reducible refine KeepsOut.next ?_)

theorem keeps_execCmaxp {z : State} (a : Arr) (s : State)  (hk0 : Keeps z s) : KeepsOut z (execCmaxp a s) := by
  unfold execCmaxp
  try dsimp only
  iterate 14 (try any_goals first
    | with_reducible assumption | with_reducible apply keeps_startProduct
    | with_reducible refine KeepsOut.next ?_)

theorem keeps_execCcnt {z : State} (a : Arr) (s : State)  (hk0 : Keeps z s) : KeepsOut z (execCcnt a s) := by
  unfold execCcnt
  try dsimp only
  iterate 14 (try any_goals first
    | with_reducible assumption | with_reducible apply keeps_startProduct
    | with_reducible refine KeepsOut.next ?_)

theorem keeps_execGpdx {z : State} (s : State)  (hk0 : Keeps z s) : KeepsOut z (execGpdx s) := by
  unfold execGpdx
  try dsimp only
  iterate 14 (try any_goals first
    | with_reducible assumption | with_reducible apply keeps_startProduct
    | with_reducible refine KeepsOut.next ?_)

theorem keeps_execGpdw {z : State} (s : State)  (hk0 : Keeps z s) : KeepsOut z (execGpdw s) := by
  unfold execGpdw
  try dsimp only
  iterate 14 (try any_goals first
    | with_reducible assumption | with_reducible apply keeps_startProduct
    | with_reducible refine KeepsOut.next ?_)

theorem keeps_execFwdx {z : State} (s : State)  (hk0 : Keeps z s) : KeepsOut z (execFwdx s) := by
  unfold execFwdx
  try dsimp only
  iterate 14 (try any_goals first
    | with_reducible assumption | with_reducible apply keeps_startProduct
    | with_reducible refine KeepsOut.next ?_)

theorem keeps_execAdz {z : State} (s : State)  (hk0 : Keeps z s) : KeepsOut z (execAdz s) := by
  unfold execAdz
  try dsimp only
  iterate 14 (try any_goals first
    | with_reducible assumption | with_reducible apply keeps_startProduct
    | with_reducible refine KeepsOut.next ?_)

theorem keeps_swapTile {z : State} (a : Arr) (e : Entry) (acc : List Word) (s : State)  (hk0 : Keeps z s) : Keeps z (swapTile a e acc s) := by
  unfold swapTile
  try dsimp only
  iterate 14 (try any_goals first
    | with_reducible assumption | with_reducible apply keeps_touch | with_reducible apply keeps_setArr
    | refine Keeps.upd ?_ rfl rfl)

theorem keeps_execDrain {z : State} (a : Arr) (s : State)  (hk0 : Keeps z s) : KeepsOut z (execDrain a s) := by
  unfold execDrain
  try dsimp only
  iterate 14 (try any_goals first
    | with_reducible assumption | with_reducible apply keeps_swapTile | with_reducible apply keeps_dequeue
    | with_reducible refine KeepsOut.next ?_ | with_reducible refine Keeps.fst ‹_› ?_
    | with_reducible refine Keeps.snd ‹_› ?_ | with_reducible refine Keeps.mid ‹_› ?_
    | with_reducible refine Keeps.third ‹_› ?_ | with_reducible refine Keeps.thirdLast ‹_› ?_
    | with_reducible refine Keeps.ite ?_ ?_ | split | refine Keeps.upd ?_ rfl rfl)

theorem keeps_startQuick {z : State} (a : Arr) (op : ℕ) (f : ArrState → ArrState) (s : State)  (hk0 : Keeps z s) : Keeps z (startQuick a op f s) := by
  unfold startQuick
  try dsimp only
  iterate 14 (try any_goals first
    | with_reducible assumption | with_reducible apply keeps_dequeue | with_reducible apply keeps_complete
    | with_reducible apply keeps_setArr | with_reducible refine Keeps.fst ‹_› ?_
    | with_reducible refine Keeps.snd ‹_› ?_ | with_reducible refine Keeps.mid ‹_› ?_
    | with_reducible refine Keeps.third ‹_› ?_ | with_reducible refine Keeps.thirdLast ‹_› ?_
    | with_reducible refine Keeps.ite ?_ ?_ | split | refine Keeps.upd ?_ rfl rfl)

theorem keeps_execDiscard {z : State} (a : Arr) (s : State)  (hk0 : Keeps z s) : KeepsOut z (execDiscard a s) := by
  unfold execDiscard
  try dsimp only
  iterate 14 (try any_goals first
    | with_reducible assumption | with_reducible apply keeps_startQuick | with_reducible exact fun _ _ h => h
    | with_reducible refine KeepsOut.next ?_ | with_reducible refine Keeps.ite ?_ ?_ | split
    | refine Keeps.upd ?_ rfl rfl)

theorem keeps_execArm {z : State} (a : Arr) (s : State)  (hk0 : Keeps z s) : KeepsOut z (execArm a s) := by
  unfold execArm
  try dsimp only
  iterate 14 (try any_goals first
    | with_reducible assumption | with_reducible apply keeps_startQuick | with_reducible exact fun _ _ h => h
    | with_reducible refine KeepsOut.next ?_ | refine Keeps.upd ?_ rfl rfl)

theorem keeps_execQuiet {z : State} (a : Arr) (s : State)  (hk0 : Keeps z s) : KeepsOut z (execQuiet a s) := by
  unfold execQuiet
  try dsimp only
  iterate 14 (try any_goals first
    | with_reducible assumption | with_reducible apply keeps_startQuick | with_reducible exact fun _ _ h => h
    | with_reducible refine KeepsOut.next ?_ | refine Keeps.upd ?_ rfl rfl)

theorem keeps_execTileSwap {z : State} (a : Arr) (s : State)  (hk0 : Keeps z s) : KeepsOut z (execTileSwap a s) := by
  unfold execTileSwap
  try dsimp only
  iterate 14 (try any_goals first
    | with_reducible assumption | with_reducible apply keeps_swapTile | with_reducible refine KeepsOut.next ?_
    | with_reducible refine Keeps.fst ‹_› ?_ | with_reducible refine Keeps.snd ‹_› ?_
    | with_reducible refine Keeps.mid ‹_› ?_ | with_reducible refine Keeps.third ‹_› ?_
    | with_reducible refine Keeps.thirdLast ‹_› ?_ | with_reducible refine Keeps.ite ?_ ?_ | split
    | refine Keeps.upd ?_ rfl rfl)

theorem keeps_pushTile {z : State} (t : Tile) (m : ℕ) (room : ℕ) (s : State)  (hk0 : Keeps z s) : Keeps z (pushTile t m room s).2.2 := by
  unfold pushTile
  try dsimp only
  iterate 14 (try any_goals first
    | with_reducible assumption | with_reducible apply keeps_chPush | with_reducible exact fun _ _ h => h
    | refine Keeps.upd ?_ rfl rfl)

theorem keeps_execDrainRowPush {z : State} (a : Arr) (s : State)  (hk0 : Keeps z s) : KeepsOut z (execDrainRowPush a s) := by
  unfold execDrainRowPush
  try dsimp only
  iterate 20 (try any_goals first
    | with_reducible assumption | with_reducible apply keeps_foldInto | with_reducible apply keeps_pushTile
    | with_reducible apply keeps_touch | with_reducible apply keeps_setArr
    | with_reducible apply keeps_complete | with_reducible apply keeps_bump
    | with_reducible exact KeepsOut.fault | with_reducible refine KeepsOut.next ?_
    | with_reducible exact KeepsOpt.none | with_reducible refine KeepsOpt.someId ?_
    | with_reducible refine KeepsOpt.someSnd ?_ | with_reducible refine KeepsOpt.mapSnd (fun _ _ _ => ?_) ?_
    | with_reducible refine KeepsOpt.orElse ?_ (fun _ => ?_)
    | with_reducible refine Keeps.foldl (fun _ _ _ => ?_) _ ?_
    | with_reducible refine Keeps.foldlFst (fun _ _ _ => ?_) _ ?_
    | with_reducible refine Keeps.foldlSnd (fun _ _ _ => ?_) _ ?_ | with_reducible refine Keeps.fst ‹_› ?_
    | with_reducible refine Keeps.snd ‹_› ?_ | with_reducible refine Keeps.mid ‹_› ?_
    | with_reducible refine Keeps.third ‹_› ?_ | with_reducible refine Keeps.thirdLast ‹_› ?_
    | with_reducible refine Keeps.ite ?_ ?_ | with_reducible refine Keeps.iteFst ?_ ?_ | split
    | refine Keeps.upd ?_ rfl rfl)

theorem keeps_arrTick {z : State} (a : Arr) (s : State)  (hk0 : Keeps z s) : Keeps z (arrTick a s) := by
  unfold arrTick
  try dsimp only
  iterate 14 (try any_goals first
    | with_reducible assumption | with_reducible apply keeps_setArr | with_reducible refine Keeps.fst ‹_› ?_
    | with_reducible refine Keeps.snd ‹_› ?_ | with_reducible refine Keeps.mid ‹_› ?_
    | with_reducible refine Keeps.third ‹_› ?_ | with_reducible refine Keeps.thirdLast ‹_› ?_
    | with_reducible refine Keeps.ite ?_ ?_ | split | refine Keeps.upd ?_ rfl rfl)

theorem keeps_execActivityLevelStep {z : State} (a : Arr) (s : State)  (hk0 : Keeps z s) : KeepsOut z (execActivityLevelStep a s) := by
  unfold execActivityLevelStep
  try dsimp only
  iterate 14 (try any_goals first
    | with_reducible assumption | with_reducible apply keeps_setArr | with_reducible refine KeepsOut.next ?_
    | with_reducible refine Keeps.ite ?_ ?_ | split | refine Keeps.upd ?_ rfl rfl)

theorem keeps_crSet {z : State} (n : ℕ) (v : BitVec 64) (s : State)  (hk0 : Keeps z s) : Keeps z (crSet n v s) :=
  hk0.stores rfl rfl rfl id id id id id id id (mwf_mset _)

theorem keeps_startedRsu {z : State} (e : Entry) (len : ℕ) (s : State)  (hk0 : Keeps z s) : Keeps z (startedRsu e len s) := by
  unfold startedRsu
  try dsimp only
  iterate 14 (try any_goals first
    | with_reducible assumption | with_reducible apply keeps_dequeue | with_reducible apply keeps_descBound
    | with_reducible refine Keeps.ite ?_ ?_ | split | refine Keeps.upd ?_ rfl rfl)

theorem keeps_startRsu {z : State} (op : ℕ) (s : State)  (hk0 : Keeps z s) : Keeps z (startRsu op s) := by
  unfold startRsu
  try dsimp only
  iterate 14 (try any_goals first
    | with_reducible assumption | with_reducible refine keeps_chTake' ‹_› ?_
    | with_reducible apply keeps_chTake | with_reducible apply keeps_startedRsu
    | with_reducible refine Keeps.fst ‹_› ?_ | with_reducible refine Keeps.snd ‹_› ?_
    | with_reducible refine Keeps.mid ‹_› ?_ | with_reducible refine Keeps.third ‹_› ?_
    | with_reducible refine Keeps.thirdLast ‹_› ?_ | with_reducible refine Keeps.ite ?_ ?_ | split
    | refine Keeps.upd ?_ rfl rfl)

theorem keeps_rsuEmit {z : State} (o : RsuOut) (s : State)  (hk0 : Keeps z s) : Keeps z (rsuEmit o s) := by
  unfold rsuEmit
  try dsimp only
  iterate 14 (try any_goals first
    | with_reducible assumption | with_reducible exact fun _ _ h => h | with_reducible refine Keeps.ite ?_ ?_
    | split | refine Keeps.upd ?_ rfl rfl)

theorem keeps_rsuPull {z : State} (r : RsuRun) (n : ℕ) (s : State)  (hk0 : Keeps z s) : KeepsOpt z (fun x => x.2.2) (rsuPull r n s) := by
  unfold rsuPull
  refine KeepsOpt.bindSnd (keeps_fetchElems _ _ _ _ _ _ hk0) fun _ t ht => ?_
  dsimp only
  split
  all_goals
    refine KeepsOpt.bindSnd (by first | exact keeps_fetchElems _ _ _ _ _ _ ht | exact .someSnd ht) fun _ t ht => ?_
    dsimp only
    split
    all_goals
      refine KeepsOpt.bindSnd (by first | exact keeps_fetchElems _ _ _ _ _ _ ht | exact .someSnd ht) fun _ t ht => ?_
      exact KeepsOpt.some ht

theorem keeps_rsuPull' {z tt : State} {r : RsuRun} {n : ℕ} {s : State} {y0 : List (Word × Word × Bool)} {y1 : RsuRun}  (e : (rsuPull r n s) = some (y0, y1, tt)) (hk0 : Keeps z s) : Keeps z tt :=
  (keeps_rsuPull _ _ _  hk0).of _ e

theorem keeps_elemClk {z : State} (r : RsuRun) (s : State)  (hk0 : Keeps z s) : KeepsOpt z id (elemClk r s) := by
  unfold elemClk
  try dsimp only
  iterate 14 (try any_goals first
    | with_reducible assumption | with_reducible refine keeps_rsuPull' ‹_› ?_
    | with_reducible apply keeps_rsuPull | with_reducible apply keeps_rsuEmit
    | with_reducible exact fun _ _ h => h | with_reducible exact KeepsOpt.none
    | with_reducible refine KeepsOpt.someId ?_ | with_reducible refine KeepsOpt.mapSnd (fun _ _ _ => ?_) ?_
    | with_reducible refine Keeps.foldl (fun _ _ _ => ?_) _ ?_
    | with_reducible refine Keeps.foldlFst (fun _ _ _ => ?_) _ ?_
    | with_reducible refine Keeps.foldlSnd (fun _ _ _ => ?_) _ ?_ | with_reducible refine Keeps.fst ‹_› ?_
    | with_reducible refine Keeps.snd ‹_› ?_ | with_reducible refine Keeps.mid ‹_› ?_
    | with_reducible refine Keeps.third ‹_› ?_ | with_reducible refine Keeps.thirdLast ‹_› ?_
    | with_reducible refine Keeps.ite ?_ ?_ | split | refine Keeps.upd ?_ rfl rfl)

theorem keeps_elemClk' {z tt : State} {r : RsuRun} {s : State}   (e : (elemClk r s) = some tt) (hk0 : Keeps z s) : Keeps z tt :=
  (keeps_elemClk _ _  hk0).of _ e

theorem keeps_carryClk {z : State} (r : RsuRun) (s : State)  (hk0 : Keeps z s) : KeepsOpt z id (carryClk r s) := by
  unfold carryClk
  dsimp only
  have hf : KeepsOpt z (fun p => p.2) (if r.e.op = 0x29 then fetchElems 4 r.e.chX 64 (min 4 (r.len - r.pos)) r.x s else some (r.x, s)) :=
    KeepsOpt.ite (keeps_fetchElems _ _ _ _ _ _ hk0) (.someSnd hk0)
  split
  · exact .none
  · have h := hf.of _ ‹_›
    split
    · exact .someId (Keeps.upd (keeps_rsuEmit _ _ h) rfl rfl)
    · exact .someId (Keeps.upd h rfl rfl)

theorem keeps_carryClk' {z tt : State} {r : RsuRun} {s : State}   (e : (carryClk r s) = some tt) (hk0 : Keeps z s) : Keeps z tt :=
  (keeps_carryClk _ _  hk0).of _ e

theorem keeps_rsuTick {z : State} (s : State)  (hk0 : Keeps z s) : Keeps z (rsuTick s) := by
  unfold rsuTick
  split
  · exact hk0
  · split
    · exact hk0
    · have hf : ∀ r, KeepsOpt z id (if rsuCarryOp r.e.op then carryClk r s else elemClk r s) := fun r =>
        KeepsOpt.ite (keeps_carryClk _ _ hk0) (keeps_elemClk _ _ hk0)
      split
      · exact keeps_touch _ (keeps_bump _ _ _ ((hf _).of _ ‹_›))
      · exact hk0

theorem keeps_takeRsuOut {z : State} (p : RsuPush) (o : RsuOut) (s : State)  (hk0 : Keeps z s) : Keeps z (takeRsuOut p o s).2 := by
  unfold takeRsuOut
  try dsimp only
  iterate 14 (try any_goals first
    | with_reducible assumption | with_reducible apply keeps_crSet | with_reducible apply keeps_queueInst
    | with_reducible apply keeps_touch | with_reducible exact fun _ _ h => h
    | with_reducible refine Keeps.foldl (fun _ _ _ => ?_) _ ?_
    | with_reducible refine Keeps.foldlFst (fun _ _ _ => ?_) _ ?_
    | with_reducible refine Keeps.foldlSnd (fun _ _ _ => ?_) _ ?_ | with_reducible refine Keeps.fst ‹_› ?_
    | with_reducible refine Keeps.snd ‹_› ?_ | with_reducible refine Keeps.mid ‹_› ?_
    | with_reducible refine Keeps.third ‹_› ?_ | with_reducible refine Keeps.thirdLast ‹_› ?_
    | with_reducible refine Keeps.ite ?_ ?_ | split | refine Keeps.upd ?_ rfl rfl)

theorem keeps_drainRsu {z : State} (p : RsuPush) (s : State)  (hk0 : Keeps z s) : Keeps z (drainRsu p s).2 := by
  unfold drainRsu
  try dsimp only
  iterate 14 (try any_goals first
    | with_reducible assumption | with_reducible apply keeps_LineOut_drain
    | with_reducible apply keeps_foldInto | with_reducible exact fun _ _ h => h
    | with_reducible refine Keeps.fst ‹_› ?_ | with_reducible refine Keeps.snd ‹_› ?_
    | with_reducible refine Keeps.mid ‹_› ?_ | with_reducible refine Keeps.third ‹_› ?_
    | with_reducible refine Keeps.thirdLast ‹_› ?_ | with_reducible refine Keeps.ite ?_ ?_ | split
    | refine Keeps.upd ?_ rfl rfl)

theorem keeps_finishRsu {z : State} (s : State)  (hk0 : Keeps z s) : Keeps z (finishRsu s) := by
  unfold finishRsu
  try dsimp only
  iterate 14 (try any_goals first
    | with_reducible assumption | with_reducible apply keeps_completeAll | with_reducible exact fun _ _ h => h
    | refine Keeps.upd ?_ rfl rfl)

theorem keeps_serveRsu {z : State} (p : RsuPush) (s : State)  (hk0 : Keeps z s) : Keeps z (serveRsu p s).2 := by
  unfold serveRsu
  try dsimp only
  iterate 14 (try any_goals first
    | with_reducible assumption | with_reducible apply keeps_takeRsuOut | with_reducible apply keeps_drainRsu
    | with_reducible refine Keeps.fst ‹_› ?_ | with_reducible refine Keeps.snd ‹_› ?_
    | with_reducible refine Keeps.mid ‹_› ?_ | with_reducible refine Keeps.third ‹_› ?_
    | with_reducible refine Keeps.thirdLast ‹_› ?_ | with_reducible refine Keeps.ite ?_ ?_ | split
    | refine Keeps.upd ?_ rfl rfl)

theorem keeps_execRsuFlowStart {z : State} (s : State)  (hk0 : Keeps z s) : KeepsOut z (execRsuFlowStart s) := by
  unfold execRsuFlowStart
  try dsimp only
  iterate 14 (try any_goals first
    | with_reducible assumption | with_reducible apply keeps_touch | with_reducible apply keeps_finishRsu
    | with_reducible apply keeps_rsuTick | with_reducible refine KeepsOut.next ?_
    | with_reducible refine Keeps.fst ‹_› ?_ | with_reducible refine Keeps.snd ‹_› ?_
    | with_reducible refine Keeps.mid ‹_› ?_ | with_reducible refine Keeps.third ‹_› ?_
    | with_reducible refine Keeps.thirdLast ‹_› ?_ | with_reducible refine Keeps.ite ?_ ?_ | split
    | refine Keeps.upd ?_ rfl rfl)

theorem keeps_execRsuResultPush {z : State} (s : State)  (hk0 : Keeps z s) : KeepsOut z (execRsuResultPush s) := by
  unfold execRsuResultPush
  try dsimp only
  iterate 14 (try any_goals first
    | with_reducible assumption | with_reducible apply keeps_serveRsu | with_reducible apply keeps_finishRsu
    | with_reducible exact fun _ _ h => h | with_reducible refine KeepsOut.next ?_
    | with_reducible exact KeepsOut.fault | with_reducible refine Keeps.foldl (fun _ _ _ => ?_) _ ?_
    | with_reducible refine Keeps.foldlFst (fun _ _ _ => ?_) _ ?_
    | with_reducible refine Keeps.foldlSnd (fun _ _ _ => ?_) _ ?_ | with_reducible refine Keeps.fst ‹_› ?_
    | with_reducible refine Keeps.snd ‹_› ?_ | with_reducible refine Keeps.mid ‹_› ?_
    | with_reducible refine Keeps.third ‹_› ?_ | with_reducible refine Keeps.thirdLast ‹_› ?_
    | with_reducible refine Keeps.ite ?_ ?_ | split | refine Keeps.upd ?_ rfl rfl)

theorem keeps_execStatRecordWrite {z : State} (s : State)  (hk0 : Keeps z s) : KeepsOut z (execStatRecordWrite s) := by
  unfold execStatRecordWrite
  try dsimp only
  iterate 14 (try any_goals first
    | with_reducible assumption | with_reducible apply keeps_poolWrite | with_reducible apply keeps_poolUe
    | with_reducible apply keeps_finishRsu | with_reducible exact fun _ _ h => h
    | with_reducible refine KeepsOut.next ?_ | with_reducible refine Keeps.fst ‹_› ?_
    | with_reducible refine Keeps.snd ‹_› ?_ | with_reducible refine Keeps.mid ‹_› ?_
    | with_reducible refine Keeps.third ‹_› ?_ | with_reducible refine Keeps.thirdLast ‹_› ?_
    | with_reducible refine Keeps.ite ?_ ?_ | split | refine Keeps.upd ?_ rfl rfl)

theorem keeps_execRsum {z : State} (s : State)  (hk0 : Keeps z s) : KeepsOut z (execRsum s) := by
  unfold execRsum
  try dsimp only
  iterate 14 (try any_goals first
    | with_reducible assumption | with_reducible apply keeps_startRsu | with_reducible refine KeepsOut.next ?_)

theorem keeps_execRsumsq {z : State} (s : State)  (hk0 : Keeps z s) : KeepsOut z (execRsumsq s) := by
  unfold execRsumsq
  try dsimp only
  iterate 14 (try any_goals first
    | with_reducible assumption | with_reducible apply keeps_startRsu | with_reducible refine KeepsOut.next ?_)

theorem keeps_execRmax {z : State} (s : State)  (hk0 : Keeps z s) : KeepsOut z (execRmax s) := by
  unfold execRmax
  try dsimp only
  iterate 14 (try any_goals first
    | with_reducible assumption | with_reducible apply keeps_startRsu | with_reducible refine KeepsOut.next ?_)

theorem keeps_execRmin {z : State} (s : State)  (hk0 : Keeps z s) : KeepsOut z (execRmin s) := by
  unfold execRmin
  try dsimp only
  iterate 14 (try any_goals first
    | with_reducible assumption | with_reducible apply keeps_startRsu | with_reducible refine KeepsOut.next ?_)

theorem keeps_execRamax {z : State} (s : State)  (hk0 : Keeps z s) : KeepsOut z (execRamax s) := by
  unfold execRamax
  try dsimp only
  iterate 14 (try any_goals first
    | with_reducible assumption | with_reducible apply keeps_startRsu | with_reducible refine KeepsOut.next ?_)

theorem keeps_execRamin {z : State} (s : State)  (hk0 : Keeps z s) : KeepsOut z (execRamin s) := by
  unfold execRamin
  try dsimp only
  iterate 14 (try any_goals first
    | with_reducible assumption | with_reducible apply keeps_startRsu | with_reducible refine KeepsOut.next ?_)

theorem keeps_execTopk {z : State} (s : State)  (hk0 : Keeps z s) : KeepsOut z (execTopk s) := by
  unfold execTopk
  try dsimp only
  iterate 14 (try any_goals first
    | with_reducible assumption | with_reducible apply keeps_startRsu | with_reducible refine KeepsOut.next ?_)

theorem keeps_execBotk {z : State} (s : State)  (hk0 : Keeps z s) : KeepsOut z (execBotk s) := by
  unfold execBotk
  try dsimp only
  iterate 14 (try any_goals first
    | with_reducible assumption | with_reducible apply keeps_startRsu | with_reducible refine KeepsOut.next ?_)

theorem keeps_execRstatMv {z : State} (s : State)  (hk0 : Keeps z s) : KeepsOut z (execRstatMv s) := by
  unfold execRstatMv
  try dsimp only
  iterate 14 (try any_goals first
    | with_reducible assumption | with_reducible apply keeps_startRsu | with_reducible refine KeepsOut.next ?_)

theorem keeps_execRstatMs {z : State} (s : State)  (hk0 : Keeps z s) : KeepsOut z (execRstatMs s) := by
  unfold execRstatMs
  try dsimp only
  iterate 14 (try any_goals first
    | with_reducible assumption | with_reducible apply keeps_startRsu | with_reducible refine KeepsOut.next ?_)

theorem keeps_execRstatLse {z : State} (s : State)  (hk0 : Keeps z s) : KeepsOut z (execRstatLse s) := by
  unfold execRstatLse
  try dsimp only
  iterate 14 (try any_goals first
    | with_reducible assumption | with_reducible apply keeps_startRsu | with_reducible refine KeepsOut.next ?_)

theorem keeps_execScadd {z : State} (s : State)  (hk0 : Keeps z s) : KeepsOut z (execScadd s) := by
  unfold execScadd
  try dsimp only
  iterate 14 (try any_goals first
    | with_reducible assumption | with_reducible apply keeps_startRsu | with_reducible refine KeepsOut.next ?_)

theorem keeps_execScmax {z : State} (s : State)  (hk0 : Keeps z s) : KeepsOut z (execScmax s) := by
  unfold execScmax
  try dsimp only
  iterate 14 (try any_goals first
    | with_reducible assumption | with_reducible apply keeps_startRsu | with_reducible refine KeepsOut.next ?_)

theorem keeps_execScmin {z : State} (s : State)  (hk0 : Keeps z s) : KeepsOut z (execScmin s) := by
  unfold execScmin
  try dsimp only
  iterate 14 (try any_goals first
    | with_reducible assumption | with_reducible apply keeps_startRsu | with_reducible refine KeepsOut.next ?_)

theorem keeps_execScmul {z : State} (s : State)  (hk0 : Keeps z s) : KeepsOut z (execScmul s) := by
  unfold execScmul
  try dsimp only
  iterate 14 (try any_goals first
    | with_reducible assumption | with_reducible apply keeps_startRsu | with_reducible refine KeepsOut.next ?_)

theorem keeps_execLrec {z : State} (s : State)  (hk0 : Keeps z s) : KeepsOut z (execLrec s) := by
  unfold execLrec
  try dsimp only
  iterate 14 (try any_goals first
    | with_reducible assumption | with_reducible apply keeps_startRsu | with_reducible refine KeepsOut.next ?_)

theorem keeps_execCrset {z : State} (s : State)  (hk0 : Keeps z s) : KeepsOut z (execCrset s) := by
  unfold execCrset
  try dsimp only
  iterate 14 (try any_goals first
    | with_reducible assumption | with_reducible apply keeps_startRsu | with_reducible refine KeepsOut.next ?_)

theorem keeps_execCrld {z : State} (s : State)  (hk0 : Keeps z s) : KeepsOut z (execCrld s) := by
  unfold execCrld
  try dsimp only
  iterate 14 (try any_goals first
    | with_reducible assumption | with_reducible apply keeps_startRsu | with_reducible refine KeepsOut.next ?_)

theorem keeps_execCrst {z : State} (s : State)  (hk0 : Keeps z s) : KeepsOut z (execCrst s) := by
  unfold execCrst
  try dsimp only
  iterate 14 (try any_goals first
    | with_reducible assumption | with_reducible apply keeps_startRsu | with_reducible refine KeepsOut.next ?_)

theorem keeps_execCrcomb {z : State} (s : State)  (hk0 : Keeps z s) : KeepsOut z (execCrcomb s) := by
  unfold execCrcomb
  try dsimp only
  iterate 14 (try any_goals first
    | with_reducible assumption | with_reducible apply keeps_startRsu | with_reducible refine KeepsOut.next ?_)

theorem keeps_execCsend {z : State} (s : State)  (hk0 : Keeps z s) : KeepsOut z (execCsend s) := by
  unfold execCsend
  try dsimp only
  iterate 14 (try any_goals first
    | with_reducible assumption | with_reducible apply keeps_startRsu | with_reducible refine KeepsOut.next ?_)

theorem keeps_sclFly {z : State} (e : Entry) (lat : ℕ) (r : SclRes) (s : State)  (hk0 : Keeps z s) : Keeps z (sclFly e lat r s) := by
  unfold sclFly
  try dsimp only
  iterate 14 (try any_goals first
    | with_reducible assumption | refine Keeps.upd ?_ rfl rfl)

theorem keeps_sclOp {z : State} (op : ℕ) (lat : ℕ) (reads : Entry → List ℕ) (val : State → Entry → Word) (s : State)  (hk0 : Keeps z s) : Keeps z (sclOp op lat reads val s) := by
  unfold sclOp
  try dsimp only
  iterate 14 (try any_goals first
    | with_reducible assumption | with_reducible apply keeps_sclFly | with_reducible apply keeps_dequeue
    | with_reducible refine Keeps.fst ‹_› ?_ | with_reducible refine Keeps.snd ‹_› ?_
    | with_reducible refine Keeps.mid ‹_› ?_ | with_reducible refine Keeps.third ‹_› ?_
    | with_reducible refine Keeps.thirdLast ‹_› ?_ | split | refine Keeps.upd ?_ rfl rfl)

theorem keeps_sclReg {z : State} (op : ℕ) (lat : ℕ) (f : Word → Word → Word) (s : State)  (hk0 : Keeps z s) : Keeps z (sclReg op lat f s) := by
  unfold sclReg
  try dsimp only
  iterate 14 (try any_goals first
    | with_reducible assumption | with_reducible apply keeps_sclOp | with_reducible exact fun _ _ h => h)

theorem keeps_sclImmOp {z : State} (op : ℕ) (f : Word → Entry → Word) (s : State)  (hk0 : Keeps z s) : Keeps z (sclImmOp op f s) := by
  unfold sclImmOp
  try dsimp only
  iterate 14 (try any_goals first
    | with_reducible assumption | with_reducible apply keeps_sclOp | with_reducible exact fun _ _ h => h)

theorem keeps_execSclAdd {z : State} (s : State)  (hk0 : Keeps z s) : KeepsOut z (execSclAdd s) := by
  unfold execSclAdd
  try dsimp only
  iterate 14 (try any_goals first
    | with_reducible assumption | with_reducible apply keeps_sclReg | with_reducible exact fun _ _ h => h
    | with_reducible refine KeepsOut.next ?_)

theorem keeps_execSclSub {z : State} (s : State)  (hk0 : Keeps z s) : KeepsOut z (execSclSub s) := by
  unfold execSclSub
  try dsimp only
  iterate 14 (try any_goals first
    | with_reducible assumption | with_reducible apply keeps_sclReg | with_reducible exact fun _ _ h => h
    | with_reducible refine KeepsOut.next ?_)

theorem keeps_execSclMul {z : State} (s : State)  (hk0 : Keeps z s) : KeepsOut z (execSclMul s) := by
  unfold execSclMul
  try dsimp only
  iterate 14 (try any_goals first
    | with_reducible assumption | with_reducible apply keeps_sclReg | with_reducible exact fun _ _ h => h
    | with_reducible refine KeepsOut.next ?_)

theorem keeps_execSclAnd {z : State} (s : State)  (hk0 : Keeps z s) : KeepsOut z (execSclAnd s) := by
  unfold execSclAnd
  try dsimp only
  iterate 14 (try any_goals first
    | with_reducible assumption | with_reducible apply keeps_sclReg | with_reducible exact fun _ _ h => h
    | with_reducible refine KeepsOut.next ?_)

theorem keeps_execSclOr {z : State} (s : State)  (hk0 : Keeps z s) : KeepsOut z (execSclOr s) := by
  unfold execSclOr
  try dsimp only
  iterate 14 (try any_goals first
    | with_reducible assumption | with_reducible apply keeps_sclReg | with_reducible exact fun _ _ h => h
    | with_reducible refine KeepsOut.next ?_)

theorem keeps_execSclXor {z : State} (s : State)  (hk0 : Keeps z s) : KeepsOut z (execSclXor s) := by
  unfold execSclXor
  try dsimp only
  iterate 14 (try any_goals first
    | with_reducible assumption | with_reducible apply keeps_sclReg | with_reducible exact fun _ _ h => h
    | with_reducible refine KeepsOut.next ?_)

theorem keeps_execShl {z : State} (s : State)  (hk0 : Keeps z s) : KeepsOut z (execShl s) := by
  unfold execShl
  try dsimp only
  iterate 14 (try any_goals first
    | with_reducible assumption | with_reducible apply keeps_sclReg | with_reducible exact fun _ _ h => h
    | with_reducible refine KeepsOut.next ?_)

theorem keeps_execShr {z : State} (s : State)  (hk0 : Keeps z s) : KeepsOut z (execShr s) := by
  unfold execShr
  try dsimp only
  iterate 14 (try any_goals first
    | with_reducible assumption | with_reducible apply keeps_sclReg | with_reducible exact fun _ _ h => h
    | with_reducible refine KeepsOut.next ?_)

theorem keeps_execSra {z : State} (s : State)  (hk0 : Keeps z s) : KeepsOut z (execSra s) := by
  unfold execSra
  try dsimp only
  iterate 14 (try any_goals first
    | with_reducible assumption | with_reducible apply keeps_sclReg | with_reducible exact fun _ _ h => h
    | with_reducible refine KeepsOut.next ?_)

theorem keeps_execSclMin {z : State} (s : State)  (hk0 : Keeps z s) : KeepsOut z (execSclMin s) := by
  unfold execSclMin
  try dsimp only
  iterate 14 (try any_goals first
    | with_reducible assumption | with_reducible apply keeps_sclReg | with_reducible exact fun _ _ h => h
    | with_reducible refine KeepsOut.next ?_ | with_reducible refine Keeps.ite ?_ ?_ | split)

theorem keeps_execSclMax {z : State} (s : State)  (hk0 : Keeps z s) : KeepsOut z (execSclMax s) := by
  unfold execSclMax
  try dsimp only
  iterate 14 (try any_goals first
    | with_reducible assumption | with_reducible apply keeps_sclReg | with_reducible exact fun _ _ h => h
    | with_reducible refine KeepsOut.next ?_ | with_reducible refine Keeps.ite ?_ ?_ | split)

theorem keeps_execMinu {z : State} (s : State)  (hk0 : Keeps z s) : KeepsOut z (execMinu s) := by
  unfold execMinu
  try dsimp only
  iterate 14 (try any_goals first
    | with_reducible assumption | with_reducible apply keeps_sclReg | with_reducible exact fun _ _ h => h
    | with_reducible refine KeepsOut.next ?_ | with_reducible refine Keeps.ite ?_ ?_ | split)

theorem keeps_execMaxu {z : State} (s : State)  (hk0 : Keeps z s) : KeepsOut z (execMaxu s) := by
  unfold execMaxu
  try dsimp only
  iterate 14 (try any_goals first
    | with_reducible assumption | with_reducible apply keeps_sclReg | with_reducible exact fun _ _ h => h
    | with_reducible refine KeepsOut.next ?_ | with_reducible refine Keeps.ite ?_ ?_ | split)

theorem keeps_execSlt {z : State} (s : State)  (hk0 : Keeps z s) : KeepsOut z (execSlt s) := by
  unfold execSlt
  try dsimp only
  iterate 14 (try any_goals first
    | with_reducible assumption | with_reducible apply keeps_sclReg | with_reducible exact fun _ _ h => h
    | with_reducible refine KeepsOut.next ?_)

theorem keeps_execSltu {z : State} (s : State)  (hk0 : Keeps z s) : KeepsOut z (execSltu s) := by
  unfold execSltu
  try dsimp only
  iterate 14 (try any_goals first
    | with_reducible assumption | with_reducible apply keeps_sclReg | with_reducible exact fun _ _ h => h
    | with_reducible refine KeepsOut.next ?_)

theorem keeps_execAddi {z : State} (s : State)  (hk0 : Keeps z s) : KeepsOut z (execAddi s) := by
  unfold execAddi
  try dsimp only
  iterate 14 (try any_goals first
    | with_reducible assumption | with_reducible apply keeps_sclImmOp | with_reducible exact fun _ _ h => h
    | with_reducible refine KeepsOut.next ?_)

theorem keeps_execAndi {z : State} (s : State)  (hk0 : Keeps z s) : KeepsOut z (execAndi s) := by
  unfold execAndi
  try dsimp only
  iterate 14 (try any_goals first
    | with_reducible assumption | with_reducible apply keeps_sclImmOp | with_reducible exact fun _ _ h => h
    | with_reducible refine KeepsOut.next ?_)

theorem keeps_execOri {z : State} (s : State)  (hk0 : Keeps z s) : KeepsOut z (execOri s) := by
  unfold execOri
  try dsimp only
  iterate 14 (try any_goals first
    | with_reducible assumption | with_reducible apply keeps_sclImmOp | with_reducible exact fun _ _ h => h
    | with_reducible refine KeepsOut.next ?_)

theorem keeps_execXori {z : State} (s : State)  (hk0 : Keeps z s) : KeepsOut z (execXori s) := by
  unfold execXori
  try dsimp only
  iterate 14 (try any_goals first
    | with_reducible assumption | with_reducible apply keeps_sclImmOp | with_reducible exact fun _ _ h => h
    | with_reducible refine KeepsOut.next ?_)

theorem keeps_execShli {z : State} (s : State)  (hk0 : Keeps z s) : KeepsOut z (execShli s) := by
  unfold execShli
  try dsimp only
  iterate 14 (try any_goals first
    | with_reducible assumption | with_reducible apply keeps_sclImmOp | with_reducible exact fun _ _ h => h
    | with_reducible refine KeepsOut.next ?_)

theorem keeps_execShri {z : State} (s : State)  (hk0 : Keeps z s) : KeepsOut z (execShri s) := by
  unfold execShri
  try dsimp only
  iterate 14 (try any_goals first
    | with_reducible assumption | with_reducible apply keeps_sclImmOp | with_reducible exact fun _ _ h => h
    | with_reducible refine KeepsOut.next ?_)

theorem keeps_execSrai {z : State} (s : State)  (hk0 : Keeps z s) : KeepsOut z (execSrai s) := by
  unfold execSrai
  try dsimp only
  iterate 14 (try any_goals first
    | with_reducible assumption | with_reducible apply keeps_sclImmOp | with_reducible exact fun _ _ h => h
    | with_reducible refine KeepsOut.next ?_)

theorem keeps_execCmov {z : State} (s : State)  (hk0 : Keeps z s) : KeepsOut z (execCmov s) := by
  unfold execCmov
  try dsimp only
  iterate 14 (try any_goals first
    | with_reducible assumption | with_reducible apply keeps_sclFly | with_reducible apply keeps_dequeue
    | with_reducible exact fun _ _ h => h | with_reducible refine KeepsOut.next ?_
    | with_reducible refine Keeps.fst ‹_› ?_ | with_reducible refine Keeps.snd ‹_› ?_
    | with_reducible refine Keeps.mid ‹_› ?_ | with_reducible refine Keeps.third ‹_› ?_
    | with_reducible refine Keeps.thirdLast ‹_› ?_ | with_reducible refine Keeps.ite ?_ ?_ | split
    | refine Keeps.upd ?_ rfl rfl)

theorem keeps_execLi {z : State} (s : State)  (hk0 : Keeps z s) : KeepsOut z (execLi s) := by
  unfold execLi
  try dsimp only
  iterate 14 (try any_goals first
    | with_reducible assumption | with_reducible apply keeps_sclOp | with_reducible exact fun _ _ h => h
    | with_reducible refine KeepsOut.next ?_)

theorem keeps_execLui {z : State} (s : State)  (hk0 : Keeps z s) : KeepsOut z (execLui s) := by
  unfold execLui
  try dsimp only
  iterate 14 (try any_goals first
    | with_reducible assumption | with_reducible apply keeps_sclOp | with_reducible exact fun _ _ h => h
    | with_reducible refine KeepsOut.next ?_)

theorem keeps_sclDiv {z : State} (op : ℕ) (f : ℕ → ℕ → Word) (s : State)  (hk0 : Keeps z s) : Keeps z (sclDiv op f s) := by
  unfold sclDiv
  try dsimp only
  iterate 14 (try any_goals first
    | with_reducible assumption | with_reducible apply keeps_sclReg | with_reducible exact fun _ _ h => h
    | with_reducible refine Keeps.ite ?_ ?_ | split)

theorem keeps_execDivu {z : State} (s : State)  (hk0 : Keeps z s) : KeepsOut z (execDivu s) := by
  unfold execDivu
  try dsimp only
  iterate 14 (try any_goals first
    | with_reducible assumption | with_reducible apply keeps_sclDiv | with_reducible exact fun _ _ h => h
    | with_reducible refine KeepsOut.next ?_ | with_reducible refine Keeps.ite ?_ ?_ | split)

theorem keeps_execRemu {z : State} (s : State)  (hk0 : Keeps z s) : KeepsOut z (execRemu s) := by
  unfold execRemu
  try dsimp only
  iterate 14 (try any_goals first
    | with_reducible assumption | with_reducible apply keeps_sclDiv | with_reducible exact fun _ _ h => h
    | with_reducible refine KeepsOut.next ?_ | with_reducible refine Keeps.ite ?_ ?_ | split)

theorem keeps_landRes {z : State} (r : SclRes) (s : State)  (hk0 : Keeps z s) : Keeps z (landRes r s) := by
  unfold landRes
  try dsimp only
  iterate 14 (try any_goals first
    | with_reducible assumption | with_reducible apply keeps_setSreg | with_reducible apply keeps_descSet
    | with_reducible apply keeps_scaleEvent | with_reducible refine Keeps.fst ‹_› ?_
    | with_reducible refine Keeps.snd ‹_› ?_ | with_reducible refine Keeps.mid ‹_› ?_
    | with_reducible refine Keeps.third ‹_› ?_ | with_reducible refine Keeps.thirdLast ‹_› ?_ | split
    | refine Keeps.upd ?_ rfl rfl)

theorem keeps_afterFly {z : State} (s : State)  (hk0 : Keeps z s) : Keeps z (afterFly s) := by
  unfold afterFly
  try dsimp only
  iterate 14 (try any_goals first
    | with_reducible assumption | with_reducible apply keeps_landRes | with_reducible exact fun _ _ h => h
    | with_reducible refine Keeps.foldl (fun _ _ _ => ?_) _ ?_
    | with_reducible refine Keeps.foldlFst (fun _ _ _ => ?_) _ ?_
    | with_reducible refine Keeps.foldlSnd (fun _ _ _ => ?_) _ ?_)

theorem keeps_execDrd {z : State} (s : State)  (hk0 : Keeps z s) : KeepsOut z (execDrd s) := by
  unfold execDrd
  split
  · next e _ =>
    dsimp only
    split
    · next u h =>
      have hu : Keeps z u := Keeps.fst h (keeps_descReads _ _ hk0)
      exact .next (keeps_sclFly _ _ _ _ (keeps_dequeue _ _ hu))
    · next u h => exact .next (Keeps.fst h (keeps_descReads _ _ hk0))
  · exact .next hk0

theorem keeps_execDwr {z : State} (s : State)  (hk0 : Keeps z s) : KeepsOut z (execDwr s) := by
  unfold execDwr
  try dsimp only
  iterate 14 (try any_goals first
    | with_reducible assumption | with_reducible apply keeps_sclFly | with_reducible apply keeps_dequeue
    | with_reducible exact fun _ _ h => h | with_reducible refine KeepsOut.next ?_
    | with_reducible refine Keeps.fst ‹_› ?_ | with_reducible refine Keeps.snd ‹_› ?_
    | with_reducible refine Keeps.mid ‹_› ?_ | with_reducible refine Keeps.third ‹_› ?_
    | with_reducible refine Keeps.thirdLast ‹_› ?_ | split | refine Keeps.upd ?_ rfl rfl)

theorem keeps_execCpop {z : State} (s : State)  (hk0 : Keeps z s) : KeepsOut z (execCpop s) := by
  unfold execCpop
  try dsimp only
  iterate 14 (try any_goals first
    | with_reducible assumption | with_reducible refine keeps_chTake' ‹_› ?_
    | with_reducible apply keeps_chTake | with_reducible apply keeps_sclFly
    | with_reducible apply keeps_dequeue | with_reducible refine KeepsOut.next ?_
    | with_reducible refine Keeps.fst ‹_› ?_ | with_reducible refine Keeps.snd ‹_› ?_
    | with_reducible refine Keeps.mid ‹_› ?_ | with_reducible refine Keeps.third ‹_› ?_
    | with_reducible refine Keeps.thirdLast ‹_› ?_ | split | refine Keeps.upd ?_ rfl rfl)

theorem keeps_execCpush {z : State} (s : State)  (hk0 : Keeps z s) : KeepsOut z (execCpush s) := by
  unfold execCpush
  try dsimp only
  iterate 14 (try any_goals first
    | with_reducible assumption | with_reducible apply keeps_sclFly | with_reducible apply keeps_dequeue
    | with_reducible apply keeps_chPush | with_reducible exact fun _ _ h => h
    | with_reducible refine KeepsOut.next ?_ | with_reducible refine Keeps.fst ‹_› ?_
    | with_reducible refine Keeps.snd ‹_› ?_ | with_reducible refine Keeps.mid ‹_› ?_
    | with_reducible refine Keeps.third ‹_› ?_ | with_reducible refine Keeps.thirdLast ‹_› ?_
    | with_reducible refine Keeps.ite ?_ ?_ | split | refine Keeps.upd ?_ rfl rfl)

theorem keeps_execTcfg {z : State} (s : State)  (hk0 : Keeps z s) : KeepsOut z (execTcfg s) := by
  unfold execTcfg
  try dsimp only
  iterate 14 (try any_goals first
    | with_reducible assumption | with_reducible apply keeps_sclFly | with_reducible apply keeps_dequeue
    | with_reducible apply keeps_raise | with_reducible exact fun _ _ h => h
    | with_reducible refine KeepsOut.next ?_ | with_reducible refine Keeps.fst ‹_› ?_
    | with_reducible refine Keeps.snd ‹_› ?_ | with_reducible refine Keeps.mid ‹_› ?_
    | with_reducible refine Keeps.third ‹_› ?_ | with_reducible refine Keeps.thirdLast ‹_› ?_
    | with_reducible refine Keeps.ite ?_ ?_ | split | refine Keeps.upd ?_ rfl rfl)

theorem keeps_execTcommit {z : State} (s : State)  (hk0 : Keeps z s) : KeepsOut z (execTcommit s) := by
  unfold execTcommit
  try dsimp only
  iterate 14 (try any_goals first
    | with_reducible assumption | with_reducible apply keeps_sclFly | with_reducible apply keeps_dequeue
    | with_reducible refine KeepsOut.next ?_ | with_reducible refine Keeps.fst ‹_› ?_
    | with_reducible refine Keeps.snd ‹_› ?_ | with_reducible refine Keeps.mid ‹_› ?_
    | with_reducible refine Keeps.third ‹_› ?_ | with_reducible refine Keeps.thirdLast ‹_› ?_ | split
    | refine Keeps.upd ?_ rfl rfl)

theorem keeps_execTrd {z : State} (s : State)  (hk0 : Keeps z s) : KeepsOut z (execTrd s) := by
  unfold execTrd
  try dsimp only
  iterate 14 (try any_goals first
    | with_reducible assumption | with_reducible apply keeps_sclOp | with_reducible apply keeps_afterFly
    | with_reducible exact fun _ _ h => h | with_reducible refine KeepsOut.next ?_)

theorem keeps_execJread {z : State} (s : State)  (hk0 : Keeps z s) : KeepsOut z (execJread s) := by
  unfold execJread
  try dsimp only
  iterate 14 (try any_goals first
    | with_reducible assumption | with_reducible apply keeps_sclOp | with_reducible exact fun _ _ h => h
    | with_reducible refine KeepsOut.next ?_ | with_reducible refine Keeps.ite ?_ ?_ | split)

theorem keeps_execSclComplete {z : State} (s : State)  (hk0 : Keeps z s) : KeepsOut z (execSclComplete s) := by
  unfold execSclComplete
  split
  · next f _ =>
    split
    · have hf : Keeps z { s with scl := { s.scl with fly := s.scl.fly.erase f } } := Keeps.upd hk0 rfl rfl
      split
      · next u h => exact .next (keeps_complete _ _ (keeps_landRes _ _ (Keeps.fst h (keeps_descReads _ _ hf))))
      · next u h => exact .next (Keeps.fst h (keeps_descReads _ _ hf))
    · exact .next hk0
  · exact .next hk0

theorem keeps_startMember {z : State} (e : Entry) (len : ℕ) (s : State)  (hk0 : Keeps z s) : Keeps z (startMember e len s) := by
  unfold startMember
  try dsimp only
  iterate 14 (try any_goals first
    | with_reducible assumption | with_reducible apply keeps_dequeue | with_reducible apply keeps_descBound
    | with_reducible refine Keeps.ite ?_ ?_ | split | refine Keeps.upd ?_ rfl rfl)

theorem keeps_startVec {z : State} (op : ℕ) (s : State)  (hk0 : Keeps z s) : Keeps z (startVec op s) := by
  unfold startVec
  try dsimp only
  iterate 14 (try any_goals first
    | with_reducible assumption | with_reducible refine keeps_chTake' ‹_› ?_
    | with_reducible apply keeps_chTake | with_reducible apply keeps_startMember
    | with_reducible refine Keeps.fst ‹_› ?_ | with_reducible refine Keeps.snd ‹_› ?_
    | with_reducible refine Keeps.mid ‹_› ?_ | with_reducible refine Keeps.third ‹_› ?_
    | with_reducible refine Keeps.thirdLast ‹_› ?_ | with_reducible refine Keeps.ite ?_ ?_ | split
    | refine Keeps.upd ?_ rfl rfl)

theorem keeps_execChainFlowStart {z : State} (s : State)  (hk0 : Keeps z s) : KeepsOut z (execChainFlowStart s) := by
  unfold execChainFlowStart
  try dsimp only
  iterate 14 (try any_goals first
    | with_reducible assumption | with_reducible apply keeps_raiseInst | with_reducible apply keeps_touch
    | with_reducible exact fun _ _ h => h | with_reducible refine KeepsOut.next ?_
    | with_reducible refine Keeps.foldl (fun _ _ _ => ?_) _ ?_
    | with_reducible refine Keeps.foldlFst (fun _ _ _ => ?_) _ ?_
    | with_reducible refine Keeps.foldlSnd (fun _ _ _ => ?_) _ ?_ | with_reducible refine Keeps.fst ‹_› ?_
    | with_reducible refine Keeps.snd ‹_› ?_ | with_reducible refine Keeps.mid ‹_› ?_
    | with_reducible refine Keeps.third ‹_› ?_ | with_reducible refine Keeps.thirdLast ‹_› ?_
    | with_reducible refine Keeps.ite ?_ ?_ | split | refine Keeps.upd ?_ rfl rfl)

theorem keeps_setLink {z : State} (c : ℕ) (q : List (List (ℕ × ℕ))) (s : State)  (hk0 : Keeps z s) : Keeps z (setLink c q s) := by
  unfold setLink
  try dsimp only
  iterate 14 (try any_goals first
    | with_reducible assumption | refine Keeps.upd ?_ rfl rfl)

theorem keeps_linkPush {z : State} (c : ℕ) (v : List (ℕ × ℕ)) (s : State)  (hk0 : Keeps z s) : KeepsOpt z id (linkPush c v s) := by
  unfold linkPush
  try dsimp only
  iterate 14 (try any_goals first
    | with_reducible assumption | with_reducible apply keeps_setLink | with_reducible exact KeepsOpt.none
    | with_reducible refine KeepsOpt.someId ?_ | with_reducible refine Keeps.ite ?_ ?_ | split)

theorem keeps_linkPush' {z tt : State} {c : ℕ} {v : List (ℕ × ℕ)} {s : State}   (e : (linkPush c v s) = some tt) (hk0 : Keeps z s) : Keeps z tt :=
  (keeps_linkPush _ _ _  hk0).of _ e

theorem keeps_linkPop {z : State} (c : ℕ) (t : InStream) (s : State)  (hk0 : Keeps z s) : Keeps z (linkPop c t s).2 := by
  unfold linkPop
  try dsimp only
  iterate 14 (try any_goals first
    | with_reducible assumption | with_reducible apply keeps_setLink | with_reducible refine Keeps.fst ‹_› ?_
    | with_reducible refine Keeps.snd ‹_› ?_ | with_reducible refine Keeps.mid ‹_› ?_
    | with_reducible refine Keeps.third ‹_› ?_ | with_reducible refine Keeps.thirdLast ‹_› ?_ | split
    | refine Keeps.upd ?_ rfl rfl)

theorem keeps_feed {z : State} (c : ℕ) (w : ℕ) (n : ℕ) (t : InStream) (s : State)  (hk0 : Keeps z s) : KeepsOpt z (fun x => x.2) (feed c w n t s) := by
  unfold feed
  try dsimp only
  iterate 14 (try any_goals first
    | with_reducible assumption | with_reducible apply keeps_linkPop
    | with_reducible refine keeps_fetchElems' ‹_› ?_ | with_reducible apply keeps_fetchElems
    | with_reducible exact KeepsOpt.none | with_reducible refine KeepsOpt.someSnd ?_
    | with_reducible refine Keeps.ite ?_ ?_ | split)

theorem keeps_feed' {z tt : State} {c : ℕ} {w : ℕ} {n : ℕ} {t : InStream} {s : State} {y0 : InStream}  (e : (feed c w n t s) = some (y0, tt)) (hk0 : Keeps z s) : Keeps z tt :=
  (keeps_feed _ _ _ _ _  hk0).of _ e

theorem keeps_readyOperand {z : State} (hi : ℕ) (o : ℕ) (m : Member) (s : State)  (hk0 : Keeps z s) : KeepsOpt z (fun x => x.2) (readyOperand hi o m s) := by
  unfold readyOperand
  try dsimp only
  iterate 14 (try any_goals first
    | with_reducible assumption | with_reducible refine keeps_feed' ‹_› ?_ | with_reducible apply keeps_feed
    | with_reducible exact fun _ _ h => h | with_reducible exact KeepsOpt.none
    | with_reducible refine KeepsOpt.someSnd ?_ | with_reducible refine KeepsOpt.mapSnd (fun _ _ _ => ?_) ?_
    | with_reducible refine Keeps.ite ?_ ?_ | split)

theorem keeps_readyOperand' {z tt : State} {hi : ℕ} {o : ℕ} {m : Member} {s : State} {y0 : Member}  (e : (readyOperand hi o m s) = some (y0, tt)) (hk0 : Keeps z s) : Keeps z tt :=
  (keeps_readyOperand _ _ _ _  hk0).of _ e

theorem keeps_readyMasks {z : State} (n : ℕ) (m : Member) (s : State)  (hk0 : Keeps z s) : KeepsOpt z (fun x => x.2) (readyMasks n m s) := by
  unfold readyMasks
  try dsimp only
  iterate 14 (try any_goals first
    | with_reducible assumption | with_reducible refine keeps_feed' ‹_› ?_ | with_reducible apply keeps_feed
    | with_reducible exact fun _ _ h => h | with_reducible exact KeepsOpt.none
    | with_reducible refine KeepsOpt.someSnd ?_ | with_reducible refine KeepsOpt.mapSnd (fun _ _ _ => ?_) ?_
    | with_reducible refine Keeps.fst ‹_› ?_ | with_reducible refine Keeps.snd ‹_› ?_
    | with_reducible refine Keeps.mid ‹_› ?_ | with_reducible refine Keeps.third ‹_› ?_
    | with_reducible refine Keeps.thirdLast ‹_› ?_ | with_reducible refine Keeps.ite ?_ ?_ | split
    | refine Keeps.upd ?_ rfl rfl)

theorem keeps_readyMasks' {z tt : State} {n : ℕ} {m : Member} {s : State} {y0 : Member}  (e : (readyMasks n m s) = some (y0, tt)) (hk0 : Keeps z s) : Keeps z tt :=
  (keeps_readyMasks _ _ _  hk0).of _ e

theorem keeps_readyExpand {z : State} (n : ℕ) (m : Member) (s : State)  (hk0 : Keeps z s) : KeepsOpt z (fun x => x.2) (readyExpand n m s) := by
  unfold readyExpand
  try dsimp only
  iterate 14 (try any_goals first
    | with_reducible assumption | with_reducible refine keeps_fetchElems' ‹_› ?_
    | with_reducible apply keeps_fetchElems | with_reducible exact fun _ _ h => h
    | with_reducible exact KeepsOpt.none | with_reducible refine KeepsOpt.someSnd ?_
    | with_reducible refine KeepsOpt.mapSnd (fun _ _ _ => ?_) ?_
    | with_reducible refine Keeps.foldl (fun _ _ _ => ?_) _ ?_
    | with_reducible refine Keeps.foldlFst (fun _ _ _ => ?_) _ ?_
    | with_reducible refine Keeps.foldlSnd (fun _ _ _ => ?_) _ ?_ | refine Keeps.upd ?_ rfl rfl)

theorem keeps_readyExpand' {z tt : State} {n : ℕ} {m : Member} {s : State} {y0 : Member}  (e : (readyExpand n m s) = some (y0, tt)) (hk0 : Keeps z s) : Keeps z tt :=
  (keeps_readyExpand _ _ _  hk0).of _ e

theorem keeps_readyMember {z : State} (lo : ℕ) (hi : ℕ) (m : Member) (s : State)  (hk0 : Keeps z s) : KeepsOpt z (fun x => x.2) (readyMember lo hi m s) := by
  unfold readyMember
  refine KeepsOpt.bindSnd (keeps_readyMasks _ _ _ hk0) fun _ t ht => ?_
  dsimp only
  split
  · refine KeepsOpt.bindSnd (keeps_readyExpand _ _ _ ht) fun _ t ht => ?_
    refine KeepsOpt.bindSnd (keeps_readyOperand _ _ _ _ ht) fun _ t ht => ?_
    exact keeps_readyOperand _ _ _ _ ht
  · refine KeepsOpt.bindSnd (keeps_readyOperand _ _ _ _ ht) fun _ t ht => ?_
    refine KeepsOpt.bindSnd (keeps_readyOperand _ _ _ _ ht) fun _ t ht => ?_
    exact keeps_readyOperand _ _ _ _ ht

theorem keeps_readyMember' {z tt : State} {lo : ℕ} {hi : ℕ} {m : Member} {s : State} {y0 : Member}  (e : (readyMember lo hi m s) = some (y0, tt)) (hk0 : Keeps z s) : Keeps z tt :=
  (keeps_readyMember _ _ _ _  hk0).of _ e

theorem keeps_prefetch {z : State} (hi : ℕ) (m : Member) (s : State)  (hk0 : Keeps z s) : Keeps z (prefetch hi m s).2 := by
  unfold prefetch
  try dsimp only
  iterate 14 (try any_goals first
    | with_reducible assumption | with_reducible apply keeps_fetchAhead | with_reducible apply keeps_pullBlocks
    | with_reducible refine Keeps.ite ?_ ?_ | split | refine Keeps.upd ?_ rfl rfl)

theorem keeps_stepMembers {z : State} (oc : List (ℕ × Byte)) (lo : ℕ) (hi : ℕ) (x3 : List Member) (x4 : State)  (hk0 : Keeps z x4) : KeepsOpt z (fun x => x.2) (stepMembers oc lo hi x3 x4) := by
  induction x3 generalizing x4 with
  | nil => exact .someSnd hk0
  | cons m ms ih =>
    unfold stepMembers
    split
    · exact .none
    · have h := keeps_readyMember' ‹_› hk0
      dsimp only
      split
      · exact .none
      · rename_i s' e1
        have h2 : Keeps z s' := by
          split at e1
          · exact keeps_linkPush' e1 h
          · cases e1; exact h
        split
        · exact .none
        · rename_i e; exact .someSnd ((ih _ h2).of _ e)

theorem keeps_stepMembers' {z tt : State} {oc : List (ℕ × Byte)} {lo : ℕ} {hi : ℕ} {x3 : List Member} {x4 : State} {y0 : List (Member × MemberRes)}  (e : (stepMembers oc lo hi x3 x4) = some (y0, tt)) (hk0 : Keeps z x4) : Keeps z tt :=
  (keeps_stepMembers _ _ _ _ _  hk0).of _ e

theorem keeps_cacheCheck {z : State} (f : Flow) (lo : ℕ) (hi : ℕ) (s : State)  (hk0 : Keeps z s) : Keeps z (cacheCheck f lo hi s).1 := by
  unfold cacheCheck
  try dsimp only
  iterate 14 (try any_goals first
    | with_reducible assumption | with_reducible exact fun _ _ h => h | with_reducible refine Keeps.ite ?_ ?_
    | with_reducible refine Keeps.iteFst ?_ ?_ | split | refine Keeps.upd ?_ rfl rfl)

theorem keeps_execVecStep {z : State} (s : State)  (hk0 : Keeps z s) : KeepsOut z (execVecStep s) := by
  unfold execVecStep
  split
  · exact .next hk0
  · dsimp only
    split
    · exact .next hk0
    · split
      next e => exact .next (keeps_raise _ _ _ (Keeps.upd (Keeps.fst e (keeps_cacheCheck _ _ _ _ hk0)) rfl rfl))
      next u e =>
        generalize he : List.foldl _ _ (Flow.members _) = p
        have hp : Keeps z p.2 := by
          rw [← he]
          refine Keeps.foldlSnd (fun q m hq => ?_) _ ?_
          · exact keeps_prefetch _ _ _ hq
          · exact hk0
        have hq : Keeps z { p.2 with err := u.err } := Keeps.upd hp rfl rfl
        split
        · exact .next (Keeps.upd hp rfl rfl)
        next e =>
          have hr := keeps_stepMembers' e hq
          split
          · exact .next (keeps_raise _ _ _ hr)
          · exact .next (keeps_touch _ (keeps_bump _ _ _ (Keeps.upd hr rfl rfl)))

theorem keeps_takeStep {z : State} (o : OutStream) (st : StepOut) (s : State)  (hk0 : Keeps z s) : Keeps z (takeStep o st s).2 := by
  unfold takeStep
  dsimp only
  split
  · exact hk0
  · exact keeps_touch _ (hk0.stores rfl rfl rfl id id id id id id (wf_cacheWrites _ _) id)

theorem keeps_pushOut {z : State} (o : OutStream) (s : State)  (hk0 : Keeps z s) : Keeps z (pushOut o s).2 := by
  unfold pushOut
  try dsimp only
  iterate 14 (try any_goals first
    | with_reducible assumption | with_reducible apply keeps_LineOut_drain | with_reducible apply keeps_foldAll
    | with_reducible exact fun _ _ h => h | with_reducible refine Keeps.fst ‹_› ?_
    | with_reducible refine Keeps.snd ‹_› ?_ | with_reducible refine Keeps.mid ‹_› ?_
    | with_reducible refine Keeps.third ‹_› ?_ | with_reducible refine Keeps.thirdLast ‹_› ?_
    | with_reducible refine Keeps.ite ?_ ?_ | split | refine Keeps.upd ?_ rfl rfl)

theorem keeps_pushCount {z : State} (o : OutStream) (s : State)  (hk0 : Keeps z s) : Keeps z (pushCount o s).2 := by
  unfold pushCount
  try dsimp only
  iterate 14 (try any_goals first
    | with_reducible assumption | with_reducible apply keeps_chPush | with_reducible refine Keeps.fst ‹_› ?_
    | with_reducible refine Keeps.snd ‹_› ?_ | with_reducible refine Keeps.mid ‹_› ?_
    | with_reducible refine Keeps.third ‹_› ?_ | with_reducible refine Keeps.thirdLast ‹_› ?_
    | with_reducible refine Keeps.ite ?_ ?_ | split | refine Keeps.upd ?_ rfl rfl)

theorem keeps_serveOut {z : State} (o : OutStream) (s : State)  (hk0 : Keeps z s) : Keeps z (serveOut o s).2 := by
  unfold serveOut
  try dsimp only
  iterate 14 (try any_goals first
    | with_reducible assumption | with_reducible apply keeps_takeStep | with_reducible apply keeps_pushOut
    | with_reducible apply keeps_pushCount | with_reducible refine Keeps.fst ‹_› ?_
    | with_reducible refine Keeps.snd ‹_› ?_ | with_reducible refine Keeps.mid ‹_› ?_
    | with_reducible refine Keeps.third ‹_› ?_ | with_reducible refine Keeps.thirdLast ‹_› ?_
    | with_reducible refine Keeps.ite ?_ ?_ | split | refine Keeps.upd ?_ rfl rfl)

theorem keeps_execVecResultPush {z : State} (s : State)  (hk0 : Keeps z s) : KeepsOut z (execVecResultPush s) := by
  unfold execVecResultPush
  try dsimp only
  iterate 14 (try any_goals first
    | with_reducible assumption | with_reducible apply keeps_serveOut | with_reducible apply keeps_completeAll
    | with_reducible exact fun _ _ h => h | with_reducible refine KeepsOut.next ?_
    | with_reducible refine Keeps.foldl (fun _ _ _ => ?_) _ ?_
    | with_reducible refine Keeps.foldlFst (fun _ _ _ => ?_) _ ?_
    | with_reducible refine Keeps.foldlSnd (fun _ _ _ => ?_) _ ?_ | with_reducible refine Keeps.fst ‹_› ?_
    | with_reducible refine Keeps.snd ‹_› ?_ | with_reducible refine Keeps.mid ‹_› ?_
    | with_reducible refine Keeps.third ‹_› ?_ | with_reducible refine Keeps.thirdLast ‹_› ?_
    | with_reducible refine Keeps.ite ?_ ?_ | split | refine Keeps.upd ?_ rfl rfl)

theorem keeps_execVecAdd {z : State} (s : State)  (hk0 : Keeps z s) : KeepsOut z (execVecAdd s) := by
  unfold execVecAdd
  try dsimp only
  iterate 14 (try any_goals first
    | with_reducible assumption | with_reducible apply keeps_startVec | with_reducible refine KeepsOut.next ?_)

theorem keeps_execVecSub {z : State} (s : State)  (hk0 : Keeps z s) : KeepsOut z (execVecSub s) := by
  unfold execVecSub
  try dsimp only
  iterate 14 (try any_goals first
    | with_reducible assumption | with_reducible apply keeps_startVec | with_reducible refine KeepsOut.next ?_)

theorem keeps_execVecMul {z : State} (s : State)  (hk0 : Keeps z s) : KeepsOut z (execVecMul s) := by
  unfold execVecMul
  try dsimp only
  iterate 14 (try any_goals first
    | with_reducible assumption | with_reducible apply keeps_startVec | with_reducible refine KeepsOut.next ?_)

theorem keeps_execFma {z : State} (s : State)  (hk0 : Keeps z s) : KeepsOut z (execFma s) := by
  unfold execFma
  try dsimp only
  iterate 14 (try any_goals first
    | with_reducible assumption | with_reducible apply keeps_startVec | with_reducible refine KeepsOut.next ?_)

theorem keeps_execFms {z : State} (s : State)  (hk0 : Keeps z s) : KeepsOut z (execFms s) := by
  unfold execFms
  try dsimp only
  iterate 14 (try any_goals first
    | with_reducible assumption | with_reducible apply keeps_startVec | with_reducible refine KeepsOut.next ?_)

theorem keeps_execFnma {z : State} (s : State)  (hk0 : Keeps z s) : KeepsOut z (execFnma s) := by
  unfold execFnma
  try dsimp only
  iterate 14 (try any_goals first
    | with_reducible assumption | with_reducible apply keeps_startVec | with_reducible refine KeepsOut.next ?_)

theorem keeps_execMul3 {z : State} (s : State)  (hk0 : Keeps z s) : KeepsOut z (execMul3 s) := by
  unfold execMul3
  try dsimp only
  iterate 14 (try any_goals first
    | with_reducible assumption | with_reducible apply keeps_startVec | with_reducible refine KeepsOut.next ?_)

theorem keeps_execAbs {z : State} (s : State)  (hk0 : Keeps z s) : KeepsOut z (execAbs s) := by
  unfold execAbs
  try dsimp only
  iterate 14 (try any_goals first
    | with_reducible assumption | with_reducible apply keeps_startVec | with_reducible refine KeepsOut.next ?_)

theorem keeps_execNeg {z : State} (s : State)  (hk0 : Keeps z s) : KeepsOut z (execNeg s) := by
  unfold execNeg
  try dsimp only
  iterate 14 (try any_goals first
    | with_reducible assumption | with_reducible apply keeps_startVec | with_reducible refine KeepsOut.next ?_)

theorem keeps_execVecMin {z : State} (s : State)  (hk0 : Keeps z s) : KeepsOut z (execVecMin s) := by
  unfold execVecMin
  try dsimp only
  iterate 14 (try any_goals first
    | with_reducible assumption | with_reducible apply keeps_startVec | with_reducible refine KeepsOut.next ?_)

theorem keeps_execVecMax {z : State} (s : State)  (hk0 : Keeps z s) : KeepsOut z (execVecMax s) := by
  unfold execVecMax
  try dsimp only
  iterate 14 (try any_goals first
    | with_reducible assumption | with_reducible apply keeps_startVec | with_reducible refine KeepsOut.next ?_)

theorem keeps_execClamp {z : State} (s : State)  (hk0 : Keeps z s) : KeepsOut z (execClamp s) := by
  unfold execClamp
  try dsimp only
  iterate 14 (try any_goals first
    | with_reducible assumption | with_reducible apply keeps_startVec | with_reducible refine KeepsOut.next ?_)

theorem keeps_execSqd {z : State} (s : State)  (hk0 : Keeps z s) : KeepsOut z (execSqd s) := by
  unfold execSqd
  try dsimp only
  iterate 14 (try any_goals first
    | with_reducible assumption | with_reducible apply keeps_startVec | with_reducible refine KeepsOut.next ?_)

theorem keeps_execCmp {z : State} (s : State)  (hk0 : Keeps z s) : KeepsOut z (execCmp s) := by
  unfold execCmp
  try dsimp only
  iterate 14 (try any_goals first
    | with_reducible assumption | with_reducible apply keeps_startVec | with_reducible refine KeepsOut.next ?_)

theorem keeps_execSel {z : State} (s : State)  (hk0 : Keeps z s) : KeepsOut z (execSel s) := by
  unfold execSel
  try dsimp only
  iterate 14 (try any_goals first
    | with_reducible assumption | with_reducible apply keeps_startVec | with_reducible refine KeepsOut.next ?_)

theorem keeps_execVecAnd {z : State} (s : State)  (hk0 : Keeps z s) : KeepsOut z (execVecAnd s) := by
  unfold execVecAnd
  try dsimp only
  iterate 14 (try any_goals first
    | with_reducible assumption | with_reducible apply keeps_startVec | with_reducible refine KeepsOut.next ?_)

theorem keeps_execVecOr {z : State} (s : State)  (hk0 : Keeps z s) : KeepsOut z (execVecOr s) := by
  unfold execVecOr
  try dsimp only
  iterate 14 (try any_goals first
    | with_reducible assumption | with_reducible apply keeps_startVec | with_reducible refine KeepsOut.next ?_)

theorem keeps_execVecXor {z : State} (s : State)  (hk0 : Keeps z s) : KeepsOut z (execVecXor s) := by
  unfold execVecXor
  try dsimp only
  iterate 14 (try any_goals first
    | with_reducible assumption | with_reducible apply keeps_startVec | with_reducible refine KeepsOut.next ?_)

theorem keeps_execMand {z : State} (s : State)  (hk0 : Keeps z s) : KeepsOut z (execMand s) := by
  unfold execMand
  try dsimp only
  iterate 14 (try any_goals first
    | with_reducible assumption | with_reducible apply keeps_startVec | with_reducible refine KeepsOut.next ?_)

theorem keeps_execMor {z : State} (s : State)  (hk0 : Keeps z s) : KeepsOut z (execMor s) := by
  unfold execMor
  try dsimp only
  iterate 14 (try any_goals first
    | with_reducible assumption | with_reducible apply keeps_startVec | with_reducible refine KeepsOut.next ?_)

theorem keeps_execMnot {z : State} (s : State)  (hk0 : Keeps z s) : KeepsOut z (execMnot s) := by
  unfold execMnot
  try dsimp only
  iterate 14 (try any_goals first
    | with_reducible assumption | with_reducible apply keeps_startVec | with_reducible refine KeepsOut.next ?_)

theorem keeps_execCvt {z : State} (s : State)  (hk0 : Keeps z s) : KeepsOut z (execCvt s) := by
  unfold execCvt
  try dsimp only
  iterate 14 (try any_goals first
    | with_reducible assumption | with_reducible apply keeps_startVec | with_reducible refine KeepsOut.next ?_)

theorem keeps_execPerm {z : State} (s : State)  (hk0 : Keeps z s) : KeepsOut z (execPerm s) := by
  unfold execPerm
  try dsimp only
  iterate 14 (try any_goals first
    | with_reducible assumption | with_reducible apply keeps_startVec | with_reducible refine KeepsOut.next ?_)

theorem keeps_execShuf {z : State} (s : State)  (hk0 : Keeps z s) : KeepsOut z (execShuf s) := by
  unfold execShuf
  try dsimp only
  iterate 14 (try any_goals first
    | with_reducible assumption | with_reducible apply keeps_startVec | with_reducible refine KeepsOut.next ?_)

theorem keeps_execZip {z : State} (s : State)  (hk0 : Keeps z s) : KeepsOut z (execZip s) := by
  unfold execZip
  try dsimp only
  iterate 14 (try any_goals first
    | with_reducible assumption | with_reducible apply keeps_startVec | with_reducible refine KeepsOut.next ?_)

theorem keeps_execEven {z : State} (s : State)  (hk0 : Keeps z s) : KeepsOut z (execEven s) := by
  unfold execEven
  try dsimp only
  iterate 14 (try any_goals first
    | with_reducible assumption | with_reducible apply keeps_startVec | with_reducible refine KeepsOut.next ?_)

theorem keeps_execOdd {z : State} (s : State)  (hk0 : Keeps z s) : KeepsOut z (execOdd s) := by
  unfold execOdd
  try dsimp only
  iterate 14 (try any_goals first
    | with_reducible assumption | with_reducible apply keeps_startVec | with_reducible refine KeepsOut.next ?_)

theorem keeps_execPack {z : State} (s : State)  (hk0 : Keeps z s) : KeepsOut z (execPack s) := by
  unfold execPack
  try dsimp only
  iterate 14 (try any_goals first
    | with_reducible assumption | with_reducible apply keeps_startVec | with_reducible refine KeepsOut.next ?_)

theorem keeps_execUnpack {z : State} (s : State)  (hk0 : Keeps z s) : KeepsOut z (execUnpack s) := by
  unfold execUnpack
  try dsimp only
  iterate 14 (try any_goals first
    | with_reducible assumption | with_reducible apply keeps_startVec | with_reducible refine KeepsOut.next ?_)

theorem keeps_execOcw {z : State} (s : State)  (hk0 : Keeps z s) : KeepsOut z (execOcw s) := by
  unfold execOcw
  try dsimp only
  iterate 14 (try any_goals first
    | with_reducible assumption | with_reducible apply keeps_startVec | with_reducible refine KeepsOut.next ?_)

theorem keeps_execCmprs {z : State} (s : State)  (hk0 : Keeps z s) : KeepsOut z (execCmprs s) := by
  unfold execCmprs
  try dsimp only
  iterate 14 (try any_goals first
    | with_reducible assumption | with_reducible apply keeps_startVec | with_reducible refine KeepsOut.next ?_)

theorem keeps_execExpand {z : State} (s : State)  (hk0 : Keeps z s) : KeepsOut z (execExpand s) := by
  unfold execExpand
  try dsimp only
  iterate 14 (try any_goals first
    | with_reducible assumption | with_reducible apply keeps_startVec | with_reducible refine KeepsOut.next ?_)

theorem keeps_execCnt {z : State} (s : State)  (hk0 : Keeps z s) : KeepsOut z (execCnt s) := by
  unfold execCnt
  try dsimp only
  iterate 14 (try any_goals first
    | with_reducible assumption | with_reducible apply keeps_startVec | with_reducible refine KeepsOut.next ?_)

theorem keeps_execRng {z : State} (s : State)  (hk0 : Keeps z s) : KeepsOut z (execRng s) := by
  unfold execRng
  try dsimp only
  iterate 14 (try any_goals first
    | with_reducible assumption | with_reducible apply keeps_startVec | with_reducible refine KeepsOut.next ?_)

theorem keeps_execExp2 {z : State} (s : State)  (hk0 : Keeps z s) : KeepsOut z (execExp2 s) := by
  unfold execExp2
  try dsimp only
  iterate 14 (try any_goals first
    | with_reducible assumption | with_reducible apply keeps_startVec | with_reducible refine KeepsOut.next ?_)

theorem keeps_execLog2 {z : State} (s : State)  (hk0 : Keeps z s) : KeepsOut z (execLog2 s) := by
  unfold execLog2
  try dsimp only
  iterate 14 (try any_goals first
    | with_reducible assumption | with_reducible apply keeps_startVec | with_reducible refine KeepsOut.next ?_)

theorem keeps_execRcp {z : State} (s : State)  (hk0 : Keeps z s) : KeepsOut z (execRcp s) := by
  unfold execRcp
  try dsimp only
  iterate 14 (try any_goals first
    | with_reducible assumption | with_reducible apply keeps_startVec | with_reducible refine KeepsOut.next ?_)

theorem keeps_execRsqrt {z : State} (s : State)  (hk0 : Keeps z s) : KeepsOut z (execRsqrt s) := by
  unfold execRsqrt
  try dsimp only
  iterate 14 (try any_goals first
    | with_reducible assumption | with_reducible apply keeps_startVec | with_reducible refine KeepsOut.next ?_)

theorem keeps_execSqrt {z : State} (s : State)  (hk0 : Keeps z s) : KeepsOut z (execSqrt s) := by
  unfold execSqrt
  try dsimp only
  iterate 14 (try any_goals first
    | with_reducible assumption | with_reducible apply keeps_startVec | with_reducible refine KeepsOut.next ?_)

theorem keeps_execTanh {z : State} (s : State)  (hk0 : Keeps z s) : KeepsOut z (execTanh s) := by
  unfold execTanh
  try dsimp only
  iterate 14 (try any_goals first
    | with_reducible assumption | with_reducible apply keeps_startVec | with_reducible refine KeepsOut.next ?_)

theorem keeps_execSigm {z : State} (s : State)  (hk0 : Keeps z s) : KeepsOut z (execSigm s) := by
  unfold execSigm
  try dsimp only
  iterate 14 (try any_goals first
    | with_reducible assumption | with_reducible apply keeps_startVec | with_reducible refine KeepsOut.next ?_)

theorem keeps_execErf {z : State} (s : State)  (hk0 : Keeps z s) : KeepsOut z (execErf s) := by
  unfold execErf
  try dsimp only
  iterate 14 (try any_goals first
    | with_reducible assumption | with_reducible apply keeps_startVec | with_reducible refine KeepsOut.next ?_)

theorem keeps_execUtab {z : State} (s : State)  (hk0 : Keeps z s) : KeepsOut z (execUtab s) := by
  unfold execUtab
  try dsimp only
  iterate 14 (try any_goals first
    | with_reducible assumption | with_reducible apply keeps_startVec | with_reducible refine KeepsOut.next ?_)

end Sys2Proof.Machine
end

