-- ==== Sys2Proof/Laws/KeepsMove.lean ====
section
/-! SUPPORT. What each operation keeps (Laws/Keeps.lean): the movement units, the compressor, the checkpoint, fabric requests and reductions. -/

set_option maxRecDepth 20000

namespace Sys2Proof.Machine

theorem keeps_digestAdd {z : State} (recv : Bool) (job : ℕ) (step : ℕ) (crc : ℕ) (s : State)  (hk0 : Keeps z s) : Keeps z (digestAdd recv job step crc s) := by
  unfold digestAdd
  try dsimp only
  iterate 14 (try any_goals first
    | with_reducible assumption | with_reducible refine Keeps.ite ?_ ?_ | split | refine Keeps.upd ?_ rfl rfl)

theorem keeps_resCount {z : State} (r : Recv) (p : ResPiece) (s : State)  (hk0 : Keeps z s) : Keeps z (resCount r p s) := by
  unfold resCount
  try dsimp only
  iterate 14 (try any_goals first
    | with_reducible assumption | with_reducible apply keeps_bump)

theorem keeps_norx {z : State} (s : State)  (hk0 : Keeps z s) : Keeps z (norx s) := by
  unfold norx
  try dsimp only
  iterate 14 (try any_goals first
    | with_reducible assumption | with_reducible apply keeps_bump | refine Keeps.upd ?_ rfl rfl)

theorem keeps_redDeliver {z : State} (p : ResPiece) (s : State)  (hk0 : Keeps z s) : Keeps z (redDeliver p s) := by
  unfold redDeliver
  try dsimp only
  iterate 14 (try any_goals first
    | with_reducible assumption | with_reducible apply keeps_norx | with_reducible apply keeps_digestAdd
    | with_reducible apply keeps_resCount | with_reducible apply keeps_scaleEvent
    | with_reducible apply keeps_poolWrite | with_reducible apply keeps_raise
    | with_reducible exact fun _ _ h => h | with_reducible refine Keeps.fst ‹_› ?_
    | with_reducible refine Keeps.snd ‹_› ?_ | with_reducible refine Keeps.mid ‹_› ?_
    | with_reducible refine Keeps.third ‹_› ?_ | with_reducible refine Keeps.thirdLast ‹_› ?_
    | with_reducible refine Keeps.ite ?_ ?_ | split | refine Keeps.upd ?_ rfl rfl)

theorem keeps_recvTick {z : State} (s : State)  (hk0 : Keeps z s) : Keeps z (recvTick s) := by
  unfold recvTick
  try dsimp only
  iterate 14 (try any_goals first
    | with_reducible assumption | with_reducible apply keeps_addLater | with_reducible exact fun _ _ h => h
    | with_reducible refine Keeps.foldl (fun _ _ _ => ?_) _ ?_
    | with_reducible refine Keeps.foldlFst (fun _ _ _ => ?_) _ ?_
    | with_reducible refine Keeps.foldlSnd (fun _ _ _ => ?_) _ ?_ | with_reducible refine Keeps.ite ?_ ?_
    | split | refine Keeps.upd ?_ rfl rfl)

theorem keeps_redFault {z : State} (code : Byte) (e : Entry) (s : State)  (hk0 : Keeps z s) : Keeps z (redFault code e s) := by
  unfold redFault
  try dsimp only
  iterate 14 (try any_goals first
    | with_reducible assumption | with_reducible apply keeps_raise)

theorem keeps_setFabOp {z : State} (id : ℕ) (f : FabOp → FabOp) (s : State)  (hk0 : Keeps z s) : Keeps z (setFabOp id f s) := by
  unfold setFabOp
  try dsimp only
  iterate 14 (try any_goals first
    | with_reducible assumption | with_reducible exact fun _ _ h => h | with_reducible refine Keeps.ite ?_ ?_
    | split | refine Keeps.upd ?_ rfl rfl)

theorem keeps_dropFabOp {z : State} (id : ℕ) (s : State)  (hk0 : Keeps z s) : Keeps z (dropFabOp id s) := by
  unfold dropFabOp
  try dsimp only
  iterate 14 (try any_goals first
    | with_reducible assumption | with_reducible exact fun _ _ h => h | refine Keeps.upd ?_ rfl rfl)

theorem keeps_sendContrib {z : State} (e : Entry) (c : Contrib) (s : State)  (hk0 : Keeps z s) : Keeps z (sendContrib e c s) := by
  unfold sendContrib
  try dsimp only
  iterate 14 (try any_goals first
    | with_reducible assumption | with_reducible apply keeps_digestAdd | with_reducible apply keeps_setFabOp
    | with_reducible exact fun _ _ h => h | with_reducible refine Keeps.foldl (fun _ _ _ => ?_) _ ?_
    | with_reducible refine Keeps.foldlFst (fun _ _ _ => ?_) _ ?_
    | with_reducible refine Keeps.foldlSnd (fun _ _ _ => ?_) _ ?_ | with_reducible refine Keeps.ite ?_ ?_
    | split | refine Keeps.upd ?_ rfl rfl)

theorem keeps_redForm {z : State} (e : Entry) (nf : Bool) (bytes : List Byte) (s : State)  (hk0 : Keeps z s) : Keeps z (redForm e nf bytes s) := by
  unfold redForm
  try dsimp only
  iterate 14 (try any_goals first
    | with_reducible assumption | with_reducible apply keeps_sendContrib | with_reducible apply keeps_redFault
    | with_reducible apply keeps_poolRead | with_reducible apply keeps_poolUe
    | with_reducible apply keeps_poolWrite | with_reducible exact fun _ _ h => h
    | with_reducible refine Keeps.fst ‹_› ?_ | with_reducible refine Keeps.snd ‹_› ?_
    | with_reducible refine Keeps.mid ‹_› ?_ | with_reducible refine Keeps.third ‹_› ?_
    | with_reducible refine Keeps.thirdLast ‹_› ?_ | with_reducible refine Keeps.ite ?_ ?_ | split
    | refine Keeps.upd ?_ rfl rfl)

theorem keeps_startRecv {z : State} (e : Entry) (s : State)  (hk0 : Keeps z s) : KeepsOpt z (fun x => x.2) (startRecv e s) := by
  unfold startRecv
  try dsimp only
  iterate 14 (try any_goals first
    | with_reducible assumption | with_reducible apply keeps_postRecv | with_reducible exact KeepsOpt.none
    | with_reducible refine KeepsOpt.someSnd ?_ | with_reducible refine Keeps.ite ?_ ?_ | split)

theorem keeps_startRecv' {z tt : State} {e : Entry} {s : State} {y0 : Entry}  (e : (startRecv e s) = some (y0, tt)) (hk0 : Keeps z s) : Keeps z tt :=
  (keeps_startRecv _ _  hk0).of _ e

theorem keeps_startReduce {z : State} (op : ℕ) (go : Entry → State → State) (s : State) (hgo : ∀ a0 a1, Keeps z a1 → Keeps z (go a0 a1)) (hk0 : Keeps z s) : Keeps z (startReduce op go s) := by
  unfold startReduce
  try dsimp only
  iterate 14 (try any_goals first
    | with_reducible assumption | with_reducible apply keeps_redFault | with_reducible apply keeps_dequeue
    | with_reducible refine keeps_startRecv' ‹_› ?_ | with_reducible apply keeps_startRecv
    | with_reducible apply hgo | with_reducible refine Keeps.fst ‹_› ?_
    | with_reducible refine Keeps.snd ‹_› ?_ | with_reducible refine Keeps.mid ‹_› ?_
    | with_reducible refine Keeps.third ‹_› ?_ | with_reducible refine Keeps.thirdLast ‹_› ?_
    | with_reducible refine Keeps.ite ?_ ?_ | split | refine Keeps.upd ?_ rfl rfl)

theorem keeps_execRsend {z : State} (s : State)  (hk0 : Keeps z s) : KeepsOut z (execRsend s) := by
  unfold execRsend
  split
  · exact .next hk0
  · refine .next (keeps_startReduce _ _ _ (fun e t ht => ?_) hk0)
    split
    · exact Keeps.upd ht rfl rfl
    · exact keeps_descBound _ _ _ ht

theorem keeps_execRmaxs {z : State} (s : State)  (hk0 : Keeps z s) : KeepsOut z (execRmaxs s) :=
  .next (keeps_startReduce _ _ _ (fun _ _ ht => keeps_sendContrib _ _ _ (Keeps.upd ht rfl rfl)) hk0)

theorem keeps_localTick {z : State} (o : FabOp) (s : State)  (hk0 : Keeps z s) : Keeps z (localTick o s) := by
  unfold localTick
  try dsimp only
  iterate 14 (try any_goals first
    | with_reducible assumption | with_reducible apply keeps_redDeliver | with_reducible apply keeps_complete
    | with_reducible apply keeps_dropFabOp | with_reducible apply keeps_setFabOp
    | with_reducible exact fun _ _ h => h | with_reducible refine Keeps.fst ‹_› ?_
    | with_reducible refine Keeps.snd ‹_› ?_ | with_reducible refine Keeps.mid ‹_› ?_
    | with_reducible refine Keeps.third ‹_› ?_ | with_reducible refine Keeps.thirdLast ‹_› ?_
    | with_reducible refine Keeps.ite ?_ ?_ | split | refine Keeps.upd ?_ rfl rfl)

theorem keeps_redTick {z : State} (o : FabOp) (s : State)  (hk0 : Keeps z s) : Keeps z (redTick o s) := by
  unfold redTick
  try dsimp only
  iterate 14 (try any_goals first
    | with_reducible assumption | with_reducible refine keeps_chTake' ‹_› ?_
    | with_reducible apply keeps_chTake | with_reducible apply keeps_redFault
    | with_reducible apply keeps_setFabOp | with_reducible apply keeps_redForm
    | with_reducible exact fun _ _ h => h | with_reducible refine Keeps.foldl (fun _ _ _ => ?_) _ ?_
    | with_reducible refine Keeps.foldlFst (fun _ _ _ => ?_) _ ?_
    | with_reducible refine Keeps.foldlSnd (fun _ _ _ => ?_) _ ?_ | with_reducible refine Keeps.fst ‹_› ?_
    | with_reducible refine Keeps.snd ‹_› ?_ | with_reducible refine Keeps.mid ‹_› ?_
    | with_reducible refine Keeps.third ‹_› ?_ | with_reducible refine Keeps.thirdLast ‹_› ?_
    | with_reducible refine Keeps.ite ?_ ?_ | split | refine Keeps.upd ?_ rfl rfl)

theorem keeps_startGather {z : State} (op : ℕ) (s : State)  (hk0 : Keeps z s) : Keeps z (startGather op s) := by
  unfold startGather
  try dsimp only
  iterate 14 (try any_goals first
    | with_reducible assumption | with_reducible apply keeps_dequeue | with_reducible apply keeps_descBound
    | with_reducible refine keeps_chTake' ‹_› ?_ | with_reducible apply keeps_chTake
    | with_reducible refine Keeps.fst ‹_› ?_ | with_reducible refine Keeps.snd ‹_› ?_
    | with_reducible refine Keeps.mid ‹_› ?_ | with_reducible refine Keeps.third ‹_› ?_
    | with_reducible refine Keeps.thirdLast ‹_› ?_ | with_reducible refine Keeps.ite ?_ ?_ | split
    | refine Keeps.upd ?_ rfl rfl)

theorem keeps_execGath {z : State} (s : State)  (hk0 : Keeps z s) : KeepsOut z (execGath s) := by
  unfold execGath
  try dsimp only
  iterate 14 (try any_goals first
    | with_reducible assumption | with_reducible apply keeps_startGather
    | with_reducible refine KeepsOut.next ?_)

theorem keeps_execScst {z : State} (s : State)  (hk0 : Keeps z s) : KeepsOut z (execScst s) := by
  unfold execScst
  try dsimp only
  iterate 14 (try any_goals first
    | with_reducible assumption | with_reducible apply keeps_startGather
    | with_reducible refine KeepsOut.next ?_)

theorem keeps_execMovScadd {z : State} (s : State)  (hk0 : Keeps z s) : KeepsOut z (execMovScadd s) := by
  unfold execMovScadd
  try dsimp only
  iterate 14 (try any_goals first
    | with_reducible assumption | with_reducible apply keeps_startGather
    | with_reducible refine KeepsOut.next ?_)

theorem keeps_pullPlain {z : State} (ep : ℕ) (c : ℕ) (w : ℕ) (n : ℕ) (st : InStream) (s : State)  (hk0 : Keeps z s) : Keeps z (pullPlain ep c w n st s).2 := by
  unfold pullPlain
  try dsimp only
  iterate 14 (try any_goals first
    | with_reducible assumption | with_reducible refine keeps_chTake' ‹_› ?_
    | with_reducible apply keeps_chTake | with_reducible exact fun _ _ h => h
    | with_reducible refine Keeps.foldl (fun _ _ _ => ?_) _ ?_
    | with_reducible refine Keeps.foldlFst (fun _ _ _ => ?_) _ ?_
    | with_reducible refine Keeps.foldlSnd (fun _ _ _ => ?_) _ ?_ | with_reducible refine Keeps.fst ‹_› ?_
    | with_reducible refine Keeps.snd ‹_› ?_ | with_reducible refine Keeps.mid ‹_› ?_
    | with_reducible refine Keeps.third ‹_› ?_ | with_reducible refine Keeps.thirdLast ‹_› ?_
    | with_reducible refine Keeps.ite ?_ ?_ | split | refine Keeps.upd ?_ rfl rfl)

theorem keeps_setGath {z : State} (g : Option Gath) (s : State)  (hk0 : Keeps z s) : Keeps z (setGath g s) := by
  unfold setGath
  try dsimp only
  iterate 14 (try any_goals first
    | with_reducible assumption | refine Keeps.upd ?_ rfl rfl)

theorem keeps_gatherWork {z : State} (g : Gath) (w : GWork) (s : State)  (hk0 : Keeps z s) : Keeps z (gatherWork g w s) := by
  unfold gatherWork
  try dsimp only
  iterate 14 (try any_goals first
    | with_reducible assumption | with_reducible apply keeps_writeElems | with_reducible apply keeps_readElems
    | with_reducible apply keeps_poolUe | with_reducible apply keeps_setGath
    | with_reducible exact fun _ _ h => h | with_reducible refine Keeps.fst ‹_› ?_
    | with_reducible refine Keeps.snd ‹_› ?_ | with_reducible refine Keeps.mid ‹_› ?_
    | with_reducible refine Keeps.third ‹_› ?_ | with_reducible refine Keeps.thirdLast ‹_› ?_
    | with_reducible refine Keeps.ite ?_ ?_ | split | refine Keeps.upd ?_ rfl rfl)

theorem keeps_beginEntry {z : State} (g : Gath) (p : EntryPlan) (codes : List ℕ) (s : State)  (hk0 : Keeps z s) : Keeps z (beginEntry g p codes s) := by
  unfold beginEntry
  try dsimp only
  iterate 14 (try any_goals first
    | with_reducible assumption | with_reducible apply keeps_setGath | with_reducible apply keeps_gatherWork
    | with_reducible exact fun _ _ h => h | with_reducible refine Keeps.fst ‹_› ?_
    | with_reducible refine Keeps.snd ‹_› ?_ | with_reducible refine Keeps.mid ‹_› ?_
    | with_reducible refine Keeps.third ‹_› ?_ | with_reducible refine Keeps.thirdLast ‹_› ?_
    | with_reducible refine Keeps.ite ?_ ?_ | split | refine Keeps.upd ?_ rfl rfl)

theorem keeps_execGatherEntryStart {z : State} (s : State)  (hk0 : Keeps z s) : KeepsOut z (execGatherEntryStart s) := by
  unfold execGatherEntryStart
  try dsimp only
  iterate 14 (try any_goals first
    | with_reducible assumption | with_reducible apply keeps_pullPlain | with_reducible apply keeps_setGath
    | with_reducible apply keeps_raise | with_reducible apply keeps_beginEntry
    | with_reducible refine KeepsOut.next ?_ | with_reducible refine Keeps.fst ‹_› ?_
    | with_reducible refine Keeps.snd ‹_› ?_ | with_reducible refine Keeps.mid ‹_› ?_
    | with_reducible refine Keeps.third ‹_› ?_ | with_reducible refine Keeps.thirdLast ‹_› ?_
    | with_reducible refine Keeps.ite ?_ ?_ | split | refine Keeps.upd ?_ rfl rfl)

theorem keeps_gatherAsk {z : State} (s : State)  (hk0 : Keeps z s) : KeepsOpt z id (gatherAsk s) := by
  unfold gatherAsk
  try dsimp only
  iterate 14 (try any_goals first
    | with_reducible assumption | with_reducible apply keeps_freshTag | with_reducible apply keeps_setGath
    | with_reducible apply keeps_queueInst | with_reducible exact fun _ _ h => h
    | with_reducible exact KeepsOpt.none | with_reducible refine KeepsOpt.someId ?_
    | with_reducible refine KeepsOpt.mapSnd (fun _ _ _ => ?_) ?_ | with_reducible refine Keeps.fst ‹_› ?_
    | with_reducible refine Keeps.snd ‹_› ?_ | with_reducible refine Keeps.mid ‹_› ?_
    | with_reducible refine Keeps.third ‹_› ?_ | with_reducible refine Keeps.thirdLast ‹_› ?_
    | with_reducible refine Keeps.ite ?_ ?_ | split | refine Keeps.upd ?_ rfl rfl)

theorem keeps_gatherAsk' {z tt : State} {s : State}   (e : (gatherAsk s) = some tt) (hk0 : Keeps z s) : Keeps z tt :=
  (keeps_gatherAsk _  hk0).of _ e

theorem keeps_gatherReply {z : State} (idx : ℕ) (k : ℕ) (bs : List Byte) (s : State)  (hk0 : Keeps z s) : Keeps z (gatherReply idx k bs s) := by
  unfold gatherReply
  try dsimp only
  iterate 14 (try any_goals first
    | with_reducible assumption | with_reducible apply keeps_setGath | with_reducible exact fun _ _ h => h
    | with_reducible refine Keeps.fst ‹_› ?_ | with_reducible refine Keeps.snd ‹_› ?_
    | with_reducible refine Keeps.mid ‹_› ?_ | with_reducible refine Keeps.third ‹_› ?_
    | with_reducible refine Keeps.thirdLast ‹_› ?_ | with_reducible refine Keeps.ite ?_ ?_ | split
    | refine Keeps.upd ?_ rfl rfl)

theorem keeps_gatherOut {z : State} (g : Gath) (s : State)  (hk0 : Keeps z s) : Keeps z (gatherOut g s) := by
  unfold gatherOut
  try dsimp only
  iterate 14 (try any_goals first
    | with_reducible assumption | with_reducible apply keeps_LineOut_drain | with_reducible apply keeps_setGath
    | with_reducible apply keeps_complete | with_reducible apply keeps_chPush
    | with_reducible refine Keeps.fst ‹_› ?_ | with_reducible refine Keeps.snd ‹_› ?_
    | with_reducible refine Keeps.mid ‹_› ?_ | with_reducible refine Keeps.third ‹_› ?_
    | with_reducible refine Keeps.thirdLast ‹_› ?_ | with_reducible refine Keeps.ite ?_ ?_ | split
    | refine Keeps.upd ?_ rfl rfl)

theorem keeps_gatherTick {z : State} (s : State)  (hk0 : Keeps z s) : Keeps z (gatherTick s) := by
  unfold gatherTick
  try dsimp only
  iterate 14 (try any_goals first
    | with_reducible assumption | with_reducible apply keeps_gatherWork | with_reducible apply keeps_gatherOut
    | with_reducible refine Keeps.fst ‹_› ?_ | with_reducible refine Keeps.snd ‹_› ?_
    | with_reducible refine Keeps.mid ‹_› ?_ | with_reducible refine Keeps.third ‹_› ?_
    | with_reducible refine Keeps.thirdLast ‹_› ?_ | with_reducible refine Keeps.ite ?_ ?_ | split
    | refine Keeps.upd ?_ rfl rfl)

theorem keeps_actFault {z : State} (code : Byte) (e : Entry) (s : State)  (hk0 : Keeps z s) : Keeps z (actFault code e s) := by
  unfold actFault
  try dsimp only
  iterate 14 (try any_goals first
    | with_reducible assumption | with_reducible apply keeps_raise)

theorem keeps_setAcmp {z : State} (a : Option Acmp) (s : State)  (hk0 : Keeps z s) : Keeps z (setAcmp a s) := by
  unfold setAcmp
  try dsimp only
  iterate 14 (try any_goals first
    | with_reducible assumption | refine Keeps.upd ?_ rfl rfl)

theorem keeps_startAcmp {z : State} (op : ℕ) (save : Bool) (s : State)  (hk0 : Keeps z s) : Keeps z (startAcmp op save s) := by
  unfold startAcmp
  try dsimp only
  iterate 14 (try any_goals first
    | with_reducible assumption | with_reducible apply keeps_dequeue | with_reducible apply keeps_setAcmp
    | with_reducible apply keeps_descBound | with_reducible refine Keeps.fst ‹_› ?_
    | with_reducible refine Keeps.snd ‹_› ?_ | with_reducible refine Keeps.mid ‹_› ?_
    | with_reducible refine Keeps.third ‹_› ?_ | with_reducible refine Keeps.thirdLast ‹_› ?_
    | with_reducible refine Keeps.ite ?_ ?_ | split | refine Keeps.upd ?_ rfl rfl)

theorem keeps_execAcsv {z : State} (s : State)  (hk0 : Keeps z s) : KeepsOut z (execAcsv s) := by
  unfold execAcsv
  try dsimp only
  iterate 14 (try any_goals first
    | with_reducible assumption | with_reducible apply keeps_startAcmp | with_reducible refine KeepsOut.next ?_)

theorem keeps_execAcrs {z : State} (s : State)  (hk0 : Keeps z s) : KeepsOut z (execAcrs s) := by
  unfold execAcrs
  try dsimp only
  iterate 14 (try any_goals first
    | with_reducible assumption | with_reducible apply keeps_startAcmp | with_reducible refine KeepsOut.next ?_)

theorem keeps_acmpPut {z : State} (a : Acmp) (off : ℕ) (bs : List Byte) (index : ℕ) (s : State)  (hk0 : Keeps z s) : Keeps z (acmpPut a off bs index s) := by
  unfold acmpPut
  try dsimp only
  iterate 14 (try any_goals first
    | with_reducible assumption | with_reducible apply keeps_freshTag | with_reducible apply keeps_queueInst
    | with_reducible refine Keeps.fst ‹_› ?_ | with_reducible refine Keeps.snd ‹_› ?_
    | with_reducible refine Keeps.mid ‹_› ?_ | with_reducible refine Keeps.third ‹_› ?_
    | with_reducible refine Keeps.thirdLast ‹_› ?_ | split | refine Keeps.upd ?_ rfl rfl)

theorem keeps_acmpGet {z : State} (a : Acmp) (off : ℕ) (n : ℕ) (index : ℕ) (s : State)  (hk0 : Keeps z s) : Keeps z (acmpGet a off n index s) := by
  unfold acmpGet
  try dsimp only
  iterate 14 (try any_goals first
    | with_reducible assumption | with_reducible apply keeps_freshTag | with_reducible apply keeps_queueInst
    | with_reducible refine Keeps.fst ‹_› ?_ | with_reducible refine Keeps.snd ‹_› ?_
    | with_reducible refine Keeps.mid ‹_› ?_ | with_reducible refine Keeps.third ‹_› ?_
    | with_reducible refine Keeps.thirdLast ‹_› ?_ | split | refine Keeps.upd ?_ rfl rfl)

theorem keeps_acmpAsk {z : State} (s : State)  (hk0 : Keeps z s) : KeepsOpt z id (acmpAsk s) := by
  unfold acmpAsk
  try dsimp only
  iterate 14 (try any_goals first
    | with_reducible assumption | with_reducible apply keeps_acmpPut | with_reducible apply keeps_setAcmp
    | with_reducible apply keeps_acmpGet | with_reducible exact KeepsOpt.none
    | with_reducible refine KeepsOpt.someId ?_ | with_reducible refine Keeps.fst ‹_› ?_
    | with_reducible refine Keeps.snd ‹_› ?_ | with_reducible refine Keeps.mid ‹_› ?_
    | with_reducible refine Keeps.third ‹_› ?_ | with_reducible refine Keeps.thirdLast ‹_› ?_
    | with_reducible refine Keeps.ite ?_ ?_ | split | refine Keeps.upd ?_ rfl rfl)

theorem keeps_acmpAsk' {z tt : State} {s : State}   (e : (acmpAsk s) = some tt) (hk0 : Keeps z s) : Keeps z tt :=
  (keeps_acmpAsk _  hk0).of _ e

theorem keeps_acmpAck {z : State} (index : ℕ) (s : State)  (hk0 : Keeps z s) : Keeps z (acmpAck index s) := by
  unfold acmpAck
  try dsimp only
  iterate 14 (try any_goals first
    | with_reducible assumption | with_reducible apply keeps_complete | with_reducible apply keeps_setAcmp
    | with_reducible refine Keeps.fst ‹_› ?_ | with_reducible refine Keeps.snd ‹_› ?_
    | with_reducible refine Keeps.mid ‹_› ?_ | with_reducible refine Keeps.third ‹_› ?_
    | with_reducible refine Keeps.thirdLast ‹_› ?_ | with_reducible refine Keeps.ite ?_ ?_ | split
    | refine Keeps.upd ?_ rfl rfl)

theorem keeps_acmpReply {z : State} (index : ℕ) (bs : List Byte) (s : State)  (hk0 : Keeps z s) : Keeps z (acmpReply index bs s) := by
  unfold acmpReply
  try dsimp only
  iterate 14 (try any_goals first
    | with_reducible assumption | with_reducible apply keeps_setAcmp | with_reducible apply keeps_actFault
    | with_reducible refine Keeps.fst ‹_› ?_ | with_reducible refine Keeps.snd ‹_› ?_
    | with_reducible refine Keeps.mid ‹_› ?_ | with_reducible refine Keeps.third ‹_› ?_
    | with_reducible refine Keeps.thirdLast ‹_› ?_ | with_reducible refine Keeps.ite ?_ ?_ | split
    | refine Keeps.upd ?_ rfl rfl)

theorem keeps_saveTick {z : State} (a : Acmp) (s : State)  (hk0 : Keeps z s) : Keeps z (saveTick a s) := by
  unfold saveTick
  try dsimp only
  iterate 14 (try any_goals first
    | with_reducible assumption | with_reducible apply keeps_pullPlain | with_reducible apply keeps_setAcmp
    | with_reducible apply keeps_freshBits | with_reducible refine Keeps.fst ‹_› ?_
    | with_reducible refine Keeps.snd ‹_› ?_ | with_reducible refine Keeps.mid ‹_› ?_
    | with_reducible refine Keeps.third ‹_› ?_ | with_reducible refine Keeps.thirdLast ‹_› ?_
    | with_reducible refine Keeps.ite ?_ ?_ | split | refine Keeps.upd ?_ rfl rfl)

theorem keeps_restoreTick {z : State} (a : Acmp) (s : State)  (hk0 : Keeps z s) : Keeps z (restoreTick a s) := by
  unfold restoreTick
  try dsimp only
  iterate 14 (try any_goals first
    | with_reducible assumption | with_reducible apply keeps_LineOut_drain | with_reducible apply keeps_setAcmp
    | with_reducible apply keeps_actFault | with_reducible apply keeps_complete
    | with_reducible refine Keeps.fst ‹_› ?_ | with_reducible refine Keeps.snd ‹_› ?_
    | with_reducible refine Keeps.mid ‹_› ?_ | with_reducible refine Keeps.third ‹_› ?_
    | with_reducible refine Keeps.thirdLast ‹_› ?_ | with_reducible refine Keeps.ite ?_ ?_ | split
    | refine Keeps.upd ?_ rfl rfl)

theorem keeps_acmpTick {z : State} (s : State)  (hk0 : Keeps z s) : Keeps z (acmpTick s) := by
  unfold acmpTick
  try dsimp only
  iterate 14 (try any_goals first
    | with_reducible assumption | with_reducible apply keeps_saveTick | with_reducible apply keeps_restoreTick
    | with_reducible refine Keeps.fst ‹_› ?_ | with_reducible refine Keeps.snd ‹_› ?_
    | with_reducible refine Keeps.mid ‹_› ?_ | with_reducible refine Keeps.third ‹_› ?_
    | with_reducible refine Keeps.thirdLast ‹_› ?_ | with_reducible refine Keeps.ite ?_ ?_ | split
    | refine Keeps.upd ?_ rfl rfl)

theorem keeps_armEnd {z : State} (state : ℕ) (s : State)  (hk0 : Keeps z s) : Keeps z (armEnd state s) := by
  unfold armEnd
  try dsimp only
  iterate 14 (try any_goals first
    | with_reducible assumption | refine Keeps.upd ?_ rfl rfl)

theorem keeps_armStart {z : State} (s : State)  (hk0 : Keeps z s) : Keeps z (armStart s) := by
  unfold armStart
  try dsimp only
  iterate 14 (try any_goals first
    | with_reducible assumption | with_reducible apply keeps_armEnd | with_reducible apply keeps_freshTag
    | with_reducible refine keeps_queuePacket' ‹_› ?_ | with_reducible apply keeps_queuePacket
    | with_reducible refine Keeps.fst ‹_› ?_ | with_reducible refine Keeps.snd ‹_› ?_
    | with_reducible refine Keeps.mid ‹_› ?_ | with_reducible refine Keeps.third ‹_› ?_
    | with_reducible refine Keeps.thirdLast ‹_› ?_ | with_reducible refine Keeps.ite ?_ ?_ | split
    | refine Keeps.upd ?_ rfl rfl)

theorem keeps_armAnswer {z : State} (payload : List Byte) (s : State)  (hk0 : Keeps z s) : Keeps z (armAnswer payload s) := by
  unfold armAnswer
  try dsimp only
  iterate 14 (try any_goals first
    | with_reducible assumption | with_reducible apply keeps_armEnd | with_reducible refine Keeps.ite ?_ ?_
    | split | refine Keeps.upd ?_ rfl rfl)

theorem keeps_execArmProbeTimeout {z : State} (s : State)  (hk0 : Keeps z s) : KeepsOut z (execArmProbeTimeout s) := by
  unfold execArmProbeTimeout
  try dsimp only
  iterate 14 (try any_goals first
    | with_reducible assumption | with_reducible apply keeps_armEnd | with_reducible refine KeepsOut.next ?_
    | with_reducible refine Keeps.fst ‹_› ?_ | with_reducible refine Keeps.snd ‹_› ?_
    | with_reducible refine Keeps.mid ‹_› ?_ | with_reducible refine Keeps.third ‹_› ?_
    | with_reducible refine Keeps.thirdLast ‹_› ?_ | with_reducible refine Keeps.ite ?_ ?_ | split
    | refine Keeps.upd ?_ rfl rfl)

theorem keeps_execCkptStopEntry {z : State} (s : State)  (hk0 : Keeps z s) : KeepsOut z (execCkptStopEntry s) := by
  unfold execCkptStopEntry
  try dsimp only
  iterate 14 (try any_goals first
    | with_reducible assumption | with_reducible apply keeps_raise | with_reducible refine KeepsOut.next ?_
    | with_reducible refine Keeps.fst ‹_› ?_ | with_reducible refine Keeps.snd ‹_› ?_
    | with_reducible refine Keeps.mid ‹_› ?_ | with_reducible refine Keeps.third ‹_› ?_
    | with_reducible refine Keeps.thirdLast ‹_› ?_ | with_reducible refine Keeps.ite ?_ ?_ | split
    | refine Keeps.upd ?_ rfl rfl)

theorem keeps_copyStart {z : State} (snap : Bool) (nb : ℕ) (s : State)  (hk0 : Keeps z s) : Keeps z (copyStart snap nb s) := by
  unfold copyStart
  try dsimp only
  iterate 14 (try any_goals first
    | with_reducible assumption | with_reducible apply keeps_critReads | with_reducible apply keeps_touchRange
    | with_reducible apply keeps_poolWrite | with_reducible apply keeps_raise
    | with_reducible refine Keeps.fst ‹_› ?_ | with_reducible refine Keeps.snd ‹_› ?_
    | with_reducible refine Keeps.mid ‹_› ?_ | with_reducible refine Keeps.third ‹_› ?_
    | with_reducible refine Keeps.thirdLast ‹_› ?_ | with_reducible refine Keeps.ite ?_ ?_ | split
    | refine Keeps.upd ?_ rfl rfl)

theorem keeps_copyBegin {z : State} (s : State)  (hk0 : Keeps z s) : Keeps z (copyBegin s) := by
  unfold copyBegin
  try dsimp only
  iterate 14 (try any_goals first
    | with_reducible assumption | with_reducible apply keeps_copyStart | with_reducible refine Keeps.fst ‹_› ?_
    | with_reducible refine Keeps.snd ‹_› ?_ | with_reducible refine Keeps.mid ‹_› ?_
    | with_reducible refine Keeps.third ‹_› ?_ | with_reducible refine Keeps.thirdLast ‹_› ?_
    | with_reducible refine Keeps.ite ?_ ?_ | split | refine Keeps.upd ?_ rfl rfl)

theorem keeps_copyPut {z : State} (c : Copy) (k : ℕ) (s : State)  (hk0 : Keeps z s) : Keeps z (copyPut c k s) := by
  unfold copyPut
  try dsimp only
  iterate 14 (try any_goals first
    | with_reducible assumption | with_reducible apply keeps_freshTag
    | with_reducible refine keeps_queuePacket' ‹_› ?_ | with_reducible apply keeps_queuePacket
    | with_reducible apply keeps_raise | with_reducible refine Keeps.fst ‹_› ?_
    | with_reducible refine Keeps.snd ‹_› ?_ | with_reducible refine Keeps.mid ‹_› ?_
    | with_reducible refine Keeps.third ‹_› ?_ | with_reducible refine Keeps.thirdLast ‹_› ?_
    | with_reducible refine Keeps.ite ?_ ?_ | split | refine Keeps.upd ?_ rfl rfl)

theorem keeps_copyAsk {z : State} (s : State)  (hk0 : Keeps z s) : KeepsOpt z id (copyAsk s) := by
  unfold copyAsk
  try dsimp only
  iterate 14 (try any_goals first
    | with_reducible assumption | with_reducible apply keeps_copyPut | with_reducible exact KeepsOpt.none
    | with_reducible refine KeepsOpt.someId ?_ | with_reducible refine Keeps.fst ‹_› ?_
    | with_reducible refine Keeps.snd ‹_› ?_ | with_reducible refine Keeps.mid ‹_› ?_
    | with_reducible refine Keeps.third ‹_› ?_ | with_reducible refine Keeps.thirdLast ‹_› ?_
    | with_reducible refine Keeps.ite ?_ ?_ | split | refine Keeps.upd ?_ rfl rfl)

theorem keeps_copyAsk' {z tt : State} {s : State}   (e : (copyAsk s) = some tt) (hk0 : Keeps z s) : Keeps z tt :=
  (keeps_copyAsk _  hk0).of _ e

theorem keeps_copyCommit {z : State} (c : Copy) (s : State)  (hk0 : Keeps z s) : Keeps z (copyCommit c s) :=
  keeps_lowerLate _ (hk0.stores rfl rfl rfl id id id id id id (fun _ => rfl) id)

theorem keeps_copyAck {z : State} (k : ℕ) (s : State)  (hk0 : Keeps z s) : Keeps z (copyAck k s) := by
  unfold copyAck
  try dsimp only
  iterate 14 (try any_goals first
    | with_reducible assumption | with_reducible apply keeps_copyCommit
    | with_reducible refine Keeps.fst ‹_› ?_ | with_reducible refine Keeps.snd ‹_› ?_
    | with_reducible refine Keeps.mid ‹_› ?_ | with_reducible refine Keeps.third ‹_› ?_
    | with_reducible refine Keeps.thirdLast ‹_› ?_ | with_reducible refine Keeps.ite ?_ ?_ | split
    | refine Keeps.upd ?_ rfl rfl)

theorem keeps_replicaHeader {z : State} (h : List Byte) (s : State)  (hk0 : Keeps z s) : Keeps z (replicaHeader h s) := by
  unfold replicaHeader
  try dsimp only
  iterate 14 (try any_goals first
    | with_reducible assumption | with_reducible apply keeps_logError | with_reducible refine Keeps.ite ?_ ?_
    | split | refine Keeps.upd ?_ rfl rfl)

theorem keeps_replicaPiece {z : State} (k : ℕ) (bs : List Byte) (s : State)  (hk0 : Keeps z s) : Keeps z (replicaPiece k bs s) := by
  unfold replicaPiece
  try dsimp only
  iterate 14 (try any_goals first
    | with_reducible assumption | with_reducible refine Keeps.fst ‹_› ?_
    | with_reducible refine Keeps.snd ‹_› ?_ | with_reducible refine Keeps.mid ‹_› ?_
    | with_reducible refine Keeps.third ‹_› ?_ | with_reducible refine Keeps.thirdLast ‹_› ?_
    | with_reducible refine Keeps.ite ?_ ?_ | split | refine Keeps.upd ?_ rfl rfl)

theorem keeps_replicaTake {z : State} (lo : ℕ) (bs : List Byte) (s : State)  (hk0 : Keeps z s) : Keeps z (replicaTake lo bs s) := by
  unfold replicaTake
  try dsimp only
  iterate 14 (try any_goals first
    | with_reducible assumption | with_reducible apply keeps_replicaHeader
    | with_reducible apply keeps_replicaPiece | with_reducible refine Keeps.ite ?_ ?_ | split)

theorem keeps_restoreInit {z : State} (s : State)  (hk0 : Keeps z s) : Keeps z (restoreInit s) :=
  Keeps.stores (keeps_poolKeep (fun a => decide (max (areaRange s 1).1 (ckptBase s) ≤ a) &&
    decide (a < min (areaRange s 1).2 (ckptBase s + 2 * ckptLen s))) s hk0) rfl rfl rfl id id id id id id (fun _ => rfl) id

theorem keeps_restoreHeader {z : State} (kind : ℕ) (h : List Byte) (s : State)  (hk0 : Keeps z s) : Keeps z (restoreHeader kind h s) := by
  unfold restoreHeader
  try dsimp only
  iterate 14 (try any_goals first
    | with_reducible assumption | with_reducible apply keeps_restoreInit
    | with_reducible refine Keeps.ite ?_ ?_ | split | refine Keeps.upd ?_ rfl rfl)

theorem keeps_restoreStart {z : State} (kind : ℕ) (s : State)  (hk0 : Keeps z s) : Keeps z (restoreStart kind s) := by
  unfold restoreStart
  try dsimp only
  iterate 14 (try any_goals first
    | with_reducible assumption | with_reducible apply keeps_touchRange | with_reducible apply keeps_raise
    | with_reducible apply keeps_restoreHeader | with_reducible refine Keeps.fst ‹_› ?_
    | with_reducible refine Keeps.snd ‹_› ?_ | with_reducible refine Keeps.mid ‹_› ?_
    | with_reducible refine Keeps.third ‹_› ?_ | with_reducible refine Keeps.thirdLast ‹_› ?_
    | with_reducible refine Keeps.ite ?_ ?_ | split | refine Keeps.upd ?_ rfl rfl)

theorem keeps_restoreAsk {z : State} (s : State)  (hk0 : Keeps z s) : KeepsOpt z id (restoreAsk s) := by
  unfold restoreAsk
  try dsimp only
  iterate 14 (try any_goals first
    | with_reducible assumption | with_reducible apply keeps_freshTag
    | with_reducible refine keeps_queuePacket' ‹_› ?_ | with_reducible apply keeps_queuePacket
    | with_reducible apply keeps_raise | with_reducible exact KeepsOpt.none
    | with_reducible refine KeepsOpt.someId ?_ | with_reducible refine Keeps.fst ‹_› ?_
    | with_reducible refine Keeps.snd ‹_› ?_ | with_reducible refine Keeps.mid ‹_› ?_
    | with_reducible refine Keeps.third ‹_› ?_ | with_reducible refine Keeps.thirdLast ‹_› ?_
    | with_reducible refine Keeps.ite ?_ ?_ | split | refine Keeps.upd ?_ rfl rfl)

theorem keeps_restoreAsk' {z tt : State} {s : State}   (e : (restoreAsk s) = some tt) (hk0 : Keeps z s) : Keeps z tt :=
  (keeps_restoreAsk _  hk0).of _ e

theorem keeps_restoreReply {z : State} (k : ℕ) (bs : List Byte) (s : State)  (hk0 : Keeps z s) : Keeps z (restoreReply k bs s) := by
  unfold restoreReply
  try dsimp only
  iterate 14 (try any_goals first
    | with_reducible assumption | with_reducible apply keeps_restoreHeader
    | with_reducible refine Keeps.fst ‹_› ?_ | with_reducible refine Keeps.snd ‹_› ?_
    | with_reducible refine Keeps.mid ‹_› ?_ | with_reducible refine Keeps.third ‹_› ?_
    | with_reducible refine Keeps.thirdLast ‹_› ?_ | with_reducible refine Keeps.ite ?_ ?_ | split
    | refine Keeps.upd ?_ rfl rfl)

theorem keeps_restoreWrite {z : State} (body : List Byte) (s : State)  (hk0 : Keeps z s) : Keeps z (restoreWrite body s) := by
  unfold restoreWrite
  dsimp only
  refine keeps_poolWrite _ _ _ _ (keeps_poolWrite _ _ _ _ ?_)
  exact hk0.stores rfl rfl rfl id id (fun _ => mwf_storeOf _ _) (fun _ => mwf_storeOf _ _) (fun _ => mwf_storeOf _ _)
    (fun _ => mwf_storeOf _ _) id (fun _ => mwf_storeOf _ _)

theorem keeps_restoreFail {z : State} (s : State)  (hk0 : Keeps z s) : Keeps z (restoreFail s) := by
  unfold restoreFail
  try dsimp only
  iterate 14 (try any_goals first
    | with_reducible assumption | with_reducible apply keeps_restoreInit | with_reducible apply keeps_holdSteps
    | with_reducible apply keeps_clearData | refine Keeps.upd ?_ rfl rfl)

theorem keeps_restoreEnd {z : State} (r : Restore) (body : List Byte) (s : State)  (hk0 : Keeps z s) : Keeps z (restoreEnd r body s) := by
  unfold restoreEnd
  try dsimp only
  iterate 14 (try any_goals first
    | with_reducible assumption | with_reducible apply keeps_restoreFail
    | with_reducible refine Keeps.ite ?_ ?_ | split | refine Keeps.upd ?_ rfl rfl)

theorem keeps_execRestoreComplete {z : State} (s : State)  (hk0 : Keeps z s) : KeepsOut z (execRestoreComplete s) := by
  unfold execRestoreComplete
  try dsimp only
  iterate 14 (try any_goals first
    | with_reducible assumption | with_reducible apply keeps_touchRange | with_reducible apply keeps_raise
    | with_reducible apply keeps_restoreEnd | with_reducible apply keeps_restoreWrite
    | with_reducible refine KeepsOut.next ?_ | with_reducible refine Keeps.fst ‹_› ?_
    | with_reducible refine Keeps.snd ‹_› ?_ | with_reducible refine Keeps.mid ‹_› ?_
    | with_reducible refine Keeps.third ‹_› ?_ | with_reducible refine Keeps.thirdLast ‹_› ?_
    | with_reducible refine Keeps.ite ?_ ?_ | split | refine Keeps.upd ?_ rfl rfl)

theorem keeps_testRestore {z : State} (s : State)  (hk0 : Keeps z s) : Keeps z (testRestore s) := by
  unfold testRestore
  try dsimp only
  iterate 14 (try any_goals first
    | with_reducible assumption | with_reducible apply keeps_touchRange | with_reducible apply keeps_raise
    | with_reducible apply keeps_restoreWrite | with_reducible apply keeps_restoreInit
    | with_reducible apply keeps_restoreFail | with_reducible refine Keeps.fst ‹_› ?_
    | with_reducible refine Keeps.snd ‹_› ?_ | with_reducible refine Keeps.mid ‹_› ?_
    | with_reducible refine Keeps.third ‹_› ?_ | with_reducible refine Keeps.thirdLast ‹_› ?_
    | with_reducible refine Keeps.ite ?_ ?_ | split | refine Keeps.upd ?_ rfl rfl)

theorem keeps_finishFab {z : State} (o : FabOp) (s : State)  (hk0 : Keeps z s) : Keeps z (finishFab o s) := by
  unfold finishFab
  try dsimp only
  iterate 14 (try any_goals first
    | with_reducible assumption | with_reducible apply keeps_complete | with_reducible apply keeps_dropFabOp
    | with_reducible apply keeps_addLater | with_reducible apply keeps_queueInst
    | with_reducible refine Keeps.ite ?_ ?_ | split | refine Keeps.upd ?_ rfl rfl)

theorem keeps_startFab {z : State} (op : ℕ) (s : State)  (hk0 : Keeps z s) : Keeps z (startFab op s) := by
  unfold startFab
  try dsimp only
  iterate 14 (try any_goals first
    | with_reducible assumption | with_reducible apply keeps_dequeue | with_reducible apply keeps_descBound
    | with_reducible apply keeps_finishFab | with_reducible refine keeps_chTake' ‹_› ?_
    | with_reducible apply keeps_chTake | with_reducible refine Keeps.fst ‹_› ?_
    | with_reducible refine Keeps.snd ‹_› ?_ | with_reducible refine Keeps.mid ‹_› ?_
    | with_reducible refine Keeps.third ‹_› ?_ | with_reducible refine Keeps.thirdLast ‹_› ?_
    | with_reducible refine Keeps.ite ?_ ?_ | split | refine Keeps.upd ?_ rfl rfl)

theorem keeps_execPut {z : State} (s : State)  (hk0 : Keeps z s) : KeepsOut z (execPut s) := by
  unfold execPut
  try dsimp only
  iterate 14 (try any_goals first
    | with_reducible assumption | with_reducible apply keeps_startFab | with_reducible refine KeepsOut.next ?_)

theorem keeps_execGet {z : State} (s : State)  (hk0 : Keeps z s) : KeepsOut z (execGet s) := by
  unfold execGet
  try dsimp only
  iterate 14 (try any_goals first
    | with_reducible assumption | with_reducible apply keeps_startFab | with_reducible refine KeepsOut.next ?_)

theorem keeps_execGetp {z : State} (s : State)  (hk0 : Keeps z s) : KeepsOut z (execGetp s) := by
  unfold execGetp
  try dsimp only
  iterate 14 (try any_goals first
    | with_reducible assumption | with_reducible apply keeps_startFab | with_reducible refine KeepsOut.next ?_)

theorem keeps_execRacc {z : State} (s : State)  (hk0 : Keeps z s) : KeepsOut z (execRacc s) := by
  unfold execRacc
  try dsimp only
  iterate 14 (try any_goals first
    | with_reducible assumption | with_reducible apply keeps_startFab | with_reducible refine KeepsOut.next ?_)

theorem keeps_putAsk {z : State} (o : FabOp) (s : State)  (hk0 : Keeps z s) : KeepsOpt z id (putAsk o s) := by
  unfold putAsk
  try dsimp only
  iterate 14 (try any_goals first
    | with_reducible assumption | with_reducible refine keeps_chTake' ‹_› ?_
    | with_reducible apply keeps_chTake | with_reducible apply keeps_freshTag
    | with_reducible apply keeps_setFabOp | with_reducible apply keeps_queueInst
    | with_reducible exact fun _ _ h => h | with_reducible exact KeepsOpt.none
    | with_reducible refine KeepsOpt.someId ?_ | with_reducible refine Keeps.foldl (fun _ _ _ => ?_) _ ?_
    | with_reducible refine Keeps.foldlFst (fun _ _ _ => ?_) _ ?_
    | with_reducible refine Keeps.foldlSnd (fun _ _ _ => ?_) _ ?_ | with_reducible refine Keeps.fst ‹_› ?_
    | with_reducible refine Keeps.snd ‹_› ?_ | with_reducible refine Keeps.mid ‹_› ?_
    | with_reducible refine Keeps.third ‹_› ?_ | with_reducible refine Keeps.thirdLast ‹_› ?_
    | with_reducible refine Keeps.ite ?_ ?_ | split | refine Keeps.upd ?_ rfl rfl)

theorem keeps_putAsk' {z tt : State} {o : FabOp} {s : State}   (e : (putAsk o s) = some tt) (hk0 : Keeps z s) : Keeps z tt :=
  (keeps_putAsk _ _  hk0).of _ e

theorem keeps_getAsk {z : State} (o : FabOp) (s : State)  (hk0 : Keeps z s) : KeepsOpt z id (getAsk o s) := by
  unfold getAsk
  try dsimp only
  iterate 14 (try any_goals first
    | with_reducible assumption | with_reducible apply keeps_freshTag | with_reducible apply keeps_setFabOp
    | with_reducible apply keeps_queueInst | with_reducible exact fun _ _ h => h
    | with_reducible exact KeepsOpt.none | with_reducible refine KeepsOpt.someId ?_
    | with_reducible refine Keeps.fst ‹_› ?_ | with_reducible refine Keeps.snd ‹_› ?_
    | with_reducible refine Keeps.mid ‹_› ?_ | with_reducible refine Keeps.third ‹_› ?_
    | with_reducible refine Keeps.thirdLast ‹_› ?_ | with_reducible refine Keeps.ite ?_ ?_ | split
    | refine Keeps.upd ?_ rfl rfl)

theorem keeps_getAsk' {z tt : State} {o : FabOp} {s : State}   (e : (getAsk o s) = some tt) (hk0 : Keeps z s) : Keeps z tt :=
  (keeps_getAsk _ _  hk0).of _ e

theorem keeps_rconAsk {z : State} (o : FabOp) (s : State)  (hk0 : Keeps z s) : KeepsOpt z id (rconAsk o s) := by
  unfold rconAsk
  try dsimp only
  iterate 14 (try any_goals first
    | with_reducible assumption | with_reducible apply keeps_freshTag | with_reducible apply keeps_setFabOp
    | with_reducible apply keeps_queueInst | with_reducible exact fun _ _ h => h
    | with_reducible exact KeepsOpt.none | with_reducible refine KeepsOpt.someId ?_
    | with_reducible refine Keeps.fst ‹_› ?_ | with_reducible refine Keeps.snd ‹_› ?_
    | with_reducible refine Keeps.mid ‹_› ?_ | with_reducible refine Keeps.third ‹_› ?_
    | with_reducible refine Keeps.thirdLast ‹_› ?_ | with_reducible refine Keeps.ite ?_ ?_ | split
    | refine Keeps.upd ?_ rfl rfl)

theorem keeps_rconAsk' {z tt : State} {o : FabOp} {s : State}   (e : (rconAsk o s) = some tt) (hk0 : Keeps z s) : Keeps z tt :=
  (keeps_rconAsk _ _  hk0).of _ e

theorem keeps_fabAskIn {z : State} (x0 : List FabOp) (x1 : List ℕ) (x2 : State)  (hk0 : Keeps z x2) : KeepsOpt z id (fabAskIn x0 x1 x2) := by
  induction x0 generalizing x1 with
  | nil => exact .none
  | cons o os ih =>
    unfold fabAskIn
    dsimp only
    split
    · refine .someId (KeepsOpt.of (pr := id) ?_ _ ‹_›)
      exact .ite (.ite (keeps_putAsk _ _ hk0) .none) (.ite (.ite (keeps_getAsk _ _ hk0) .none) (keeps_rconAsk _ _ hk0))
    · exact ih _

theorem keeps_fabAskIn' {z tt : State} {x0 : List FabOp} {x1 : List ℕ} {x2 : State}   (e : (fabAskIn x0 x1 x2) = some tt) (hk0 : Keeps z x2) : Keeps z tt :=
  (keeps_fabAskIn _ _ _  hk0).of _ e

theorem keeps_askAny {z : State} (s : State)  (hk0 : Keeps z s) : KeepsOpt z id (askAny s) := by
  unfold askAny
  try dsimp only
  iterate 14 (try any_goals first
    | with_reducible assumption | with_reducible refine keeps_fabAskIn' ‹_› ?_
    | with_reducible apply keeps_fabAskIn | with_reducible refine keeps_gatherAsk' ‹_› ?_
    | with_reducible apply keeps_gatherAsk | with_reducible refine keeps_acmpAsk' ‹_› ?_
    | with_reducible apply keeps_acmpAsk | with_reducible refine keeps_copyAsk' ‹_› ?_
    | with_reducible apply keeps_copyAsk | with_reducible refine keeps_restoreAsk' ‹_› ?_
    | with_reducible apply keeps_restoreAsk | with_reducible exact fun _ _ h => h
    | with_reducible exact KeepsOpt.none | with_reducible refine KeepsOpt.someId ?_
    | with_reducible refine KeepsOpt.orElse ?_ (fun _ => ?_) | with_reducible refine Keeps.ite ?_ ?_ | split)

theorem keeps_askAny' {z tt : State} {s : State}   (e : (askAny s) = some tt) (hk0 : Keeps z s) : Keeps z tt :=
  (keeps_askAny _  hk0).of _ e

theorem keeps_formFor {z : State} (ch : ℕ) (x1 : ℕ) (x2 : State)  (hk0 : Keeps z x2) : Keeps z (formFor ch x1 x2) := by
  induction x1 generalizing x2 with
  | zero => exact hk0
  | succ n ih =>
    unfold formFor
    split
    · exact hk0
    · split
      · exact ih _ (keeps_askAny' ‹_› hk0)
      · exact hk0

theorem keeps_execPacketHandoff {z : State} (ch : BitVec 1) (s : State)  (hk0 : Keeps z s) : KeepsOut z (execPacketHandoff ch s) := by
  unfold execPacketHandoff
  try dsimp only
  iterate 14 (try any_goals first
    | with_reducible assumption | with_reducible apply keeps_formFor | with_reducible apply keeps_finishRsu
    | with_reducible apply keeps_handOver | with_reducible refine KeepsOut.next ?_
    | with_reducible refine Keeps.fst ‹_› ?_ | with_reducible refine Keeps.snd ‹_› ?_
    | with_reducible refine Keeps.mid ‹_› ?_ | with_reducible refine Keeps.third ‹_› ?_
    | with_reducible refine Keeps.thirdLast ‹_› ?_ | split | refine Keeps.upd ?_ rfl rfl)

theorem keeps_execGmiTxCredit {z : State} (ch : BitVec 1) (s : State)  (hk0 : Keeps z s) : KeepsOut z (execGmiTxCredit ch s) := by
  unfold execGmiTxCredit
  try dsimp only
  iterate 14 (try any_goals first
    | with_reducible assumption | with_reducible refine KeepsOut.next ?_
    | with_reducible refine Keeps.ite ?_ ?_ | split | refine Keeps.upd ?_ rfl rfl)

theorem keeps_endRequest {z : State} (o : Outst) (s : State)  (hk0 : Keeps z s) : Keeps z (endRequest o s) := by
  unfold endRequest
  try dsimp only
  iterate 14 (try any_goals first
    | with_reducible assumption | refine Keeps.upd ?_ rfl rfl)

theorem keeps_fabAck {z : State} (id : ℕ) (s : State)  (hk0 : Keeps z s) : Keeps z (fabAck id s) := by
  unfold fabAck
  try dsimp only
  iterate 14 (try any_goals first
    | with_reducible assumption | with_reducible apply keeps_finishFab | with_reducible apply keeps_setFabOp
    | with_reducible apply keeps_complete | with_reducible apply keeps_dropFabOp
    | with_reducible exact fun _ _ h => h | with_reducible refine Keeps.fst ‹_› ?_
    | with_reducible refine Keeps.snd ‹_› ?_ | with_reducible refine Keeps.mid ‹_› ?_
    | with_reducible refine Keeps.third ‹_› ?_ | with_reducible refine Keeps.thirdLast ‹_› ?_
    | with_reducible refine Keeps.ite ?_ ?_ | split | refine Keeps.upd ?_ rfl rfl)

theorem keeps_fabReply {z : State} (id : ℕ) (j : ℕ) (bs : List Byte) (poison : Bool) (s : State)  (hk0 : Keeps z s) : Keeps z (fabReply id j bs poison s) := by
  unfold fabReply
  try dsimp only
  iterate 14 (try any_goals first
    | with_reducible assumption | with_reducible apply keeps_setFabOp | with_reducible apply keeps_poolWrite
    | with_reducible apply keeps_poolUe | with_reducible apply keeps_finishFab
    | with_reducible exact fun _ _ h => h | with_reducible refine Keeps.fst ‹_› ?_
    | with_reducible refine Keeps.snd ‹_› ?_ | with_reducible refine Keeps.mid ‹_› ?_
    | with_reducible refine Keeps.third ‹_› ?_ | with_reducible refine Keeps.thirdLast ‹_› ?_
    | with_reducible refine Keeps.ite ?_ ?_ | split | refine Keeps.upd ?_ rfl rfl)

theorem keeps_ackRequest {z : State} (o : Outst) (s : State)  (hk0 : Keeps z s) : Keeps z (ackRequest o s) := by
  unfold ackRequest
  try dsimp only
  iterate 14 (try any_goals first
    | with_reducible assumption | with_reducible apply keeps_endRequest | with_reducible apply keeps_fabAck
    | with_reducible apply keeps_acmpAck | with_reducible apply keeps_copyAck
    | with_reducible refine Keeps.fst ‹_› ?_ | with_reducible refine Keeps.snd ‹_› ?_
    | with_reducible refine Keeps.mid ‹_› ?_ | with_reducible refine Keeps.third ‹_› ?_
    | with_reducible refine Keeps.thirdLast ‹_› ?_ | split | refine Keeps.upd ?_ rfl rfl)

theorem keeps_getrRequest {z : State} (o : Outst) (bs : List Byte) (poison : Bool) (s : State)  (hk0 : Keeps z s) : Keeps z (getrRequest o bs poison s) := by
  unfold getrRequest
  try dsimp only
  iterate 14 (try any_goals first
    | with_reducible assumption | with_reducible apply keeps_endRequest | with_reducible apply keeps_raise
    | with_reducible apply keeps_fabReply | with_reducible apply keeps_gatherReply
    | with_reducible apply keeps_acmpReply | with_reducible apply keeps_restoreReply
    | with_reducible exact fun _ _ h => h | with_reducible refine Keeps.fst ‹_› ?_
    | with_reducible refine Keeps.snd ‹_› ?_ | with_reducible refine Keeps.mid ‹_› ?_
    | with_reducible refine Keeps.third ‹_› ?_ | with_reducible refine Keeps.thirdLast ‹_› ?_ | split
    | refine Keeps.upd ?_ rfl rfl)

theorem keeps_getTick {z : State} (o : FabOp) (s : State)  (hk0 : Keeps z s) : Keeps z (getTick o s) := by
  unfold getTick
  try dsimp only
  iterate 14 (try any_goals first
    | with_reducible assumption | with_reducible apply keeps_LineOut_drain
    | with_reducible apply keeps_finishFab | with_reducible apply keeps_setFabOp
    | with_reducible exact fun _ _ h => h | with_reducible refine Keeps.fst ‹_› ?_
    | with_reducible refine Keeps.snd ‹_› ?_ | with_reducible refine Keeps.mid ‹_› ?_
    | with_reducible refine Keeps.third ‹_› ?_ | with_reducible refine Keeps.thirdLast ‹_› ?_
    | with_reducible refine Keeps.ite ?_ ?_ | split | refine Keeps.upd ?_ rfl rfl)

theorem keeps_fabTickIn {z : State} (x0 : List FabOp) (x1 : List ℕ) (x2 : State)  (hk0 : Keeps z x2) : Keeps z (fabTickIn x0 x1 x2) := by
  induction x0 generalizing x1 x2 with
  | nil => exact hk0
  | cons o os ih =>
    unfold fabTickIn
    split
    · exact hk0
    · split
      · refine ih _ _ ?_
        split
        · exact hk0
        · exact keeps_getTick _ _ hk0
      · split
        · exact ih _ _ (keeps_localTick _ _ hk0)
        · split
          · exact ih _ _ (keeps_redTick _ _ hk0)
          · exact ih _ _ hk0

theorem keeps_fabTick {z : State} (s : State)  (hk0 : Keeps z s) : Keeps z (fabTick s) := by
  unfold fabTick
  try dsimp only
  iterate 14 (try any_goals first
    | with_reducible assumption | with_reducible apply keeps_recvTick | with_reducible apply keeps_fabTickIn)

theorem keeps_movUe {z : State} (e : Entry) (ep : ℕ) (bad : Option ℕ) (s : State)  (hk0 : Keeps z s) : Keeps z (movUe e ep bad s) := by
  unfold movUe
  try dsimp only
  iterate 14 (try any_goals first
    | with_reducible assumption | with_reducible apply keeps_poolUe | with_reducible refine Keeps.fst ‹_› ?_
    | with_reducible refine Keeps.snd ‹_› ?_ | with_reducible refine Keeps.mid ‹_› ?_
    | with_reducible refine Keeps.third ‹_› ?_ | with_reducible refine Keeps.thirdLast ‹_› ?_ | split
    | refine Keeps.upd ?_ rfl rfl)

theorem keeps_setRg {z : State} (n : ℕ) (g : Option Gen) (s : State)  (hk0 : Keeps z s) : Keeps z (setRg n g s) := by
  unfold setRg
  try dsimp only
  iterate 14 (try any_goals first
    | with_reducible assumption | refine Keeps.upd ?_ rfl rfl)

theorem keeps_setWg {z : State} (n : ℕ) (g : Option Gen) (s : State)  (hk0 : Keeps z s) : Keeps z (setWg n g s) := by
  unfold setWg
  try dsimp only
  iterate 14 (try any_goals first
    | with_reducible assumption | refine Keeps.upd ?_ rfl rfl)

theorem keeps_fetchRow {z : State} (r : ℕ) (g : Gen) (left : ℕ) (s : State)  (hk0 : Keeps z s) : Keeps z (fetchRow r g left s).2.2.1 := by
  unfold fetchRow
  try dsimp only
  iterate 14 (try any_goals first
    | with_reducible assumption | with_reducible apply keeps_touch | with_reducible apply keeps_bumpBank
    | with_reducible exact fun _ _ h => h | with_reducible refine Keeps.ite ?_ ?_ | split
    | refine Keeps.upd ?_ rfl rfl)

theorem keeps_fetchRows {z : State} (x0 : List ℕ) (x1 : Gen) (x2 : ℕ) (x3 : State)  (hk0 : Keeps z x3) : Keeps z (fetchRows x0 x1 x2 x3).2.2.1 := by
  induction x0 generalizing x1 x2 x3 with
  | nil => exact hk0
  | cons r rs ih =>
    unfold fetchRows
    have h := keeps_fetchRow r x1 x2 x3 hk0
    split
    · rename_i e; rw [e] at h; exact ih _ _ _ h
    · rename_i e; rw [e] at h; exact h

theorem keeps_askWord {z : State} (w : ℕ) (x : FetchRow) (e : Entry) (s : State)  (hk0 : Keeps z s) : Keeps z (askWord w x e s).2 := by
  unfold askWord
  try dsimp only
  iterate 14 (try any_goals first
    | with_reducible assumption | with_reducible apply keeps_eccReplace | with_reducible apply keeps_eccCount
    | with_reducible apply keeps_poolUe | with_reducible refine Keeps.ite ?_ ?_ | split
    | refine Keeps.upd ?_ rfl rfl)

theorem keeps_askWords {z : State} (x0 : List ℕ) (x1 : Gen) (x2 : State)  (hk0 : Keeps z x2) : Keeps z (askWords x0 x1 x2).2 := by
  induction x0 generalizing x1 x2 with
  | nil => exact hk0
  | cons w ws ih =>
    unfold askWords
    split
    · exact ih _ _ (keeps_askWord _ _ _ _ hk0)
    · exact ih _ _ hk0

theorem keeps_capturePiece {z : State} (b : ℕ) (n : ℕ) (g : Gen) (s : State)  (hk0 : Keeps z s) : Keeps z (capturePiece b n g s).2 := by
  unfold capturePiece
  try dsimp only
  iterate 14 (try any_goals first
    | with_reducible assumption | with_reducible apply keeps_askWords | with_reducible exact fun _ _ h => h
    | with_reducible refine Keeps.fst ‹_› ?_ | with_reducible refine Keeps.snd ‹_› ?_
    | with_reducible refine Keeps.mid ‹_› ?_ | with_reducible refine Keeps.third ‹_› ?_
    | with_reducible refine Keeps.thirdLast ‹_› ?_ | split | refine Keeps.upd ?_ rfl rfl)

theorem keeps_fetchPieces {z : State} (st : GenStream) (x1 : LineMap) (x2 : Gen) (x3 : ℕ) (x4 : State)  (hk0 : Keeps z x4) : Keeps z (fetchPieces st x1 x2 x3 x4).2.2.1 := by
  induction x1 generalizing x2 x3 x4 with
  | nil => exact hk0
  | cons p ps ih =>
    unfold fetchPieces
    split
    · exact ih _ _ _ hk0
    · split
      · rename_i e
        refine ih _ _ _ (keeps_capturePiece _ _ _ _ (Keeps.third e ?_))
        exact keeps_fetchRows _ _ _ _ hk0
      · rename_i e
        exact Keeps.third e (keeps_fetchRows _ _ _ _ hk0)

theorem keeps_fetchLines {z : State} (st : GenStream) (x1 : ℕ) (x2 : Gen) (x3 : ℕ) (x4 : State)  (hk0 : Keeps z x4) : Keeps z (fetchLines st x1 x2 x3 x4).2 := by
  induction x1 generalizing x2 x3 x4 with
  | zero => exact hk0
  | succ n ih =>
    unfold fetchLines
    split
    · exact hk0
    · split
      · rename_i e
        exact ih _ _ _ (Keeps.third e (keeps_fetchPieces _ _ _ _ _ hk0))
      · rename_i e
        exact Keeps.third e (keeps_fetchPieces _ _ _ _ _ hk0)

theorem keeps_fetchGen {z : State} (n : ℕ) (s : State)  (hk0 : Keeps z s) : Keeps z (fetchGen n s) := by
  unfold fetchGen
  try dsimp only
  iterate 14 (try any_goals first
    | with_reducible assumption | with_reducible apply keeps_fetchLines | with_reducible apply keeps_setRg
    | with_reducible refine Keeps.fst ‹_› ?_ | with_reducible refine Keeps.snd ‹_› ?_
    | with_reducible refine Keeps.mid ‹_› ?_ | with_reducible refine Keeps.third ‹_› ?_
    | with_reducible refine Keeps.thirdLast ‹_› ?_ | with_reducible refine Keeps.ite ?_ ?_ | split
    | refine Keeps.upd ?_ rfl rfl)

theorem keeps_rgTick {z : State} (s : State)  (hk0 : Keeps z s) : Keeps z (rgTick s) := by
  unfold rgTick
  try dsimp only
  iterate 14 (try any_goals first
    | with_reducible assumption | with_reducible apply keeps_fetchGen | with_reducible exact fun _ _ h => h
    | with_reducible refine Keeps.foldl (fun _ _ _ => ?_) _ ?_
    | with_reducible refine Keeps.foldlFst (fun _ _ _ => ?_) _ ?_
    | with_reducible refine Keeps.foldlSnd (fun _ _ _ => ?_) _ ?_)

theorem keeps_startRead {z : State} (op : ℕ) (s : State)  (hk0 : Keeps z s) : Keeps z (startRead op s) := by
  unfold startRead
  try dsimp only
  iterate 14 (try any_goals first
    | with_reducible assumption | with_reducible apply keeps_dequeue | with_reducible apply keeps_fetchGen
    | with_reducible apply keeps_setRg | with_reducible apply keeps_descBound
    | with_reducible refine Keeps.fst ‹_› ?_ | with_reducible refine Keeps.snd ‹_› ?_
    | with_reducible refine Keeps.mid ‹_› ?_ | with_reducible refine Keeps.third ‹_› ?_
    | with_reducible refine Keeps.thirdLast ‹_› ?_ | with_reducible refine Keeps.ite ?_ ?_ | split
    | refine Keeps.upd ?_ rfl rfl)

theorem keeps_startWrite {z : State} (op : ℕ) (s : State)  (hk0 : Keeps z s) : Keeps z (startWrite op s) := by
  unfold startWrite
  try dsimp only
  iterate 14 (try any_goals first
    | with_reducible assumption | with_reducible apply keeps_dequeue | with_reducible apply keeps_setWg
    | with_reducible apply keeps_descBound | with_reducible refine Keeps.fst ‹_› ?_
    | with_reducible refine Keeps.snd ‹_› ?_ | with_reducible refine Keeps.mid ‹_› ?_
    | with_reducible refine Keeps.third ‹_› ?_ | with_reducible refine Keeps.thirdLast ‹_› ?_
    | with_reducible refine Keeps.ite ?_ ?_ | split | refine Keeps.upd ?_ rfl rfl)

theorem keeps_zeroStep {z : State} (n : ℕ) (s : State)  (hk0 : Keeps z s) : Keeps z (zeroStep n s) := by
  unfold zeroStep
  try dsimp only
  iterate 14 (try any_goals first
    | with_reducible assumption | with_reducible apply keeps_writeElems | with_reducible apply keeps_movUe
    | with_reducible apply keeps_complete | with_reducible apply keeps_setWg
    | with_reducible refine Keeps.fst ‹_› ?_ | with_reducible refine Keeps.snd ‹_› ?_
    | with_reducible refine Keeps.mid ‹_› ?_ | with_reducible refine Keeps.third ‹_› ?_
    | with_reducible refine Keeps.thirdLast ‹_› ?_ | with_reducible refine Keeps.ite ?_ ?_ | split
    | refine Keeps.upd ?_ rfl rfl)

theorem keeps_execZero {z : State} (s : State)  (hk0 : Keeps z s) : KeepsOut z (execZero s) := by
  unfold execZero
  try dsimp only
  iterate 14 (try any_goals first
    | with_reducible assumption | with_reducible apply keeps_dequeue | with_reducible apply keeps_zeroStep
    | with_reducible apply keeps_setWg | with_reducible apply keeps_descBound
    | with_reducible refine KeepsOut.next ?_ | with_reducible refine Keeps.fst ‹_› ?_
    | with_reducible refine Keeps.snd ‹_› ?_ | with_reducible refine Keeps.mid ‹_› ?_
    | with_reducible refine Keeps.third ‹_› ?_ | with_reducible refine Keeps.thirdLast ‹_› ?_
    | with_reducible refine Keeps.ite ?_ ?_ | split | refine Keeps.upd ?_ rfl rfl)

theorem keeps_execRd {z : State} (s : State)  (hk0 : Keeps z s) : KeepsOut z (execRd s) := by
  unfold execRd
  try dsimp only
  iterate 14 (try any_goals first
    | with_reducible assumption | with_reducible apply keeps_startRead | with_reducible refine KeepsOut.next ?_)

theorem keeps_execWr {z : State} (s : State)  (hk0 : Keeps z s) : KeepsOut z (execWr s) := by
  unfold execWr
  try dsimp only
  iterate 14 (try any_goals first
    | with_reducible assumption | with_reducible apply keeps_startWrite
    | with_reducible refine KeepsOut.next ?_)

theorem keeps_execRdm {z : State} (s : State)  (hk0 : Keeps z s) : KeepsOut z (execRdm s) := by
  unfold execRdm
  try dsimp only
  iterate 14 (try any_goals first
    | with_reducible assumption | with_reducible apply keeps_startRead | with_reducible refine KeepsOut.next ?_)

theorem keeps_execWrm {z : State} (s : State)  (hk0 : Keeps z s) : KeepsOut z (execWrm s) := by
  unfold execWrm
  try dsimp only
  iterate 14 (try any_goals first
    | with_reducible assumption | with_reducible apply keeps_startWrite
    | with_reducible refine KeepsOut.next ?_)

theorem keeps_execGeneratorLinePush {z : State} (g : BitVec 4) (s : State)  (hk0 : Keeps z s) : KeepsOut z (execGeneratorLinePush g s) := by
  unfold execGeneratorLinePush
  try dsimp only
  iterate 14 (try any_goals first
    | with_reducible assumption | with_reducible apply keeps_chPush | with_reducible apply keeps_complete
    | with_reducible apply keeps_setRg | with_reducible exact fun _ _ h => h
    | with_reducible refine KeepsOut.next ?_ | with_reducible refine Keeps.fst ‹_› ?_
    | with_reducible refine Keeps.snd ‹_› ?_ | with_reducible refine Keeps.mid ‹_› ?_
    | with_reducible refine Keeps.third ‹_› ?_ | with_reducible refine Keeps.thirdLast ‹_› ?_
    | with_reducible refine Keeps.ite ?_ ?_ | split | refine Keeps.upd ?_ rfl rfl)

theorem keeps_execGeneratorLinePop {z : State} (g : BitVec 3) (s : State)  (hk0 : Keeps z s) : KeepsOut z (execGeneratorLinePop g s) := by
  unfold execGeneratorLinePop
  try dsimp only
  iterate 14 (try any_goals first
    | with_reducible assumption | with_reducible refine keeps_chTake' ‹_› ?_
    | with_reducible apply keeps_chTake | with_reducible apply keeps_setWg
    | with_reducible exact fun _ _ h => h | with_reducible refine KeepsOut.next ?_
    | with_reducible refine Keeps.fst ‹_› ?_ | with_reducible refine Keeps.snd ‹_› ?_
    | with_reducible refine Keeps.mid ‹_› ?_ | with_reducible refine Keeps.third ‹_› ?_
    | with_reducible refine Keeps.thirdLast ‹_› ?_ | with_reducible refine Keeps.ite ?_ ?_ | split
    | refine Keeps.upd ?_ rfl rfl)

theorem keeps_landLines {z : State} (g : Gen) (x1 : List (ℕ × ℕ × ℕ)) (x2 : State)  (hk0 : Keeps z x2) : Keeps z (landLines g x1 x2) := by
  induction x1 generalizing x2 with
  | nil => exact hk0
  | cons p ps ih =>
    unfold landLines
    exact ih _ (keeps_movUe _ _ _ _ (keeps_writeLine _ _ _ _ hk0))

theorem keeps_landGen {z : State} (n : ℕ) (s : State)  (hk0 : Keeps z s) : Keeps z (landGen n s) := by
  unfold landGen
  try dsimp only
  iterate 14 (try any_goals first
    | with_reducible assumption | with_reducible apply keeps_zeroStep | with_reducible apply keeps_landLines
    | with_reducible apply keeps_complete | with_reducible apply keeps_setWg
    | with_reducible exact fun _ _ h => h | with_reducible refine Keeps.fst ‹_› ?_
    | with_reducible refine Keeps.snd ‹_› ?_ | with_reducible refine Keeps.mid ‹_› ?_
    | with_reducible refine Keeps.third ‹_› ?_ | with_reducible refine Keeps.thirdLast ‹_› ?_
    | with_reducible refine Keeps.ite ?_ ?_ | split | refine Keeps.upd ?_ rfl rfl)

theorem keeps_wgTick {z : State} (s : State)  (hk0 : Keeps z s) : Keeps z (wgTick s) := by
  unfold wgTick
  try dsimp only
  iterate 14 (try any_goals first
    | with_reducible assumption | with_reducible apply keeps_landGen | with_reducible exact fun _ _ h => h
    | with_reducible refine Keeps.foldl (fun _ _ _ => ?_) _ ?_
    | with_reducible refine Keeps.foldlFst (fun _ _ _ => ?_) _ ?_
    | with_reducible refine Keeps.foldlSnd (fun _ _ _ => ?_) _ ?_)

theorem keeps_setCopy {z : State} (b : ℕ) (t : Option TileCopy) (s : State)  (hk0 : Keeps z s) : Keeps z (setCopy b t s) := by
  unfold setCopy
  try dsimp only
  iterate 14 (try any_goals first
    | with_reducible assumption | with_reducible refine Keeps.ite ?_ ?_ | split | refine Keeps.upd ?_ rfl rfl)

theorem keeps_setTb {z : State} (b : ℕ) (t : Option Tin) (s : State)  (hk0 : Keeps z s) : Keeps z (setTb b t s) := by
  unfold setTb
  try dsimp only
  iterate 14 (try any_goals first
    | with_reducible assumption | with_reducible refine Keeps.ite ?_ ?_ | split | refine Keeps.upd ?_ rfl rfl)

theorem keeps_startTin {z : State} (b : ℕ) (s : State)  (hk0 : Keeps z s) : Keeps z (startTin b s) := by
  unfold startTin
  try dsimp only
  iterate 14 (try any_goals first
    | with_reducible assumption | with_reducible apply keeps_dequeue | with_reducible apply keeps_setTb
    | with_reducible apply keeps_descBound | with_reducible refine Keeps.fst ‹_› ?_
    | with_reducible refine Keeps.snd ‹_› ?_ | with_reducible refine Keeps.mid ‹_› ?_
    | with_reducible refine Keeps.third ‹_› ?_ | with_reducible refine Keeps.thirdLast ‹_› ?_
    | with_reducible refine Keeps.ite ?_ ?_ | split | refine Keeps.upd ?_ rfl rfl)

theorem keeps_execTin0 {z : State} (s : State)  (hk0 : Keeps z s) : KeepsOut z (execTin0 s) := by
  unfold execTin0
  try dsimp only
  iterate 14 (try any_goals first
    | with_reducible assumption | with_reducible apply keeps_startTin | with_reducible refine KeepsOut.next ?_)

theorem keeps_execTin1 {z : State} (s : State)  (hk0 : Keeps z s) : KeepsOut z (execTin1 s) := by
  unfold execTin1
  try dsimp only
  iterate 14 (try any_goals first
    | with_reducible assumption | with_reducible apply keeps_startTin | with_reducible refine KeepsOut.next ?_)

theorem keeps_tinTick {z : State} (b : ℕ) (s : State)  (hk0 : Keeps z s) : Keeps z (tinTick b s) := by
  unfold tinTick
  try dsimp only
  iterate 14 (try any_goals first
    | with_reducible assumption | with_reducible refine keeps_chTake' ‹_› ?_
    | with_reducible apply keeps_chTake | with_reducible apply keeps_setTb
    | with_reducible refine Keeps.fst ‹_› ?_ | with_reducible refine Keeps.snd ‹_› ?_
    | with_reducible refine Keeps.mid ‹_› ?_ | with_reducible refine Keeps.third ‹_› ?_
    | with_reducible refine Keeps.thirdLast ‹_› ?_ | with_reducible refine Keeps.ite ?_ ?_ | split
    | refine Keeps.upd ?_ rfl rfl)

theorem keeps_execTinUnitEmit {z : State} (b : BitVec 1) (s : State)  (hk0 : Keeps z s) : KeepsOut z (execTinUnitEmit b s) := by
  unfold execTinUnitEmit
  try dsimp only
  iterate 14 (try any_goals first
    | with_reducible assumption | with_reducible apply keeps_chPush | with_reducible apply keeps_complete
    | with_reducible apply keeps_setTb | with_reducible refine KeepsOut.next ?_
    | with_reducible refine Keeps.fst ‹_› ?_ | with_reducible refine Keeps.snd ‹_› ?_
    | with_reducible refine Keeps.mid ‹_› ?_ | with_reducible refine Keeps.third ‹_› ?_
    | with_reducible refine Keeps.thirdLast ‹_› ?_ | with_reducible refine Keeps.ite ?_ ?_ | split
    | refine Keeps.upd ?_ rfl rfl)

theorem keeps_copyUnitClk {z : State} (c : TileCopy) (u : List ℕ × List ℕ) (s : State)  (hk0 : Keeps z s) : Keeps z (copyUnitClk c u s).2.1 := by
  unfold copyUnitClk
  try dsimp only
  iterate 14 (try any_goals first
    | with_reducible assumption | with_reducible apply keeps_readElems | with_reducible apply keeps_writeElems
    | with_reducible exact fun _ _ h => h | with_reducible refine Keeps.fst ‹_› ?_
    | with_reducible refine Keeps.snd ‹_› ?_ | with_reducible refine Keeps.mid ‹_› ?_
    | with_reducible refine Keeps.third ‹_› ?_ | with_reducible refine Keeps.thirdLast ‹_› ?_
    | with_reducible refine Keeps.ite ?_ ?_ | split | refine Keeps.upd ?_ rfl rfl)

theorem keeps_copyTick {z : State} (b : ℕ) (s : State)  (hk0 : Keeps z s) : Keeps z (copyTick b s) := by
  unfold copyTick
  try dsimp only
  iterate 14 (try any_goals first
    | with_reducible assumption | with_reducible apply keeps_complete | with_reducible apply keeps_setCopy
    | with_reducible apply keeps_copyUnitClk | with_reducible apply keeps_poolUe
    | with_reducible refine Keeps.fst ‹_› ?_ | with_reducible refine Keeps.snd ‹_› ?_
    | with_reducible refine Keeps.mid ‹_› ?_ | with_reducible refine Keeps.third ‹_› ?_
    | with_reducible refine Keeps.thirdLast ‹_› ?_ | with_reducible refine Keeps.ite ?_ ?_ | split
    | refine Keeps.upd ?_ rfl rfl)

theorem keeps_startTpc {z : State} (b : ℕ) (s : State)  (hk0 : Keeps z s) : Keeps z (startTpc b s) := by
  unfold startTpc
  try dsimp only
  iterate 14 (try any_goals first
    | with_reducible assumption | with_reducible apply keeps_dequeue | with_reducible apply keeps_descBound
    | with_reducible apply keeps_raiseInst | with_reducible apply keeps_setCopy
    | with_reducible refine Keeps.fst ‹_› ?_ | with_reducible refine Keeps.snd ‹_› ?_
    | with_reducible refine Keeps.mid ‹_› ?_ | with_reducible refine Keeps.third ‹_› ?_
    | with_reducible refine Keeps.thirdLast ‹_› ?_ | with_reducible refine Keeps.ite ?_ ?_ | split
    | refine Keeps.upd ?_ rfl rfl)

theorem keeps_startTpci {z : State} (b : ℕ) (s : State)  (hk0 : Keeps z s) : Keeps z (startTpci b s) := by
  unfold startTpci
  try dsimp only
  iterate 14 (try any_goals first
    | with_reducible assumption | with_reducible apply keeps_dequeue | with_reducible apply keeps_descBound
    | with_reducible apply keeps_setCopy | with_reducible refine Keeps.fst ‹_› ?_
    | with_reducible refine Keeps.snd ‹_› ?_ | with_reducible refine Keeps.mid ‹_› ?_
    | with_reducible refine Keeps.third ‹_› ?_ | with_reducible refine Keeps.thirdLast ‹_› ?_
    | with_reducible refine Keeps.ite ?_ ?_ | split | refine Keeps.upd ?_ rfl rfl)

theorem keeps_execTpc0 {z : State} (s : State)  (hk0 : Keeps z s) : KeepsOut z (execTpc0 s) := by
  unfold execTpc0
  try dsimp only
  iterate 14 (try any_goals first
    | with_reducible assumption | with_reducible apply keeps_startTpc | with_reducible refine KeepsOut.next ?_)

theorem keeps_execTpc1 {z : State} (s : State)  (hk0 : Keeps z s) : KeepsOut z (execTpc1 s) := by
  unfold execTpc1
  try dsimp only
  iterate 14 (try any_goals first
    | with_reducible assumption | with_reducible apply keeps_startTpc | with_reducible refine KeepsOut.next ?_)

theorem keeps_execTpci0 {z : State} (s : State)  (hk0 : Keeps z s) : KeepsOut z (execTpci0 s) := by
  unfold execTpci0
  try dsimp only
  iterate 14 (try any_goals first
    | with_reducible assumption | with_reducible apply keeps_startTpci | with_reducible refine KeepsOut.next ?_)

theorem keeps_execTpci1 {z : State} (s : State)  (hk0 : Keeps z s) : KeepsOut z (execTpci1 s) := by
  unfold execTpci1
  try dsimp only
  iterate 14 (try any_goals first
    | with_reducible assumption | with_reducible apply keeps_startTpci | with_reducible refine KeepsOut.next ?_)

end Sys2Proof.Machine
end

