-- ==== Sys2Proof/Laws/KeepsPort.lean ====
section
/-! SUPPORT. What each operation keeps (Laws/Keeps.lean): packets that arrive, requests, the beat, the patrol. -/

set_option maxRecDepth 20000

namespace Sys2Proof.Machine

theorem keeps_replyTo {z : State} (p : Pkt) (typ : ℕ) (poison : Bool) (w4 : ℕ) (payload : List Byte) (s : State)  (hk0 : Keeps z s) : Keeps z (replyTo p typ poison w4 payload s) := by
  unfold replyTo
  try dsimp only
  iterate 14 (try any_goals first
    | with_reducible assumption | with_reducible apply keeps_queueReply | refine Keeps.upd ?_ rfl rfl)

theorem keeps_nackTo {z : State} (p : Pkt) (code : ℕ) (s : State)  (hk0 : Keeps z s) : Keeps z (nackTo p code s) := by
  unfold nackTo
  try dsimp only
  iterate 14 (try any_goals first
    | with_reducible assumption | with_reducible apply keeps_replyTo)

theorem keeps_refuse {z : State} (p : Pkt) (code : ℕ) (s : State)  (hk0 : Keeps z s) : Keeps z (refuse p code s) := by
  unfold refuse
  try dsimp only
  iterate 14 (try any_goals first
    | with_reducible assumption | with_reducible apply keeps_nackTo | with_reducible apply keeps_fabDrop
    | with_reducible refine Keeps.ite ?_ ?_ | split)

theorem keeps_putEffect {z : State} (p : Pkt) (s : State)  (hk0 : Keeps z s) : Keeps z (putEffect p s) := by
  unfold putEffect
  try dsimp only
  iterate 14 (try any_goals first
    | with_reducible assumption | with_reducible apply keeps_nackTo | with_reducible apply keeps_poolWrite
    | with_reducible apply keeps_raise | with_reducible apply keeps_replyTo
    | with_reducible apply keeps_replicaTake | with_reducible refine Keeps.fst ‹_› ?_
    | with_reducible refine Keeps.snd ‹_› ?_ | with_reducible refine Keeps.mid ‹_› ?_
    | with_reducible refine Keeps.third ‹_› ?_ | with_reducible refine Keeps.thirdLast ‹_› ?_
    | with_reducible refine Keeps.ite ?_ ?_ | split | refine Keeps.upd ?_ rfl rfl)

theorem keeps_getEffect {z : State} (p : Pkt) (s : State)  (hk0 : Keeps z s) : Keeps z (getEffect p s) := by
  unfold getEffect
  try dsimp only
  iterate 14 (try any_goals first
    | with_reducible assumption | with_reducible apply keeps_nackTo | with_reducible apply keeps_poolRead
    | with_reducible apply keeps_replyTo | with_reducible refine Keeps.fst ‹_› ?_
    | with_reducible refine Keeps.snd ‹_› ?_ | with_reducible refine Keeps.mid ‹_› ?_
    | with_reducible refine Keeps.third ‹_› ?_ | with_reducible refine Keeps.thirdLast ‹_› ?_
    | with_reducible refine Keeps.ite ?_ ?_ | split)

theorem keeps_raccEffect {z : State} (p : Pkt) (s : State)  (hk0 : Keeps z s) : Keeps z (raccEffect p s) := by
  unfold raccEffect
  try dsimp only
  iterate 14 (try any_goals first
    | with_reducible assumption | with_reducible apply keeps_nackTo | with_reducible apply keeps_poolRead
    | with_reducible apply keeps_raise | with_reducible apply keeps_poolWrite
    | with_reducible apply keeps_replyTo | with_reducible refine Keeps.fst ‹_› ?_
    | with_reducible refine Keeps.snd ‹_› ?_ | with_reducible refine Keeps.mid ‹_› ?_
    | with_reducible refine Keeps.third ‹_› ?_ | with_reducible refine Keeps.thirdLast ‹_› ?_
    | with_reducible refine Keeps.ite ?_ ?_ | split | refine Keeps.upd ?_ rfl rfl)

theorem keeps_remoteAdd {z : State} (f : ℕ) (x : ℤ) (p : Pkt) (s : State)  (hk0 : Keeps z s) : Keeps z (remoteAdd f x p s) := by
  unfold remoteAdd
  try dsimp only
  iterate 14 (try any_goals first
    | with_reducible assumption | with_reducible apply keeps_raise | with_reducible apply keeps_addLater
    | with_reducible refine Keeps.ite ?_ ?_ | split)

theorem keeps_faddEffect {z : State} (p : Pkt) (s : State)  (hk0 : Keeps z s) : Keeps z (faddEffect p s) := by
  unfold faddEffect
  try dsimp only
  iterate 14 (try any_goals first
    | with_reducible assumption | with_reducible apply keeps_remoteAdd)

theorem keeps_carryEffect {z : State} (p : Pkt) (s : State)  (hk0 : Keeps z s) : Keeps z (carryEffect p s) := by
  unfold carryEffect
  try dsimp only
  iterate 14 (try any_goals first
    | with_reducible assumption | with_reducible apply keeps_touch | with_reducible apply keeps_remoteAdd
    | with_reducible exact fun _ _ h => h | with_reducible refine Keeps.ite ?_ ?_ | split
    | refine Keeps.upd ?_ rfl rfl)

theorem keeps_landCarries {z : State} (s : State)  (hk0 : Keeps z s) : Keeps z (landCarries s) := by
  unfold landCarries
  try dsimp only
  iterate 14 (try any_goals first
    | with_reducible assumption | with_reducible apply keeps_crSet | with_reducible exact fun _ _ h => h
    | with_reducible refine Keeps.foldl (fun _ _ _ => ?_) _ ?_
    | with_reducible refine Keeps.foldlFst (fun _ _ _ => ?_) _ ?_
    | with_reducible refine Keeps.foldlSnd (fun _ _ _ => ?_) _ ?_ | refine Keeps.upd ?_ rfl rfl)

theorem keeps_getrEffect {z : State} (p : Pkt) (s : State)  (hk0 : Keeps z s) : Keeps z (getrEffect p s) := by
  unfold getrEffect
  try dsimp only
  iterate 14 (try any_goals first
    | with_reducible assumption | with_reducible apply keeps_getrRequest | with_reducible apply keeps_fabDrop
    | with_reducible refine Keeps.fst ‹_› ?_ | with_reducible refine Keeps.snd ‹_› ?_
    | with_reducible refine Keeps.mid ‹_› ?_ | with_reducible refine Keeps.third ‹_› ?_
    | with_reducible refine Keeps.thirdLast ‹_› ?_ | with_reducible refine Keeps.ite ?_ ?_ | split
    | refine Keeps.upd ?_ rfl rfl)

theorem keeps_ackEffect {z : State} (p : Pkt) (s : State)  (hk0 : Keeps z s) : Keeps z (ackEffect p s) := by
  unfold ackEffect
  try dsimp only
  iterate 14 (try any_goals first
    | with_reducible assumption | with_reducible apply keeps_ackRequest | with_reducible apply keeps_fabDrop
    | with_reducible refine Keeps.fst ‹_› ?_ | with_reducible refine Keeps.snd ‹_› ?_
    | with_reducible refine Keeps.mid ‹_› ?_ | with_reducible refine Keeps.third ‹_› ?_
    | with_reducible refine Keeps.thirdLast ‹_› ?_ | split | refine Keeps.upd ?_ rfl rfl)

theorem keeps_nackEffect {z : State} (p : Pkt) (s : State)  (hk0 : Keeps z s) : Keeps z (nackEffect p s) := by
  unfold nackEffect
  try dsimp only
  iterate 14 (try any_goals first
    | with_reducible assumption | with_reducible apply keeps_raise | with_reducible apply keeps_endRequest
    | with_reducible apply keeps_fabDrop | with_reducible exact fun _ _ h => h
    | with_reducible refine Keeps.fst ‹_› ?_ | with_reducible refine Keeps.snd ‹_› ?_
    | with_reducible refine Keeps.mid ‹_› ?_ | with_reducible refine Keeps.third ‹_› ?_
    | with_reducible refine Keeps.thirdLast ‹_› ?_ | with_reducible refine Keeps.ite ?_ ?_ | split
    | refine Keeps.upd ?_ rfl rfl)

theorem keeps_rresEffect {z : State} (p : Pkt) (s : State)  (hk0 : Keeps z s) : Keeps z (rresEffect p s) := by
  unfold rresEffect
  try dsimp only
  iterate 14 (try any_goals first
    | with_reducible assumption | with_reducible apply keeps_redDeliver)

theorem keeps_probeEffect {z : State} (p : Pkt) (s : State)  (hk0 : Keeps z s) : Keeps z (probeEffect p s) := by
  unfold probeEffect
  try dsimp only
  iterate 14 (try any_goals first
    | with_reducible assumption | with_reducible apply keeps_replyTo)

theorem keeps_proberEffect {z : State} (p : Pkt) (s : State)  (hk0 : Keeps z s) : Keeps z (proberEffect p s) := by
  unfold proberEffect
  try dsimp only
  iterate 14 (try any_goals first
    | with_reducible assumption | with_reducible apply keeps_armAnswer | with_reducible apply keeps_fabDrop
    | with_reducible refine Keeps.ite ?_ ?_ | split)

theorem keeps_resetEffect {z : State} (p : Pkt) (s : State)  (hk0 : Keeps z s) : Keeps z (resetEffect p s) := by
  unfold resetEffect
  try dsimp only
  iterate 14 (try any_goals first
    | with_reducible assumption | with_reducible apply keeps_assertReset | with_reducible apply keeps_fabDrop
    | with_reducible refine Keeps.fst ‹_› ?_ | with_reducible refine Keeps.snd ‹_› ?_
    | with_reducible refine Keeps.mid ‹_› ?_ | with_reducible refine Keeps.third ‹_› ?_
    | with_reducible refine Keeps.thirdLast ‹_› ?_ | split | refine Keeps.upd ?_ rfl rfl)

theorem keeps_process {z : State} (act : Pkt → State → State) (p : Pkt) (s : State) (hact : ∀ a0 a1, Keeps z a1 → Keeps z (act a0 a1)) (hk0 : Keeps z s) : Keeps z (process act p s) := by
  unfold process
  try dsimp only
  iterate 14 (try any_goals first
    | with_reducible assumption | with_reducible apply keeps_raise | with_reducible apply keeps_fabDrop
    | with_reducible apply keeps_refuse | with_reducible apply keeps_nackTo | with_reducible apply keeps_bump
    | with_reducible apply hact | with_reducible refine Keeps.ite ?_ ?_ | split)

theorem keeps_effectOf {z : State} (p : Pkt) (x1 : State)  (hk0 : Keeps z x1) : Keeps z (effectOf p x1) := by
  have h : ∀ f, effectOf p = f → Keeps z (f x1) := by
    intro f e
    unfold effectOf at e
    split at e <;> subst e
    · exact keeps_putEffect _ _ hk0
    · exact keeps_getEffect _ _ hk0
    · exact keeps_getrEffect _ _ hk0
    · exact keeps_ackEffect _ _ hk0
    · exact keeps_nackEffect _ _ hk0
    · exact keeps_raccEffect _ _ hk0
    · exact keeps_faddEffect _ _ hk0
    · exact keeps_carryEffect _ _ hk0
    · exact keeps_rresEffect _ _ hk0
    · exact keeps_probeEffect _ _ hk0
    · exact keeps_proberEffect _ _ hk0
    · exact keeps_resetEffect _ _ hk0
    · exact hk0
  exact h _ rfl

theorem keeps_setRxCredit {z : State} (ch : ℕ) (n : ℕ) (s : State)  (hk0 : Keeps z s) : Keeps z (setRxCredit ch n s) := by
  unfold setRxCredit
  try dsimp only
  iterate 14 (try any_goals first
    | with_reducible assumption | with_reducible refine Keeps.ite ?_ ?_ | split | refine Keeps.upd ?_ rfl rfl)

theorem keeps_hold {z : State} (p : Pkt) (s : State)  (hk0 : Keeps z s) : Keeps z (hold p s) := by
  unfold hold
  try dsimp only
  iterate 14 (try any_goals first
    | with_reducible assumption | with_reducible apply keeps_setRxCredit | refine Keeps.upd ?_ rfl rfl)

theorem keeps_park {z : State} (p : Pkt) (s : State)  (hk0 : Keeps z s) : Keeps z (park p s) := by
  unfold park
  try dsimp only
  iterate 14 (try any_goals first
    | with_reducible assumption | refine Keeps.upd ?_ rfl rfl)

theorem keeps_processNow {z : State} (act : Pkt → State → State) (p : Pkt) (s : State) (hact : ∀ a0 a1, Keeps z a1 → Keeps z (act a0 a1)) (hk0 : Keeps z s) : Keeps z (processNow act p s) := by
  unfold processNow
  try dsimp only
  iterate 14 (try any_goals first
    | with_reducible assumption | with_reducible apply keeps_process | with_reducible apply hact
    | with_reducible exact fun _ _ h => h | with_reducible refine Keeps.ite ?_ ?_ | split
    | refine Keeps.upd ?_ rfl rfl)

theorem keeps_arrive {z : State} (act : Pkt → State → State) (p : Pkt) (s : State) (hact : ∀ a0 a1, Keeps z a1 → Keeps z (act a0 a1)) (hk0 : Keeps z s) : Keeps z (arrive act p s) := by
  unfold arrive
  try dsimp only
  iterate 14 (try any_goals first
    | with_reducible assumption | with_reducible apply keeps_fabDrop | with_reducible apply keeps_bump
    | with_reducible apply keeps_raise | with_reducible apply keeps_hold | with_reducible apply keeps_park
    | with_reducible apply keeps_processNow | with_reducible apply hact
    | with_reducible refine Keeps.fst ‹_› ?_ | with_reducible refine Keeps.snd ‹_› ?_
    | with_reducible refine Keeps.mid ‹_› ?_ | with_reducible refine Keeps.third ‹_› ?_
    | with_reducible refine Keeps.thirdLast ‹_› ?_ | with_reducible refine Keeps.ite ?_ ?_ | split)

theorem keeps_execPutPacket {z : State} (p : Pkt) (s : State)  (hk0 : Keeps z s) : KeepsOut z (execPutPacket p s) := by
  unfold execPutPacket
  try dsimp only
  iterate 14 (try any_goals first
    | with_reducible assumption | with_reducible apply keeps_arrive | with_reducible apply keeps_putEffect
    | with_reducible refine KeepsOut.next ?_ | with_reducible refine Keeps.ite ?_ ?_ | split)

theorem keeps_execGetPacket {z : State} (p : Pkt) (s : State)  (hk0 : Keeps z s) : KeepsOut z (execGetPacket p s) := by
  unfold execGetPacket
  try dsimp only
  iterate 14 (try any_goals first
    | with_reducible assumption | with_reducible apply keeps_arrive | with_reducible apply keeps_getEffect
    | with_reducible refine KeepsOut.next ?_ | with_reducible refine Keeps.ite ?_ ?_ | split)

theorem keeps_execGetrPacket {z : State} (p : Pkt) (s : State)  (hk0 : Keeps z s) : KeepsOut z (execGetrPacket p s) := by
  unfold execGetrPacket
  try dsimp only
  iterate 14 (try any_goals first
    | with_reducible assumption | with_reducible apply keeps_arrive | with_reducible apply keeps_getrEffect
    | with_reducible refine KeepsOut.next ?_ | with_reducible refine Keeps.ite ?_ ?_ | split)

theorem keeps_execAckPacket {z : State} (p : Pkt) (s : State)  (hk0 : Keeps z s) : KeepsOut z (execAckPacket p s) := by
  unfold execAckPacket
  try dsimp only
  iterate 14 (try any_goals first
    | with_reducible assumption | with_reducible apply keeps_arrive | with_reducible apply keeps_ackEffect
    | with_reducible refine KeepsOut.next ?_ | with_reducible refine Keeps.ite ?_ ?_ | split)

theorem keeps_execNackPacket {z : State} (p : Pkt) (s : State)  (hk0 : Keeps z s) : KeepsOut z (execNackPacket p s) := by
  unfold execNackPacket
  try dsimp only
  iterate 14 (try any_goals first
    | with_reducible assumption | with_reducible apply keeps_arrive | with_reducible apply keeps_nackEffect
    | with_reducible refine KeepsOut.next ?_ | with_reducible refine Keeps.ite ?_ ?_ | split)

theorem keeps_execRaccPacket {z : State} (p : Pkt) (s : State)  (hk0 : Keeps z s) : KeepsOut z (execRaccPacket p s) := by
  unfold execRaccPacket
  try dsimp only
  iterate 14 (try any_goals first
    | with_reducible assumption | with_reducible apply keeps_arrive | with_reducible apply keeps_raccEffect
    | with_reducible refine KeepsOut.next ?_ | with_reducible refine Keeps.ite ?_ ?_ | split)

theorem keeps_execFaddPacket {z : State} (p : Pkt) (s : State)  (hk0 : Keeps z s) : KeepsOut z (execFaddPacket p s) := by
  unfold execFaddPacket
  try dsimp only
  iterate 14 (try any_goals first
    | with_reducible assumption | with_reducible apply keeps_arrive | with_reducible apply keeps_faddEffect
    | with_reducible refine KeepsOut.next ?_ | with_reducible refine Keeps.ite ?_ ?_ | split)

theorem keeps_execCarryPacket {z : State} (p : Pkt) (s : State)  (hk0 : Keeps z s) : KeepsOut z (execCarryPacket p s) := by
  unfold execCarryPacket
  try dsimp only
  iterate 14 (try any_goals first
    | with_reducible assumption | with_reducible apply keeps_arrive | with_reducible apply keeps_carryEffect
    | with_reducible refine KeepsOut.next ?_ | with_reducible refine Keeps.ite ?_ ?_ | split)

theorem keeps_execRconPacket {z : State} (p : Pkt) (s : State)  (hk0 : Keeps z s) : KeepsOut z (execRconPacket p s) := by
  unfold execRconPacket
  split
  · exact .next (keeps_arrive _ _ _ (fun _ _ h => h) hk0)
  · exact .next hk0

theorem keeps_execRresPacket {z : State} (p : Pkt) (s : State)  (hk0 : Keeps z s) : KeepsOut z (execRresPacket p s) := by
  unfold execRresPacket
  try dsimp only
  iterate 14 (try any_goals first
    | with_reducible assumption | with_reducible apply keeps_arrive | with_reducible apply keeps_rresEffect
    | with_reducible refine KeepsOut.next ?_ | with_reducible refine Keeps.ite ?_ ?_ | split)

theorem keeps_execProbePacket {z : State} (p : Pkt) (s : State)  (hk0 : Keeps z s) : KeepsOut z (execProbePacket p s) := by
  unfold execProbePacket
  try dsimp only
  iterate 14 (try any_goals first
    | with_reducible assumption | with_reducible apply keeps_arrive | with_reducible apply keeps_probeEffect
    | with_reducible refine KeepsOut.next ?_ | with_reducible refine Keeps.ite ?_ ?_ | split)

theorem keeps_execProberPacket {z : State} (p : Pkt) (s : State)  (hk0 : Keeps z s) : KeepsOut z (execProberPacket p s) := by
  unfold execProberPacket
  try dsimp only
  iterate 14 (try any_goals first
    | with_reducible assumption | with_reducible apply keeps_arrive | with_reducible apply keeps_proberEffect
    | with_reducible refine KeepsOut.next ?_ | with_reducible refine Keeps.ite ?_ ?_ | split)

theorem keeps_execResetPacket {z : State} (p : Pkt) (s : State)  (hk0 : Keeps z s) : KeepsOut z (execResetPacket p s) := by
  unfold execResetPacket
  try dsimp only
  iterate 14 (try any_goals first
    | with_reducible assumption | with_reducible apply keeps_arrive | with_reducible apply keeps_resetEffect
    | with_reducible refine KeepsOut.next ?_ | with_reducible refine Keeps.ite ?_ ?_ | split)

theorem keeps_processHeld {z : State} (p : Pkt) (s : State)  (hk0 : Keeps z s) : Keeps z (processHeld p s) := by
  unfold processHeld
  try dsimp only
  iterate 14 (try any_goals first
    | with_reducible assumption | with_reducible apply keeps_process | with_reducible apply keeps_effectOf
    | with_reducible apply keeps_fabDrop | with_reducible exact fun _ _ h => h
    | with_reducible refine Keeps.ite ?_ ?_ | split)

theorem keeps_giveCredit {z : State} (p : Pkt) (s : State)  (hk0 : Keeps z s) : Keeps z (giveCredit p s) := by
  unfold giveCredit
  try dsimp only
  iterate 14 (try any_goals first
    | with_reducible assumption | with_reducible apply keeps_setRxCredit)

theorem keeps_takeHeld {z : State} (x : ℕ × Pkt) (s : State)  (hk0 : Keeps z s) : Keeps z (takeHeld x s) := by
  unfold takeHeld
  try dsimp only
  iterate 14 (try any_goals first
    | with_reducible assumption | with_reducible apply keeps_giveCredit | with_reducible apply keeps_park
    | with_reducible apply keeps_processHeld | with_reducible refine Keeps.ite ?_ ?_ | split
    | refine Keeps.upd ?_ rfl rfl)

theorem keeps_drainParked {z : State} (s : State)  (hk0 : Keeps z s) : Keeps z (drainParked s) := by
  unfold drainParked
  try dsimp only
  iterate 14 (try any_goals first
    | with_reducible assumption | with_reducible apply keeps_processHeld | with_reducible apply keeps_takeHeld
    | with_reducible exact fun _ _ h => h | with_reducible refine Keeps.foldl (fun _ _ _ => ?_) _ ?_
    | with_reducible refine Keeps.foldlFst (fun _ _ _ => ?_) _ ?_
    | with_reducible refine Keeps.foldlSnd (fun _ _ _ => ?_) _ ?_ | with_reducible refine Keeps.ite ?_ ?_
    | split | refine Keeps.upd ?_ rfl rfl)

theorem keeps_keepUndo {z : State} (s : State)  (hk0 : Keeps z s) : Keeps z (keepUndo s) := by
  unfold keepUndo
  try dsimp only
  iterate 14 (try any_goals first
    | with_reducible assumption | with_reducible refine Keeps.fst ‹_› ?_
    | with_reducible refine Keeps.snd ‹_› ?_ | with_reducible refine Keeps.mid ‹_› ?_
    | with_reducible refine Keeps.third ‹_› ?_ | with_reducible refine Keeps.thirdLast ‹_› ?_ | split
    | refine Keeps.upd ?_ rfl rfl)

theorem keeps_undoEdge {z : State} (s : State)  (hk0 : Keeps z s) : Keeps z (undoEdge s) := by
  unfold undoEdge
  try dsimp only
  iterate 14 (try any_goals first
    | with_reducible assumption | with_reducible exact fun _ _ h => h | with_reducible refine Keeps.fst ‹_› ?_
    | with_reducible refine Keeps.snd ‹_› ?_ | with_reducible refine Keeps.mid ‹_› ?_
    | with_reducible refine Keeps.third ‹_› ?_ | with_reducible refine Keeps.thirdLast ‹_› ?_ | split
    | refine Keeps.upd ?_ rfl rfl)

theorem keeps_retarget {z : State} (s : State)  (hk0 : Keeps z s) : Keeps z (retarget s) := by
  unfold retarget
  try dsimp only
  iterate 14 (try any_goals first
    | with_reducible assumption | with_reducible refine Keeps.ite ?_ ?_ | split | refine Keeps.upd ?_ rfl rfl)

theorem keeps_execPlTargetChange {z : State} (level : BitVec 2) (s : State)  (hk0 : Keeps z s) : KeepsOut z (execPlTargetChange level s) := by
  unfold execPlTargetChange
  try dsimp only
  iterate 14 (try any_goals first
    | with_reducible assumption | with_reducible apply keeps_retarget | with_reducible refine KeepsOut.next ?_
    | with_reducible refine Keeps.ite ?_ ?_ | split | refine Keeps.upd ?_ rfl rfl)

theorem keeps_plBreach {z : State} (s : State)  (hk0 : Keeps z s) : Keeps z (plBreach s) := by
  unfold plBreach
  try dsimp only
  iterate 14 (try any_goals first
    | with_reducible assumption | with_reducible apply keeps_raise)

theorem keeps_execPlCommit {z : State} (edge : Bool) (s : State)  (hk0 : Keeps z s) : KeepsOut z (execPlCommit edge s) := by
  unfold execPlCommit
  try dsimp only
  iterate 14 (try any_goals first
    | with_reducible assumption | with_reducible apply keeps_plBreach | with_reducible apply keeps_keepUndo
    | with_reducible apply keeps_retarget | with_reducible refine KeepsOut.next ?_
    | with_reducible refine Keeps.ite ?_ ?_ | split | refine Keeps.upd ?_ rfl rfl)

theorem keeps_execPlReadyRise {z : State} (s : State)  (hk0 : Keeps z s) : KeepsOut z (execPlReadyRise s) := by
  unfold execPlReadyRise
  try dsimp only
  iterate 14 (try any_goals first
    | with_reducible assumption | with_reducible refine KeepsOut.next ?_
    | with_reducible refine Keeps.ite ?_ ?_ | split | refine Keeps.upd ?_ rfl rfl)

theorem keeps_execPondHaltRise {z : State} (s : State)  (hk0 : Keeps z s) : KeepsOut z (execPondHaltRise s) := by
  unfold execPondHaltRise
  try dsimp only
  iterate 14 (try any_goals first
    | with_reducible assumption | with_reducible apply keeps_undoEdge | with_reducible apply keeps_lowerLate
    | with_reducible apply keeps_haltEngines | with_reducible refine KeepsOut.next ?_
    | refine Keeps.upd ?_ rfl rfl)

theorem keeps_execPondHaltFall {z : State} (s : State)  (hk0 : Keeps z s) : KeepsOut z (execPondHaltFall s) := by
  unfold execPondHaltFall
  try dsimp only
  iterate 14 (try any_goals first
    | with_reducible assumption | with_reducible refine KeepsOut.next ?_ | refine Keeps.upd ?_ rfl rfl)

theorem keeps_execDroopAlertRise {z : State} (s : State)  (hk0 : Keeps z s) : KeepsOut z (execDroopAlertRise s) := by
  unfold execDroopAlertRise
  try dsimp only
  iterate 14 (try any_goals first
    | with_reducible assumption | with_reducible apply keeps_freshNat | with_reducible refine KeepsOut.next ?_
    | with_reducible refine Keeps.fst ‹_› ?_ | with_reducible refine Keeps.snd ‹_› ?_
    | with_reducible refine Keeps.mid ‹_› ?_ | with_reducible refine Keeps.third ‹_› ?_
    | with_reducible refine Keeps.thirdLast ‹_› ?_ | with_reducible refine Keeps.ite ?_ ?_ | split
    | refine Keeps.upd ?_ rfl rfl)

theorem keeps_execDroopAlertFall {z : State} (s : State)  (hk0 : Keeps z s) : KeepsOut z (execDroopAlertFall s) := by
  unfold execDroopAlertFall
  try dsimp only
  iterate 14 (try any_goals first
    | with_reducible assumption | with_reducible apply keeps_freshNat | with_reducible refine KeepsOut.next ?_
    | with_reducible refine Keeps.fst ‹_› ?_ | with_reducible refine Keeps.snd ‹_› ?_
    | with_reducible refine Keeps.mid ‹_› ?_ | with_reducible refine Keeps.third ‹_› ?_
    | with_reducible refine Keeps.thirdLast ‹_› ?_ | with_reducible refine Keeps.ite ?_ ?_ | split
    | refine Keeps.upd ?_ rfl rfl)

theorem keeps_execDroopWindowEnd {z : State} (s : State)  (hk0 : Keeps z s) : KeepsOut z (execDroopWindowEnd s) := by
  unfold execDroopWindowEnd
  try dsimp only
  iterate 14 (try any_goals first
    | with_reducible assumption | with_reducible refine KeepsOut.next ?_
    | with_reducible refine Keeps.fst ‹_› ?_ | with_reducible refine Keeps.snd ‹_› ?_
    | with_reducible refine Keeps.mid ‹_› ?_ | with_reducible refine Keeps.third ‹_› ?_
    | with_reducible refine Keeps.thirdLast ‹_› ?_ | with_reducible refine Keeps.ite ?_ ?_ | split
    | refine Keeps.upd ?_ rfl rfl)

theorem keeps_execBeatDue {z : State} (s : State)  (hk0 : Keeps z s) : KeepsOut z (execBeatDue s) := by
  unfold execBeatDue
  try dsimp only
  iterate 14 (try any_goals first
    | with_reducible assumption | with_reducible refine KeepsOut.next ?_
    | with_reducible refine Keeps.ite ?_ ?_ | split | refine Keeps.upd ?_ rfl rfl)

theorem keeps_execBeatOverrun {z : State} (s : State)  (hk0 : Keeps z s) : KeepsOut z (execBeatOverrun s) := by
  unfold execBeatOverrun
  try dsimp only
  iterate 14 (try any_goals first
    | with_reducible assumption | with_reducible apply keeps_raise | with_reducible refine KeepsOut.next ?_
    | with_reducible refine Keeps.ite ?_ ?_ | split)

theorem keeps_routeSwap {z : State} (s : State)  (hk0 : Keeps z s) : Keeps z (routeSwap s) := by
  unfold routeSwap
  try dsimp only
  iterate 14 (try any_goals first
    | with_reducible assumption | refine Keeps.upd ?_ rfl rfl)

theorem keeps_snapCounters {z : State} (s : State)  (hk0 : Keeps z s) : Keeps z (snapCounters s) := by
  unfold snapCounters
  try dsimp only
  iterate 14 (try any_goals first
    | with_reducible assumption | with_reducible refine Keeps.ite ?_ ?_ | split | refine Keeps.upd ?_ rfl rfl)

theorem keeps_beatNumber {z : State} (s : State)  (hk0 : Keeps z s) : Keeps z (beatNumber s) := by
  unfold beatNumber
  try dsimp only
  iterate 14 (try any_goals first
    | with_reducible assumption | with_reducible refine Keeps.ite ?_ ?_ | split | refine Keeps.upd ?_ rfl rfl)

theorem keeps_leaveHold {z : State} (s : State)  (hk0 : Keeps z s) : Keeps z (leaveHold s) := by
  unfold leaveHold
  try dsimp only
  iterate 14 (try any_goals first
    | with_reducible assumption | with_reducible refine Keeps.ite ?_ ?_ | split | refine Keeps.upd ?_ rfl rfl)

theorem keeps_setStop {z : State} (x : Stop) (s : State)  (hk0 : Keeps z s) : Keeps z (setStop x s) := by
  unfold setStop
  try dsimp only
  iterate 14 (try any_goals first
    | with_reducible assumption | refine Keeps.upd ?_ rfl rfl)

theorem keeps_ckptRestart {z : State} (s : State)  (hk0 : Keeps z s) : Keeps z (ckptRestart s) := by
  unfold ckptRestart
  try dsimp only
  iterate 14 (try any_goals first
    | with_reducible assumption | with_reducible apply keeps_setStop | with_reducible apply keeps_raise
    | with_reducible refine Keeps.ite ?_ ?_ | split | refine Keeps.upd ?_ rfl rfl)

theorem keeps_takeTest {z : State} (s : State)  (hk0 : Keeps z s) : Keeps z (takeTest s) := by
  unfold takeTest
  try dsimp only
  iterate 14 (try any_goals first
    | with_reducible assumption | with_reducible refine Keeps.fst ‹_› ?_
    | with_reducible refine Keeps.snd ‹_› ?_ | with_reducible refine Keeps.mid ‹_› ?_
    | with_reducible refine Keeps.third ‹_› ?_ | with_reducible refine Keeps.thirdLast ‹_› ?_ | split
    | refine Keeps.upd ?_ rfl rfl)

theorem keeps_markEdge {z : State} (s : State)  (hk0 : Keeps z s) : Keeps z (markEdge s) := by
  unfold markEdge
  try dsimp only
  iterate 14 (try any_goals first
    | with_reducible assumption | with_reducible apply keeps_setStop | with_reducible apply keeps_takeTest
    | with_reducible refine Keeps.fst ‹_› ?_ | with_reducible refine Keeps.snd ‹_› ?_
    | with_reducible refine Keeps.mid ‹_› ?_ | with_reducible refine Keeps.third ‹_› ?_
    | with_reducible refine Keeps.thirdLast ‹_› ?_ | with_reducible refine Keeps.ite ?_ ?_ | split
    | refine Keeps.upd ?_ rfl rfl)

theorem keeps_stopEdge {z : State} (s : State)  (hk0 : Keeps z s) : Keeps z (stopEdge s) := by
  unfold stopEdge
  try dsimp only
  iterate 14 (try any_goals first
    | with_reducible assumption | with_reducible apply keeps_markEdge | with_reducible apply keeps_leaveHold
    | with_reducible apply keeps_setStop | with_reducible apply keeps_ckptRestart
    | with_reducible refine Keeps.fst ‹_› ?_ | with_reducible refine Keeps.snd ‹_› ?_
    | with_reducible refine Keeps.mid ‹_› ?_ | with_reducible refine Keeps.third ‹_› ?_
    | with_reducible refine Keeps.thirdLast ‹_› ?_ | with_reducible refine Keeps.ite ?_ ?_ | split
    | refine Keeps.upd ?_ rfl rfl)

theorem keeps_execBeatEdge {z : State} (s : State)  (hk0 : Keeps z s) : KeepsOut z (execBeatEdge s) := by
  unfold execBeatEdge
  extract_lets s0 t0 c1 t1 i1 y1 t2 t3 t4
  have h0 : Keeps z t0 := keeps_bump _ _ _ (keeps_beatNumber _ (keeps_snapCounters _ (keeps_keepUndo _ hk0)))
  have h1 : Keeps z t1 := Keeps.ite (Keeps.upd h0 rfl rfl) h0
  have h2 : Keeps z t2 := Keeps.upd h1 rfl rfl
  have h3 : Keeps z t3 := Keeps.ite (keeps_routeSwap _ h2) h2
  have h4 : Keeps z t4 := keeps_synBeatEdge _ h3
  split
  · exact .next hk0
  · exact .next (Keeps.ite h4 (keeps_stopEdge _ h4))

theorem keeps_execHoldEntry {z : State} (s : State)  (hk0 : Keeps z s) : KeepsOut z (execHoldEntry s) := by
  unfold execHoldEntry
  try dsimp only
  iterate 14 (try any_goals first
    | with_reducible assumption | with_reducible apply keeps_setStop | with_reducible refine KeepsOut.next ?_
    | with_reducible refine Keeps.fst ‹_› ?_ | with_reducible refine Keeps.snd ‹_› ?_
    | with_reducible refine Keeps.mid ‹_› ?_ | with_reducible refine Keeps.third ‹_› ?_
    | with_reducible refine Keeps.thirdLast ‹_› ?_ | with_reducible refine Keeps.ite ?_ ?_ | split
    | refine Keeps.upd ?_ rfl rfl)

theorem keeps_execIdleEntry {z : State} (s : State)  (hk0 : Keeps z s) : KeepsOut z (execIdleEntry s) := by
  unfold execIdleEntry
  try dsimp only
  iterate 14 (try any_goals first
    | with_reducible assumption | with_reducible refine KeepsOut.next ?_
    | with_reducible refine Keeps.ite ?_ ?_ | split | refine Keeps.upd ?_ rfl rfl)

theorem keeps_patrolWord {z : State} (w : ℕ) (s : State)  (hk0 : Keeps z s) : Keeps z (patrolWord w s) := by
  unfold patrolWord
  extract_lets s1
  have h1 : Keeps z s1 := keeps_eccMistake w s hk0
  split
  · exact keeps_eccCount _ _ _ h1
  · exact keeps_logError _ _ _ (h1.stores rfl rfl rfl id (mwf_mset _) id id id id id id)
  · exact h1

theorem keeps_execPatrolRead {z : State} (bank : BitVec 6) (s : State)  (hk0 : Keeps z s) : KeepsOut z (execPatrolRead bank s) := by
  unfold execPatrolRead
  extract_lets b n c t p u
  have hc : Keeps z c := keeps_bump _ _ _ hk0
  have ht : Keeps z t := by
    unfold t
    split
    · exact Keeps.foldl (fun _ _ h => keeps_patrolWord _ _ h) _ hc
    · exact hc
  have hu : Keeps z u := Keeps.upd ht rfl rfl
  split
  · exact .next hk0
  · split
    · exact .next hu
    · exact .next (keeps_bump _ _ _ hu)

theorem keeps_execCorrectedWriteback {z : State} (row : BitVec 19) (s : State)  (hk0 : Keeps z s) : KeepsOut z (execCorrectedWriteback row s) := by
  unfold execCorrectedWriteback
  try dsimp only
  iterate 14 (try any_goals first
    | with_reducible assumption | with_reducible apply keeps_bumpBank | with_reducible refine KeepsOut.next ?_
    | with_reducible refine Keeps.ite ?_ ?_ | split | refine Keeps.upd ?_ rfl rfl)

end Sys2Proof.Machine
end

