-- ==== Sys2Proof/Laws/KeepsManage.lean ====
section
/-! SUPPORT. What each operation keeps (Laws/Keeps.lean): registers, images, the side-band, resets, the clock. -/

set_option maxRecDepth 20000

namespace Sys2Proof.Machine

theorem keeps_readEffect {z : State} (a : ℕ) (s : State)  (hk0 : Keeps z s) : Keeps z (readEffect a s) := by
  unfold readEffect
  try dsimp only
  iterate 14 (try any_goals first
    | with_reducible assumption | with_reducible exact fun _ _ h => h | with_reducible refine Keeps.fst ‹_› ?_
    | with_reducible refine Keeps.snd ‹_› ?_ | with_reducible refine Keeps.mid ‹_› ?_
    | with_reducible refine Keeps.third ‹_› ?_ | with_reducible refine Keeps.thirdLast ‹_› ?_
    | with_reducible refine Keeps.ite ?_ ?_ | split | refine Keeps.upd ?_ rfl rfl)

theorem keeps_setImgSlot {z : State} (slot : Bool) (x : ImgSlot) (s : State)  (hk0 : Keeps z s) : Keeps z (setImgSlot slot x s) := by
  unfold setImgSlot
  try dsimp only
  iterate 14 (try any_goals first
    | with_reducible assumption | with_reducible refine Keeps.ite ?_ ?_ | split | refine Keeps.upd ?_ rfl rfl)

theorem keeps_imgRead {z : State} (slot : Bool) (s : State)  (hk0 : Keeps z s) : Keeps z (imgRead slot s).1 := by
  unfold imgRead
  try dsimp only
  iterate 14 (try any_goals first
    | with_reducible assumption | with_reducible apply keeps_critReads)

theorem keeps_imgBeginReg {z : State} (slot : Bool) (s : State)  (hk0 : Keeps z s) : Keeps z (imgBeginReg slot s).1 := by
  unfold imgBeginReg
  try dsimp only
  iterate 14 (try any_goals first
    | with_reducible assumption | with_reducible apply keeps_setImgSlot | with_reducible exact fun _ _ h => h
    | with_reducible refine Keeps.ite ?_ ?_ | with_reducible refine Keeps.iteFst ?_ ?_ | split
    | refine Keeps.upd ?_ rfl rfl)

theorem keeps_imgEndReg {z : State} (slot : Bool) (s : State)  (hk0 : Keeps z s) : Keeps z (imgEndReg slot s).1 := by
  unfold imgEndReg
  try dsimp only
  iterate 14 (try any_goals first
    | with_reducible assumption | with_reducible apply keeps_setImgSlot | with_reducible refine Keeps.ite ?_ ?_
    | with_reducible refine Keeps.iteFst ?_ ?_ | split | refine Keeps.upd ?_ rfl rfl)

theorem keeps_imgAbortReg {z : State} (slot : Bool) (s : State)  (hk0 : Keeps z s) : Keeps z (imgAbortReg slot s).1 := by
  unfold imgAbortReg
  try dsimp only
  iterate 14 (try any_goals first
    | with_reducible assumption | with_reducible apply keeps_setImgSlot | with_reducible refine Keeps.ite ?_ ?_
    | with_reducible refine Keeps.iteFst ?_ ?_ | split)

theorem keeps_imgWindowReg {z : State} (w : Word) (s : State)  (hk0 : Keeps z s) : Keeps z (imgWindowReg w s).1 := by
  unfold imgWindowReg
  try dsimp only
  iterate 14 (try any_goals first
    | with_reducible assumption | with_reducible apply keeps_setImgSlot
    | with_reducible refine Keeps.fst ‹_› ?_ | with_reducible refine Keeps.snd ‹_› ?_
    | with_reducible refine Keeps.mid ‹_› ?_ | with_reducible refine Keeps.third ‹_› ?_
    | with_reducible refine Keeps.thirdLast ‹_› ?_ | with_reducible refine Keeps.ite ?_ ?_
    | with_reducible refine Keeps.iteFst ?_ ?_ | split | refine Keeps.upd ?_ rfl rfl)

theorem keeps_imgHashReg {z : State} (slot : Bool) (i : ℕ) (w : Word) (s : State)  (hk0 : Keeps z s) : Keeps z (imgHashReg slot i w s).1 := by
  unfold imgHashReg
  try dsimp only
  iterate 14 (try any_goals first
    | with_reducible assumption | with_reducible apply keeps_setImgSlot | with_reducible refine Keeps.ite ?_ ?_
    | with_reducible refine Keeps.iteFst ?_ ?_ | split | refine Keeps.upd ?_ rfl rfl)

theorem keeps_activateReg {z : State} (slot : Bool) (s : State)  (hk0 : Keeps z s) : Keeps z (activateReg slot s).1 := by
  unfold activateReg
  try dsimp only
  iterate 14 (try any_goals first
    | with_reducible assumption | with_reducible refine Keeps.fst ‹_› ?_
    | with_reducible refine Keeps.snd ‹_› ?_ | with_reducible refine Keeps.mid ‹_› ?_
    | with_reducible refine Keeps.third ‹_› ?_ | with_reducible refine Keeps.thirdLast ‹_› ?_
    | with_reducible refine Keeps.ite ?_ ?_ | with_reducible refine Keeps.iteFst ?_ ?_ | split
    | refine Keeps.upd ?_ rfl rfl)

theorem keeps_execImageCheckComplete {z : State} (s : State)  (hk0 : Keeps z s) : KeepsOut z (execImageCheckComplete s) := by
  unfold execImageCheckComplete
  try dsimp only
  iterate 14 (try any_goals first
    | with_reducible assumption | with_reducible apply keeps_imgRead | with_reducible apply keeps_setImgSlot
    | with_reducible refine KeepsOut.next ?_ | with_reducible refine Keeps.fst ‹_› ?_
    | with_reducible refine Keeps.snd ‹_› ?_ | with_reducible refine Keeps.mid ‹_› ?_
    | with_reducible refine Keeps.third ‹_› ?_ | with_reducible refine Keeps.thirdLast ‹_› ?_
    | with_reducible refine Keeps.ite ?_ ?_ | split | refine Keeps.upd ?_ rfl rfl)

theorem keeps_shadowWrite {z : State} (i : ℕ) (x1 : List Word) (x2 : State)  (hk0 : Keeps z x2) : Keeps z (shadowWrite i x1 x2) := by
  induction x1 generalizing i x2 with
  | nil => exact hk0
  | cons w ws ih =>
    unfold shadowWrite
    have h : Keeps z { x2 with routeUpset := mset 0 x2.routeUpset (4096 * b2n (shadowCopy x2) + i) 0 } := Keeps.upd hk0 rfl rfl
    exact ih _ _ (Keeps.ite (Keeps.upd h rfl rfl) (Keeps.upd h rfl rfl))

theorem keeps_routeWrites {z : State} (x0 : List (Option (ℕ × Word))) (x1 : State)  (hk0 : Keeps z x1) : Keeps z (routeWrites x0 x1) := by
  induction x0 generalizing x1 with
  | nil => exact Keeps.upd hk0 rfl rfl
  | cons x l ih =>
    cases x with
    | none => exact Keeps.upd hk0 rfl rfl
    | some p => exact ih _ (keeps_shadowWrite _ _ _ hk0)

theorem keeps_flushRoutes {z : State} (s : State)  (hk0 : Keeps z s) : Keeps z (flushRoutes s) := by
  unfold flushRoutes
  try dsimp only
  iterate 14 (try any_goals first
    | with_reducible assumption | with_reducible apply keeps_routeWrites
    | with_reducible refine Keeps.ite ?_ ?_ | split)

theorem keeps_loseUnits {z : State} (p : ℕ) (q : ℕ) (s : State)  (hk0 : Keeps z s) : Keeps z (loseUnits p q s) := by
  unfold loseUnits
  extract_lets s1
  have h1 : Keeps z s1 := by
    unfold s1
    split
    · exact hk0.stores rfl rfl rfl id id id id id id id (fun _ => mwf_storeOf _ _)
    · exact hk0
  split
  · exact h1.stores rfl rfl rfl id id id id id (fun _ => mwf_storeOf _ _) id id
  · exact h1

theorem keeps_install {z : State} (slot : Bool) (im : Image) (s : State)  (hk0 : Keeps z s) : Keeps z (install slot im s) := by
  unfold install
  extract_lets old bb keep t1 p1 m1 m2 c1 i1 t2 t3
  have h1 : Keeps z t1 := keeps_loseUnits _ _ _ (keeps_poolKeep _ _ hk0)
  have h2 : Keeps z t2 := h1.stores rfl rfl rfl id id id id id id (mwf_filter _) id
  have h3 : Keeps z t3 := by
    unfold t3
    split
    · exact Keeps.upd (keeps_shadowWrite _ _ _ h2) rfl rfl
    · exact h2
  exact keeps_retarget _ (keeps_flushRoutes _ (keeps_lowerLate _ h3))

theorem keeps_execImageInstallStart {z : State} (s : State)  (hk0 : Keeps z s) : KeepsOut z (execImageInstallStart s) := by
  unfold execImageInstallStart
  try dsimp only
  iterate 14 (try any_goals first
    | with_reducible assumption | with_reducible apply keeps_raise | with_reducible apply keeps_setStop
    | with_reducible refine KeepsOut.next ?_ | with_reducible refine Keeps.fst ‹_› ?_
    | with_reducible refine Keeps.snd ‹_› ?_ | with_reducible refine Keeps.mid ‹_› ?_
    | with_reducible refine Keeps.third ‹_› ?_ | with_reducible refine Keeps.thirdLast ‹_› ?_
    | with_reducible refine Keeps.ite ?_ ?_ | split | refine Keeps.upd ?_ rfl rfl)

theorem keeps_installSlot {z : State} (slot : Bool) (due : ℕ) (x : Stop) (after : State → State) (s : State) (hafter : ∀ a0, Keeps z a0 → Keeps z (after a0)) (hk0 : Keeps z s) : Keeps z (installSlot slot due x after s) := by
  unfold installSlot
  try dsimp only
  iterate 14 (try any_goals first
    | with_reducible assumption | with_reducible apply keeps_imgRead | with_reducible apply keeps_setStop
    | with_reducible apply keeps_install | with_reducible apply hafter | with_reducible refine Keeps.fst ‹_› ?_
    | with_reducible refine Keeps.snd ‹_› ?_ | with_reducible refine Keeps.mid ‹_› ?_
    | with_reducible refine Keeps.third ‹_› ?_ | with_reducible refine Keeps.thirdLast ‹_› ?_
    | with_reducible refine Keeps.ite ?_ ?_ | split | refine Keeps.upd ?_ rfl rfl)

theorem keeps_actEnd {z : State} (held : Option ℕ) (s : State)  (hk0 : Keeps z s) : Keeps z (actEnd held s) := by
  unfold actEnd
  try dsimp only
  iterate 14 (try any_goals first
    | with_reducible assumption | with_reducible refine Keeps.ite ?_ ?_ | split | refine Keeps.upd ?_ rfl rfl)

theorem keeps_execInstallationComplete {z : State} (s : State)  (hk0 : Keeps z s) : KeepsOut z (execInstallationComplete s) := by
  unfold execInstallationComplete
  split
  · exact .next (keeps_installSlot _ _ _ _ _ (fun _ h => h) hk0)
  · exact .next (keeps_installSlot _ _ _ _ _ (fun _ h => keeps_actEnd _ _ h) hk0)
  · exact .next hk0

theorem keeps_rwl {z : State} (s : State) (bad : Bool) (t : State)  (hk0 : Keeps z s) (hk1 : Keeps z t) : Keeps z (rwl s bad t).1 := by
  unfold rwl
  try dsimp only
  iterate 14 (try any_goals first
    | with_reducible assumption | with_reducible refine Keeps.ite ?_ ?_
    | with_reducible refine Keeps.iteFst ?_ ?_ | split)

theorem keeps_rw {z : State} (s : State) (bad : Bool) (t : State)  (hk0 : Keeps z s) (hk1 : Keeps z t) : Keeps z (rw s bad t).1 := by
  unfold rw
  try dsimp only
  iterate 14 (try any_goals first
    | with_reducible assumption | with_reducible refine Keeps.ite ?_ ?_
    | with_reducible refine Keeps.iteFst ?_ ?_ | split)

theorem keeps_handoverReg {z : State} (w : Word) (s : State)  (hk0 : Keeps z s) : Keeps z (handoverReg w s).1 := by
  unfold handoverReg
  try dsimp only
  iterate 14 (try any_goals first
    | with_reducible assumption | with_reducible refine Keeps.fst ‹_› ?_
    | with_reducible refine Keeps.snd ‹_› ?_ | with_reducible refine Keeps.mid ‹_› ?_
    | with_reducible refine Keeps.third ‹_› ?_ | with_reducible refine Keeps.thirdLast ‹_› ?_
    | with_reducible refine Keeps.ite ?_ ?_ | with_reducible refine Keeps.iteFst ?_ ?_ | split
    | refine Keeps.upd ?_ rfl rfl)

theorem keeps_enrolReg {z : State} (n : ℕ) (w : Word) (s : State)  (hk0 : Keeps z s) : Keeps z (enrolReg n w s).1 := by
  unfold enrolReg
  try dsimp only
  iterate 14 (try any_goals first
    | with_reducible assumption | with_reducible refine Keeps.fst ‹_› ?_
    | with_reducible refine Keeps.snd ‹_› ?_ | with_reducible refine Keeps.mid ‹_› ?_
    | with_reducible refine Keeps.third ‹_› ?_ | with_reducible refine Keeps.thirdLast ‹_› ?_
    | with_reducible refine Keeps.ite ?_ ?_ | with_reducible refine Keeps.iteFst ?_ ?_ | split
    | refine Keeps.upd ?_ rfl rfl)

theorem keeps_writeOwn {z : State} (a : ℕ) (w : Word) (s : State)  (hk0 : Keeps z s) : Keeps z (writeOwn a w s).1 := by
  unfold writeOwn
  try dsimp only
  iterate 14 (try any_goals first
    | with_reducible assumption | with_reducible apply keeps_rw | with_reducible apply keeps_handoverReg
    | with_reducible apply keeps_enrolReg | with_reducible refine Keeps.ite ?_ ?_
    | with_reducible refine Keeps.iteFst ?_ ?_ | split | refine Keeps.upd ?_ rfl rfl)

theorem keeps_rstCmdReg {z : State} (w : Word) (s : State)  (hk0 : Keeps z s) : Keeps z (rstCmdReg w s).1 := by
  unfold rstCmdReg
  try dsimp only
  iterate 14 (try any_goals first
    | with_reducible assumption | with_reducible refine Keeps.ite ?_ ?_
    | with_reducible refine Keeps.iteFst ?_ ?_ | split)

theorem keeps_pwrStateReg {z : State} (w : Word) (s : State)  (hk0 : Keeps z s) : Keeps z (pwrStateReg w s).1 := by
  unfold pwrStateReg
  try dsimp only
  iterate 14 (try any_goals first
    | with_reducible assumption | with_reducible refine Keeps.ite ?_ ?_
    | with_reducible refine Keeps.iteFst ?_ ?_ | split | refine Keeps.upd ?_ rfl rfl)

theorem keeps_writePower {z : State} (a : ℕ) (w : Word) (s : State)  (hk0 : Keeps z s) : Keeps z (writePower a w s).1 := by
  unfold writePower
  try dsimp only
  iterate 14 (try any_goals first
    | with_reducible assumption | with_reducible apply keeps_rw | with_reducible apply keeps_rstCmdReg
    | with_reducible apply keeps_pwrStateReg | with_reducible apply keeps_rwl
    | with_reducible refine Keeps.ite ?_ ?_ | with_reducible refine Keeps.iteFst ?_ ?_ | split
    | refine Keeps.upd ?_ rfl rfl)

theorem keeps_imgCtlReg {z : State} (w : Word) (s : State)  (hk0 : Keeps z s) : Keeps z (imgCtlReg w s).1 := by
  unfold imgCtlReg
  try dsimp only
  iterate 14 (try any_goals first
    | with_reducible assumption | with_reducible apply keeps_imgBeginReg | with_reducible apply keeps_imgEndReg
    | with_reducible apply keeps_imgAbortReg | with_reducible apply keeps_activateReg
    | with_reducible refine Keeps.fst ‹_› ?_ | with_reducible refine Keeps.snd ‹_› ?_
    | with_reducible refine Keeps.mid ‹_› ?_ | with_reducible refine Keeps.third ‹_› ?_
    | with_reducible refine Keeps.thirdLast ‹_› ?_ | with_reducible refine Keeps.ite ?_ ?_
    | with_reducible refine Keeps.iteFst ?_ ?_ | split | refine Keeps.upd ?_ rfl rfl)

theorem keeps_writeImage {z : State} (a : ℕ) (w : Word) (s : State)  (hk0 : Keeps z s) : Keeps z (writeImage a w s).1 := by
  unfold writeImage
  extract_lets j
  repeat' with_reducible refine Keeps.iteFst ?_ ?_
  · exact keeps_imgCtlReg _ _ hk0
  · exact keeps_imgWindowReg _ _ hk0
  · exact keeps_imgHashReg _ _ _ _ hk0
  · exact keeps_imgHashReg _ _ _ _ hk0
  iterate 10
    · exact keeps_rwl _ _ _ hk0 (Keeps.upd hk0 rfl rfl)
  exact hk0

theorem keeps_cntCtlReg {z : State} (w : Word) (s : State)  (hk0 : Keeps z s) : Keeps z (cntCtlReg w s).1 := by
  unfold cntCtlReg
  try dsimp only
  iterate 14 (try any_goals first
    | with_reducible assumption | with_reducible apply keeps_rw | with_reducible refine Keeps.ite ?_ ?_
    | with_reducible refine Keeps.iteFst ?_ ?_ | split | refine Keeps.upd ?_ rfl rfl)

theorem keeps_writeCounters {z : State} (a : ℕ) (w : Word) (s : State)  (hk0 : Keeps z s) : Keeps z (writeCounters a w s).1 := by
  unfold writeCounters
  try dsimp only
  iterate 14 (try any_goals first
    | with_reducible assumption | with_reducible apply keeps_cntCtlReg | with_reducible apply keeps_rw
    | with_reducible refine Keeps.ite ?_ ?_ | with_reducible refine Keeps.iteFst ?_ ?_ | split
    | refine Keeps.upd ?_ rfl rfl)

theorem keeps_writeErrors {z : State} (a : ℕ) (w : Word) (s : State)  (hk0 : Keeps z s) : Keeps z (writeErrors a w s).1 := by
  unfold writeErrors
  try dsimp only
  iterate 14 (try any_goals first
    | with_reducible assumption | with_reducible apply keeps_rw | with_reducible apply keeps_rwl
    | with_reducible refine Keeps.ite ?_ ?_ | with_reducible refine Keeps.iteFst ?_ ?_ | split
    | refine Keeps.upd ?_ rfl rfl)

theorem keeps_routeOp {z : State} (x : Option (ℕ × Word)) (s : State)  (hk0 : Keeps z s) : Keeps z (routeOp x s) := by
  unfold routeOp
  try dsimp only
  iterate 14 (try any_goals first
    | with_reducible assumption | with_reducible apply keeps_flushRoutes
    | with_reducible refine Keeps.ite ?_ ?_ | split | refine Keeps.upd ?_ rfl rfl)

theorem keeps_routeDataReg {z : State} (w : Word) (s : State)  (hk0 : Keeps z s) : Keeps z (routeDataReg w s).1 := by
  unfold routeDataReg
  try dsimp only
  iterate 14 (try any_goals first
    | with_reducible assumption | with_reducible apply keeps_routeOp | with_reducible apply keeps_rw
    | refine Keeps.upd ?_ rfl rfl)

theorem keeps_writeFabric {z : State} (a : ℕ) (w : Word) (s : State)  (hk0 : Keeps z s) : Keeps z (writeFabric a w s).1 := by
  unfold writeFabric
  try dsimp only
  iterate 14 (try any_goals first
    | with_reducible assumption | with_reducible apply keeps_rw | with_reducible apply keeps_routeDataReg
    | with_reducible apply keeps_routeOp | with_reducible refine Keeps.ite ?_ ?_
    | with_reducible refine Keeps.iteFst ?_ ?_ | split | refine Keeps.upd ?_ rfl rfl)

theorem keeps_ckptBusy {z : State} (s : State) (bad : Bool) (t : State)  (hk0 : Keeps z s) (hk1 : Keeps z t) : Keeps z (ckptBusy s bad t).1 := by
  unfold ckptBusy
  try dsimp only
  iterate 14 (try any_goals first
    | with_reducible assumption | with_reducible refine Keeps.ite ?_ ?_
    | with_reducible refine Keeps.iteFst ?_ ?_ | split)

theorem keeps_armReg {z : State} (arm : Bool) (s : State)  (hk0 : Keeps z s) : Keeps z (armReg arm s) := by
  unfold armReg
  try dsimp only
  iterate 14 (try any_goals first
    | with_reducible assumption | with_reducible apply keeps_armStart | with_reducible refine Keeps.ite ?_ ?_
    | split | refine Keeps.upd ?_ rfl rfl)

theorem keeps_ckptCtlReg {z : State} (w : Word) (s : State)  (hk0 : Keeps z s) : Keeps z (ckptCtlReg w s).1 := by
  unfold ckptCtlReg
  try dsimp only
  iterate 14 (try any_goals first
    | with_reducible assumption | with_reducible apply keeps_armReg | with_reducible apply keeps_restoreStart
    | with_reducible refine Keeps.ite ?_ ?_ | with_reducible refine Keeps.iteFst ?_ ?_ | split
    | refine Keeps.upd ?_ rfl rfl)

theorem keeps_writeCkpt {z : State} (a : ℕ) (w : Word) (s : State)  (hk0 : Keeps z s) : Keeps z (writeCkpt a w s).1 := by
  unfold writeCkpt
  try dsimp only
  iterate 14 (try any_goals first
    | with_reducible assumption | with_reducible apply keeps_ckptBusy | with_reducible apply keeps_rwl
    | with_reducible apply keeps_ckptCtlReg | with_reducible refine Keeps.ite ?_ ?_
    | with_reducible refine Keeps.iteFst ?_ ?_ | split | refine Keeps.upd ?_ rfl rfl)

theorem keeps_selfTestReg {z : State} (w : Word) (s : State)  (hk0 : Keeps z s) : Keeps z (selfTestReg w s).1 := by
  unfold selfTestReg
  try dsimp only
  iterate 14 (try any_goals first
    | with_reducible assumption | with_reducible refine Keeps.ite ?_ ?_
    | with_reducible refine Keeps.iteFst ?_ ?_ | split | refine Keeps.upd ?_ rfl rfl)

theorem keeps_patchCtlReg {z : State} (w : Word) (s : State)  (hk0 : Keeps z s) : Keeps z (patchCtlReg w s).1 := by
  unfold patchCtlReg
  try dsimp only
  iterate 14 (try any_goals first
    | with_reducible assumption | with_reducible apply keeps_freshBits | with_reducible refine Keeps.fst ‹_› ?_
    | with_reducible refine Keeps.snd ‹_› ?_ | with_reducible refine Keeps.mid ‹_› ?_
    | with_reducible refine Keeps.third ‹_› ?_ | with_reducible refine Keeps.thirdLast ‹_› ?_
    | with_reducible refine Keeps.ite ?_ ?_ | with_reducible refine Keeps.iteFst ?_ ?_ | split
    | refine Keeps.upd ?_ rfl rfl)

theorem keeps_patchWindowReg {z : State} (w : Word) (s : State)  (hk0 : Keeps z s) : Keeps z (patchWindowReg w s).1 := by
  unfold patchWindowReg
  try dsimp only
  iterate 14 (try any_goals first
    | with_reducible assumption | with_reducible refine Keeps.ite ?_ ?_
    | with_reducible refine Keeps.iteFst ?_ ?_ | split | refine Keeps.upd ?_ rfl rfl)

theorem keeps_writeTest {z : State} (a : ℕ) (w : Word) (s : State)  (hk0 : Keeps z s) : Keeps z (writeTest a w s).1 := by
  unfold writeTest
  try dsimp only
  iterate 14 (try any_goals first
    | with_reducible assumption | with_reducible apply keeps_selfTestReg | with_reducible apply keeps_rw
    | with_reducible apply keeps_patchCtlReg | with_reducible apply keeps_patchWindowReg
    | with_reducible refine Keeps.ite ?_ ?_ | with_reducible refine Keeps.iteFst ?_ ?_ | split
    | refine Keeps.upd ?_ rfl rfl)

theorem keeps_regWrite {z : State} (a : ℕ) (w : Word) (s : State)  (hk0 : Keeps z s) : Keeps z (regWrite a w s).1 := by
  unfold regWrite
  try dsimp only
  iterate 14 (try any_goals first
    | with_reducible assumption | with_reducible apply keeps_writeOwn | with_reducible apply keeps_writePower
    | with_reducible apply keeps_writeImage | with_reducible apply keeps_writeCounters
    | with_reducible apply keeps_writeErrors | with_reducible apply keeps_writeFabric
    | with_reducible apply keeps_writeCkpt | with_reducible apply keeps_writeTest
    | with_reducible refine Keeps.fst ‹_› ?_ | with_reducible refine Keeps.snd ‹_› ?_
    | with_reducible refine Keeps.mid ‹_› ?_ | with_reducible refine Keeps.third ‹_› ?_
    | with_reducible refine Keeps.thirdLast ‹_› ?_ | with_reducible refine Keeps.ite ?_ ?_
    | with_reducible refine Keeps.iteFst ?_ ?_ | split | refine Keeps.upd ?_ rfl rfl)

theorem keeps_execPatchCheckComplete {z : State} (s : State)  (hk0 : Keeps z s) : KeepsOut z (execPatchCheckComplete s) := by
  unfold execPatchCheckComplete
  try dsimp only
  iterate 14 (try any_goals first
    | with_reducible assumption | with_reducible refine KeepsOut.next ?_
    | with_reducible refine Keeps.ite ?_ ?_ | split | refine Keeps.upd ?_ rfl rfl)

theorem keeps_execRouteCopyComplete {z : State} (s : State)  (hk0 : Keeps z s) : KeepsOut z (execRouteCopyComplete s) := by
  unfold execRouteCopyComplete
  try dsimp only
  iterate 14 (try any_goals first
    | with_reducible assumption | with_reducible apply keeps_critReads | with_reducible apply keeps_flushRoutes
    | with_reducible exact fun _ _ h => h | with_reducible refine KeepsOut.next ?_
    | with_reducible refine Keeps.fst ‹_› ?_ | with_reducible refine Keeps.snd ‹_› ?_
    | with_reducible refine Keeps.mid ‹_› ?_ | with_reducible refine Keeps.third ‹_› ?_
    | with_reducible refine Keeps.thirdLast ‹_› ?_ | with_reducible refine Keeps.ite ?_ ?_ | split
    | refine Keeps.upd ?_ rfl rfl)

theorem keeps_drive {z : State} (f : Frame) (s : State)  (hk0 : Keeps z s) : Keeps z (drive f s) := by
  unfold drive
  try dsimp only
  iterate 14 (try any_goals first
    | with_reducible assumption | with_reducible apply keeps_bump | refine Keeps.upd ?_ rfl rfl)

theorem keeps_driveOwn {z : State} (dst : Byte) (typ : Byte) (payload : List Byte) (s : State)  (hk0 : Keeps z s) : Keeps z (driveOwn dst typ payload s) := by
  unfold driveOwn
  try dsimp only
  iterate 14 (try any_goals first
    | with_reducible assumption | with_reducible apply keeps_freshBits | with_reducible apply keeps_drive
    | with_reducible refine Keeps.fst ‹_› ?_ | with_reducible refine Keeps.snd ‹_› ?_
    | with_reducible refine Keeps.mid ‹_› ?_ | with_reducible refine Keeps.third ‹_› ?_
    | with_reducible refine Keeps.thirdLast ‹_› ?_ | split)

theorem keeps_announce {z : State} (s : State)  (hk0 : Keeps z s) : Keeps z (announce s) := by
  unfold announce
  try dsimp only
  iterate 14 (try any_goals first
    | with_reducible assumption | with_reducible apply keeps_driveOwn)

theorem keeps_readWords {z : State} (f : Frame) (x1 : ℕ) (x2 : ℕ) (x3 : State)  (hk0 : Keeps z x3) : Keeps z (readWords f x1 x2 x3).2 := by
  induction x1 generalizing x2 x3 with
  | zero => exact hk0
  | succ n ih => exact ih _ _ (keeps_readEffect _ _ hk0)

theorem keeps_doRead {z : State} (f : Frame) (s : State)  (hk0 : Keeps z s) : Keeps z (doRead f s).2 := by
  unfold doRead
  try dsimp only
  iterate 14 (try any_goals first
    | with_reducible assumption | with_reducible apply keeps_readWords | with_reducible exact fun _ _ h => h
    | with_reducible refine Keeps.fst ‹_› ?_ | with_reducible refine Keeps.snd ‹_› ?_
    | with_reducible refine Keeps.mid ‹_› ?_ | with_reducible refine Keeps.third ‹_› ?_
    | with_reducible refine Keeps.thirdLast ‹_› ?_ | with_reducible refine Keeps.ite ?_ ?_ | split
    | refine Keeps.upd ?_ rfl rfl)

theorem keeps_writeWords {z : State} (f : Frame) (x1 : List Word) (x2 : ℕ) (x3 : State) (x4 : List (ℕ × Word))  (hk0 : Keeps z x3) : Keeps z (writeWords f x1 x2 x3 x4).1 := by
  induction x1 generalizing x2 x3 x4 with
  | nil => exact hk0
  | cons w ws ih =>
    unfold writeWords
    dsimp only
    have h := keeps_regWrite (wordAddr f x2) w x3 hk0
    split
    · exact ih _ _ _ (Keeps.fst ‹_› h)
    · exact Keeps.fst ‹_› h

theorem keeps_doWrite {z : State} (f : Frame) (s : State)  (hk0 : Keeps z s) : Keeps z (doWrite f s).2.1 := by
  unfold doWrite
  try dsimp only
  iterate 14 (try any_goals first
    | with_reducible assumption | with_reducible apply keeps_writeWords
    | with_reducible refine Keeps.fst ‹_› ?_ | with_reducible refine Keeps.snd ‹_› ?_
    | with_reducible refine Keeps.mid ‹_› ?_ | with_reducible refine Keeps.third ‹_› ?_
    | with_reducible refine Keeps.thirdLast ‹_› ?_ | with_reducible refine Keeps.ite ?_ ?_ | split
    | refine Keeps.upd ?_ rfl rfl)

theorem keeps_endOwnership {z : State} (s : State)  (hk0 : Keeps z s) : Keeps z (endOwnership s) := by
  unfold endOwnership
  try dsimp only
  iterate 14 (try any_goals first
    | with_reducible assumption | refine Keeps.upd ?_ rfl rfl)

theorem keeps_startOwnership {z : State} (c : Claim) (s : State)  (hk0 : Keeps z s) : Keeps z (startOwnership c s) := by
  unfold startOwnership
  try dsimp only
  iterate 14 (try any_goals first
    | with_reducible assumption | refine Keeps.upd ?_ rfl rfl)

theorem keeps_countDeny {z : State} (s : State)  (hk0 : Keeps z s) : Keeps z (countDeny s) := by
  unfold countDeny
  try dsimp only
  iterate 14 (try any_goals first
    | with_reducible assumption | refine Keeps.upd ?_ rfl rfl)

theorem keeps_doClaim {z : State} (e : EnrolEnt) (f : Frame) (s : State)  (hk0 : Keeps z s) : Keeps z (doClaim e f s).2 := by
  unfold doClaim
  try dsimp only
  iterate 14 (try any_goals first
    | with_reducible assumption | with_reducible apply keeps_countDeny
    | with_reducible apply keeps_startOwnership | with_reducible exact fun _ _ h => h
    | with_reducible refine Keeps.fst ‹_› ?_ | with_reducible refine Keeps.snd ‹_› ?_
    | with_reducible refine Keeps.mid ‹_› ?_ | with_reducible refine Keeps.third ‹_› ?_
    | with_reducible refine Keeps.thirdLast ‹_› ?_ | with_reducible refine Keeps.ite ?_ ?_ | split
    | refine Keeps.upd ?_ rfl rfl)

theorem keeps_doRenew {z : State} (f : Frame) (s : State)  (hk0 : Keeps z s) : Keeps z (doRenew f s).2 := by
  unfold doRenew
  try dsimp only
  iterate 14 (try any_goals first
    | with_reducible assumption | with_reducible refine Keeps.ite ?_ ?_ | split | refine Keeps.upd ?_ rfl rfl)

theorem keeps_doRelease {z : State} (f : Frame) (s : State)  (hk0 : Keeps z s) : Keeps z (doRelease f s).2 := by
  unfold doRelease
  try dsimp only
  iterate 14 (try any_goals first
    | with_reducible assumption | with_reducible apply keeps_endOwnership
    | with_reducible refine Keeps.ite ?_ ?_ | split)

theorem keeps_doIdent {z : State} (f : Frame) (s : State)  (hk0 : Keeps z s) : Keeps z (doIdent f s).2 := by
  unfold doIdent
  try dsimp only
  iterate 14 (try any_goals first
    | with_reducible assumption | with_reducible refine Keeps.ite ?_ ?_ | split)

theorem keeps_countStranger {z : State} (s : State)  (hk0 : Keeps z s) : Keeps z (countStranger s) := by
  unfold countStranger
  try dsimp only
  iterate 14 (try any_goals first
    | with_reducible assumption | with_reducible apply keeps_bump | refine Keeps.upd ?_ rfl rfl)

theorem keeps_replyFrame {z : State} (f : Frame) (r : Reply) (s : State)  (hk0 : Keeps z s) : Keeps z (replyFrame f r s) := by
  unfold replyFrame
  try dsimp only
  iterate 14 (try any_goals first
    | with_reducible assumption | with_reducible apply keeps_drive)

theorem keeps_stranger {z : State} (f : Frame) (s : State)  (hk0 : Keeps z s) : Keeps z (stranger f s) := by
  unfold stranger
  try dsimp only
  iterate 14 (try any_goals first
    | with_reducible assumption | with_reducible apply keeps_countStranger
    | with_reducible apply keeps_replyFrame | with_reducible exact fun _ _ h => h
    | with_reducible refine Keeps.fst ‹_› ?_ | with_reducible refine Keeps.snd ‹_› ?_
    | with_reducible refine Keeps.mid ‹_› ?_ | with_reducible refine Keeps.third ‹_› ?_
    | with_reducible refine Keeps.thirdLast ‹_› ?_ | with_reducible refine Keeps.ite ?_ ?_ | split
    | refine Keeps.upd ?_ rfl rfl)

theorem keeps_remember {z : State} (station : Byte) (x : Byte × Byte × Option Frame) (s : State)  (hk0 : Keeps z s) : Keeps z (remember station x s) := by
  unfold remember
  try dsimp only
  iterate 14 (try any_goals first
    | with_reducible assumption | with_reducible refine Keeps.fst ‹_› ?_
    | with_reducible refine Keeps.snd ‹_› ?_ | with_reducible refine Keeps.mid ‹_› ?_
    | with_reducible refine Keeps.third ‹_› ?_ | with_reducible refine Keeps.thirdLast ‹_› ?_ | split
    | refine Keeps.upd ?_ rfl rfl)

theorem keeps_frameEffect {z : State} (e : EnrolEnt) (f : Frame) (s : State)  (hk0 : Keeps z s) : Keeps z (frameEffect e f s).2.1 := by
  unfold frameEffect
  try dsimp only
  iterate 14 (try any_goals first
    | with_reducible assumption | with_reducible apply keeps_doIdent | with_reducible apply keeps_doRead
    | with_reducible apply keeps_doWrite | with_reducible apply keeps_doClaim
    | with_reducible apply keeps_doRenew | with_reducible apply keeps_doRelease
    | with_reducible refine Keeps.fst ‹_› ?_ | with_reducible refine Keeps.snd ‹_› ?_
    | with_reducible refine Keeps.mid ‹_› ?_ | with_reducible refine Keeps.third ‹_› ?_
    | with_reducible refine Keeps.thirdLast ‹_› ?_ | with_reducible refine Keeps.ite ?_ ?_ | split
    | refine Keeps.upd ?_ rfl rfl)

theorem keeps_serve {z : State} (act : List (ℕ × Word) → State → State) (e : EnrolEnt) (f : Frame) (s : State) (hact : ∀ a0 a1, Keeps z a1 → Keeps z (act a0 a1)) (hk0 : Keeps z s) : Keeps z (serve act e f s) := by
  unfold serve
  try dsimp only
  iterate 14 (try any_goals first
    | with_reducible assumption | with_reducible apply keeps_frameEffect
    | with_reducible apply keeps_replyFrame | with_reducible apply keeps_remember | with_reducible apply hact
    | with_reducible refine Keeps.fst ‹_› ?_ | with_reducible refine Keeps.snd ‹_› ?_
    | with_reducible refine Keeps.mid ‹_› ?_ | with_reducible refine Keeps.third ‹_› ?_
    | with_reducible refine Keeps.thirdLast ‹_› ?_ | with_reducible refine Keeps.ite ?_ ?_ | split
    | refine Keeps.upd ?_ rfl rfl)

theorem keeps_enrolled {z : State} (act : List (ℕ × Word) → State → State) (i : ℕ) (f : Frame) (s : State) (hact : ∀ a0 a1, Keeps z a1 → Keeps z (act a0 a1)) (hk0 : Keeps z s) : Keeps z (enrolled act i f s) := by
  unfold enrolled
  try dsimp only
  iterate 14 (try any_goals first
    | with_reducible assumption | with_reducible apply keeps_drive | with_reducible apply keeps_serve
    | with_reducible apply hact | with_reducible refine Keeps.fst ‹_› ?_
    | with_reducible refine Keeps.snd ‹_› ?_ | with_reducible refine Keeps.mid ‹_› ?_
    | with_reducible refine Keeps.third ‹_› ?_ | with_reducible refine Keeps.thirdLast ‹_› ?_
    | with_reducible refine Keeps.ite ?_ ?_ | split | refine Keeps.upd ?_ rfl rfl)

theorem keeps_leaseExpiry {z : State} (s : State)  (hk0 : Keeps z s) : Keeps z (leaseExpiry s) := by
  unfold leaseExpiry
  try dsimp only
  iterate 14 (try any_goals first
    | with_reducible assumption | with_reducible apply keeps_endOwnership
    | with_reducible refine Keeps.ite ?_ ?_ | split)

theorem keeps_execLeaseExpiry {z : State} (s : State)  (hk0 : Keeps z s) : KeepsOut z (execLeaseExpiry s) := by
  unfold execLeaseExpiry
  try dsimp only
  iterate 14 (try any_goals first
    | with_reducible assumption | with_reducible apply keeps_leaseExpiry
    | with_reducible refine KeepsOut.next ?_)

theorem keeps_handoverExpiry {z : State} (s : State)  (hk0 : Keeps z s) : Keeps z (handoverExpiry s) := by
  unfold handoverExpiry
  try dsimp only
  iterate 14 (try any_goals first
    | with_reducible assumption | with_reducible refine Keeps.ite ?_ ?_ | split | refine Keeps.upd ?_ rfl rfl)

theorem keeps_execHandoverWindowExpiry {z : State} (s : State)  (hk0 : Keeps z s) : KeepsOut z (execHandoverWindowExpiry s) := by
  unfold execHandoverWindowExpiry
  try dsimp only
  iterate 14 (try any_goals first
    | with_reducible assumption | with_reducible apply keeps_handoverExpiry
    | with_reducible refine KeepsOut.next ?_)

theorem keeps_closeReply {z : State} (w : Claim) (c : Claim) (s : State)  (hk0 : Keeps z s) : Keeps z (closeReply w c s) := by
  unfold closeReply
  try dsimp only
  iterate 14 (try any_goals first
    | with_reducible assumption | with_reducible apply keeps_drive | with_reducible apply keeps_remember
    | with_reducible apply keeps_countDeny | with_reducible refine Keeps.fst ‹_› ?_
    | with_reducible refine Keeps.snd ‹_› ?_ | with_reducible refine Keeps.mid ‹_› ?_
    | with_reducible refine Keeps.third ‹_› ?_ | with_reducible refine Keeps.thirdLast ‹_› ?_
    | with_reducible refine Keeps.ite ?_ ?_ | split | refine Keeps.upd ?_ rfl rfl)

theorem keeps_windowClose {z : State} (s : State)  (hk0 : Keeps z s) : Keeps z (windowClose s) := by
  unfold windowClose
  try dsimp only
  iterate 14 (try any_goals first
    | with_reducible assumption | with_reducible apply keeps_startOwnership
    | with_reducible apply keeps_closeReply | with_reducible exact fun _ _ h => h
    | with_reducible refine Keeps.foldl (fun _ _ _ => ?_) _ ?_
    | with_reducible refine Keeps.foldlFst (fun _ _ _ => ?_) _ ?_
    | with_reducible refine Keeps.foldlSnd (fun _ _ _ => ?_) _ ?_ | with_reducible refine Keeps.fst ‹_› ?_
    | with_reducible refine Keeps.snd ‹_› ?_ | with_reducible refine Keeps.mid ‹_› ?_
    | with_reducible refine Keeps.third ‹_› ?_ | with_reducible refine Keeps.thirdLast ‹_› ?_ | split
    | refine Keeps.upd ?_ rfl rfl)

theorem keeps_execElectionWindowClose {z : State} (s : State)  (hk0 : Keeps z s) : KeepsOut z (execElectionWindowClose s) := by
  unfold execElectionWindowClose
  try dsimp only
  iterate 14 (try any_goals first
    | with_reducible assumption | with_reducible apply keeps_windowClose
    | with_reducible refine KeepsOut.next ?_)

theorem keeps_serveFrame {z : State} (act : List (ℕ × Word) → State → State) (f : Frame) (s : State) (hact : ∀ a0 a1, Keeps z a1 → Keeps z (act a0 a1)) (hk0 : Keeps z s) : Keeps z (serveFrame act f s) := by
  unfold serveFrame
  try dsimp only
  iterate 14 (try any_goals first
    | with_reducible assumption | with_reducible apply keeps_enrolled | with_reducible apply keeps_stranger
    | with_reducible apply hact | with_reducible refine Keeps.fst ‹_› ?_
    | with_reducible refine Keeps.snd ‹_› ?_ | with_reducible refine Keeps.mid ‹_› ?_
    | with_reducible refine Keeps.third ‹_› ?_ | with_reducible refine Keeps.thirdLast ‹_› ?_ | split
    | refine Keeps.upd ?_ rfl rfl)

theorem keeps_serveFrames {z : State} (act : List (ℕ × Word) → State → State) (x1 : ℕ) (x2 : State) (hact : ∀ a0 a1, Keeps z a1 → Keeps z (act a0 a1)) (hk0 : Keeps z x2) : Keeps z (serveFrames act x1 x2) := by
  induction x1 generalizing x2 with
  | zero => exact hk0
  | succ n ih =>
    unfold serveFrames
    split
    · exact hk0
    · split
      · exact ih _ (keeps_serveFrame _ _ _ hact (Keeps.upd hk0 rfl rfl))
      · exact hk0

theorem keeps_edgeActions {z : State} (s : State)  (hk0 : Keeps z s) : Keeps z (edgeActions s) := by
  unfold edgeActions
  try dsimp only
  iterate 14 (try any_goals first
    | with_reducible assumption | with_reducible apply keeps_windowClose
    | with_reducible apply keeps_handoverExpiry | with_reducible apply keeps_leaseExpiry)

theorem keeps_takeFrame {z : State} (act : List (ℕ × Word) → State → State) (f : Frame) (s : State) (hact : ∀ a0 a1, Keeps z a1 → Keeps z (act a0 a1)) (hk0 : Keeps z s) : Keeps z (takeFrame act f s) := by
  unfold takeFrame
  try dsimp only
  iterate 14 (try any_goals first
    | with_reducible assumption | with_reducible apply keeps_edgeActions | with_reducible apply keeps_bump
    | with_reducible apply keeps_serveFrames | with_reducible apply hact | with_reducible exact fun _ _ h => h
    | with_reducible refine Keeps.ite ?_ ?_ | split | refine Keeps.upd ?_ rfl rfl)

theorem keeps_drawSlots {z : State} (n : ℕ) (s : State)  (hk0 : Keeps z s) : Keeps z (drawSlots n s).2 := by
  unfold drawSlots
  try dsimp only
  iterate 14 (try any_goals first
    | with_reducible assumption | with_reducible apply keeps_freshNat | with_reducible refine Keeps.fst ‹_› ?_
    | with_reducible refine Keeps.snd ‹_› ?_ | with_reducible refine Keeps.mid ‹_› ?_
    | with_reducible refine Keeps.third ‹_› ?_ | with_reducible refine Keeps.thirdLast ‹_› ?_ | split)

theorem keeps_backoff {z : State} (f : Frame) (n : ℕ) (s : State)  (hk0 : Keeps z s) : Keeps z (backoff f n s) := by
  unfold backoff
  try dsimp only
  iterate 14 (try any_goals first
    | with_reducible assumption | with_reducible apply keeps_drawSlots | with_reducible refine Keeps.fst ‹_› ?_
    | with_reducible refine Keeps.snd ‹_› ?_ | with_reducible refine Keeps.mid ‹_› ?_
    | with_reducible refine Keeps.third ‹_› ?_ | with_reducible refine Keeps.thirdLast ‹_› ?_
    | with_reducible refine Keeps.ite ?_ ?_ | split | refine Keeps.upd ?_ rfl rfl)

theorem keeps_collide {z : State} (i : ℕ) (s : State)  (hk0 : Keeps z s) : Keeps z (collide i s) := by
  unfold collide
  try dsimp only
  iterate 14 (try any_goals first
    | with_reducible assumption | with_reducible apply keeps_backoff | with_reducible apply keeps_bump
    | with_reducible exact fun _ _ h => h | with_reducible refine Keeps.fst ‹_› ?_
    | with_reducible refine Keeps.snd ‹_› ?_ | with_reducible refine Keeps.mid ‹_› ?_
    | with_reducible refine Keeps.third ‹_› ?_ | with_reducible refine Keeps.thirdLast ‹_› ?_ | split
    | refine Keeps.upd ?_ rfl rfl)

theorem keeps_execSidebandCollision {z : State} (s : State)  (hk0 : Keeps z s) : KeepsOut z (execSidebandCollision s) := by
  unfold execSidebandCollision
  try dsimp only
  iterate 14 (try any_goals first
    | with_reducible assumption | with_reducible apply keeps_freshNat | with_reducible apply keeps_collide
    | with_reducible refine KeepsOut.next ?_ | with_reducible refine Keeps.fst ‹_› ?_
    | with_reducible refine Keeps.snd ‹_› ?_ | with_reducible refine Keeps.mid ‹_› ?_
    | with_reducible refine Keeps.third ‹_› ?_ | with_reducible refine Keeps.thirdLast ‹_› ?_
    | with_reducible refine Keeps.ite ?_ ?_ | split)

theorem keeps_execSidebandBackoffExpiry {z : State} (s : State)  (hk0 : Keeps z s) : KeepsOut z (execSidebandBackoffExpiry s) := by
  unfold execSidebandBackoffExpiry
  try dsimp only
  iterate 14 (try any_goals first
    | with_reducible assumption | with_reducible exact fun _ _ h => h | with_reducible refine KeepsOut.next ?_
    | with_reducible refine Keeps.fst ‹_› ?_ | with_reducible refine Keeps.snd ‹_› ?_
    | with_reducible refine Keeps.mid ‹_› ?_ | with_reducible refine Keeps.third ‹_› ?_
    | with_reducible refine Keeps.thirdLast ‹_› ?_ | with_reducible refine Keeps.ite ?_ ?_ | split
    | refine Keeps.upd ?_ rfl rfl)

theorem keeps_execAlert {z : State} (s : State)  (hk0 : Keeps z s) : KeepsOut z (execAlert s) := by
  unfold execAlert
  try dsimp only
  iterate 14 (try any_goals first
    | with_reducible assumption | with_reducible apply keeps_driveOwn | with_reducible refine KeepsOut.next ?_
    | with_reducible refine Keeps.ite ?_ ?_ | split | refine Keeps.upd ?_ rfl rfl)

theorem keeps_execEvent {z : State} (s : State)  (hk0 : Keeps z s) : KeepsOut z (execEvent s) := by
  unfold execEvent
  try dsimp only
  iterate 14 (try any_goals first
    | with_reducible assumption | with_reducible apply keeps_bump | with_reducible apply keeps_driveOwn
    | with_reducible refine KeepsOut.next ?_ | with_reducible refine Keeps.ite ?_ ?_ | split
    | refine Keeps.upd ?_ rfl rfl)

theorem keeps_execPorAssert {z : State} (s : State)  (hk0 : Keeps z s) : KeepsOut z (execPorAssert s) := by
  unfold execPorAssert
  try dsimp only
  iterate 14 (try any_goals first
    | with_reducible assumption | with_reducible apply keeps_assertReset
    | with_reducible refine KeepsOut.next ?_ | refine Keeps.upd ?_ rfl rfl)

theorem keeps_execPorRelease {z : State} (straps : Straps) (s : State)  (hk0 : Keeps z s) : KeepsOut z (execPorRelease straps s) := by
  unfold execPorRelease
  try dsimp only
  iterate 14 (try any_goals first
    | with_reducible assumption | with_reducible apply keeps_releaseWhere | with_reducible exact fun _ _ h => h
    | with_reducible refine KeepsOut.next ?_ | with_reducible refine Keeps.ite ?_ ?_ | split
    | refine Keeps.upd ?_ rfl rfl)

theorem keeps_execChipRstAssert {z : State} (s : State)  (hk0 : Keeps z s) : KeepsOut z (execChipRstAssert s) := by
  unfold execChipRstAssert
  try dsimp only
  iterate 14 (try any_goals first
    | with_reducible assumption | with_reducible apply keeps_assertReset
    | with_reducible refine KeepsOut.next ?_ | refine Keeps.upd ?_ rfl rfl)

theorem keeps_execChipRstRelease {z : State} (s : State)  (hk0 : Keeps z s) : KeepsOut z (execChipRstRelease s) := by
  unfold execChipRstRelease
  try dsimp only
  iterate 14 (try any_goals first
    | with_reducible assumption | with_reducible apply keeps_releaseWhere | with_reducible exact fun _ _ h => h
    | with_reducible refine KeepsOut.next ?_ | with_reducible refine Keeps.ite ?_ ?_ | split
    | refine Keeps.upd ?_ rfl rfl)

theorem keeps_execBrownOut {z : State} (s : State)  (hk0 : Keeps z s) : KeepsOut z (execBrownOut s) := by
  unfold execBrownOut
  try dsimp only
  iterate 14 (try any_goals first
    | with_reducible assumption | with_reducible apply keeps_assertReset
    | with_reducible refine KeepsOut.next ?_ | refine Keeps.upd ?_ rfl rfl)

theorem keeps_execBrownOutRelease {z : State} (s : State)  (hk0 : Keeps z s) : KeepsOut z (execBrownOutRelease s) := by
  unfold execBrownOutRelease
  try dsimp only
  iterate 14 (try any_goals first
    | with_reducible assumption | with_reducible apply keeps_releaseWhere | with_reducible exact fun _ _ h => h
    | with_reducible refine KeepsOut.next ?_)

theorem keeps_execInternalResetRelease {z : State} (bit : BitVec 4) (s : State)  (hk0 : Keeps z s) : KeepsOut z (execInternalResetRelease bit s) := by
  unfold execInternalResetRelease
  try dsimp only
  iterate 14 (try any_goals first
    | with_reducible assumption | with_reducible apply keeps_releaseWhere | with_reducible exact fun _ _ h => h
    | with_reducible refine KeepsOut.next ?_ | with_reducible exact KeepsOut.fault
    | with_reducible refine Keeps.ite ?_ ?_ | split)

theorem keeps_execMgcWatchdogExpiry {z : State} (s : State)  (hk0 : Keeps z s) : KeepsOut z (execMgcWatchdogExpiry s) := by
  unfold execMgcWatchdogExpiry
  try dsimp only
  iterate 14 (try any_goals first
    | with_reducible assumption | with_reducible apply keeps_assertReset
    | with_reducible refine KeepsOut.next ?_ | with_reducible refine Keeps.ite ?_ ?_ | split)

theorem keeps_execDebugReset {z : State} (reach : BitVec 2) (s : State)  (hk0 : Keeps z s) : KeepsOut z (execDebugReset reach s) := by
  unfold execDebugReset
  try dsimp only
  iterate 14 (try any_goals first
    | with_reducible assumption | with_reducible apply keeps_assertReset
    | with_reducible refine KeepsOut.next ?_ | with_reducible refine Keeps.ite ?_ ?_ | split
    | refine Keeps.upd ?_ rfl rfl)

theorem keeps_execDebugResetRelease {z : State} (s : State)  (hk0 : Keeps z s) : KeepsOut z (execDebugResetRelease s) := by
  unfold execDebugResetRelease
  try dsimp only
  iterate 14 (try any_goals first
    | with_reducible assumption | with_reducible apply keeps_releaseWhere | with_reducible exact fun _ _ h => h
    | with_reducible refine KeepsOut.next ?_ | with_reducible refine Keeps.ite ?_ ?_ | split
    | refine Keeps.upd ?_ rfl rfl)

theorem keeps_trimPass {z : State} (ws : List Word) (s : State)  (hk0 : Keeps z s) : Keeps z (trimPass ws s) := by
  unfold trimPass
  try dsimp only
  iterate 14 (try any_goals first
    | with_reducible assumption | with_reducible refine Keeps.foldl (fun _ _ _ => ?_) _ ?_
    | with_reducible refine Keeps.foldlFst (fun _ _ _ => ?_) _ ?_
    | with_reducible refine Keeps.foldlSnd (fun _ _ _ => ?_) _ ?_ | with_reducible refine Keeps.fst ‹_› ?_
    | with_reducible refine Keeps.snd ‹_› ?_ | with_reducible refine Keeps.mid ‹_› ?_
    | with_reducible refine Keeps.third ‹_› ?_ | with_reducible refine Keeps.thirdLast ‹_› ?_ | split
    | refine Keeps.upd ?_ rfl rfl)

theorem keeps_trimFail {z : State} (cause : ℕ) (s : State)  (hk0 : Keeps z s) : Keeps z (trimFail cause s) := by
  unfold trimFail
  try dsimp only
  iterate 14 (try any_goals first
    | with_reducible assumption | with_reducible refine Keeps.ite ?_ ?_ | split | refine Keeps.upd ?_ rfl rfl)

theorem keeps_execFuseFrameEnd {z : State} (words : List Word) (s : State)  (hk0 : Keeps z s) : KeepsOut z (execFuseFrameEnd words s) := by
  unfold execFuseFrameEnd
  try dsimp only
  iterate 14 (try any_goals first
    | with_reducible assumption | with_reducible apply keeps_trimFail | with_reducible apply keeps_trimPass
    | with_reducible refine KeepsOut.next ?_ | with_reducible refine Keeps.ite ?_ ?_ | split)

theorem keeps_execFuseTimeout {z : State} (s : State)  (hk0 : Keeps z s) : KeepsOut z (execFuseTimeout s) := by
  unfold execFuseTimeout
  try dsimp only
  iterate 14 (try any_goals first
    | with_reducible assumption | with_reducible apply keeps_trimFail | with_reducible refine KeepsOut.next ?_
    | with_reducible refine Keeps.ite ?_ ?_ | split)

theorem keeps_execFuseRetry {z : State} (s : State)  (hk0 : Keeps z s) : KeepsOut z (execFuseRetry s) := by
  unfold execFuseRetry
  try dsimp only
  iterate 14 (try any_goals first
    | with_reducible assumption | with_reducible refine KeepsOut.next ?_
    | with_reducible refine Keeps.fst ‹_› ?_ | with_reducible refine Keeps.snd ‹_› ?_
    | with_reducible refine Keeps.mid ‹_› ?_ | with_reducible refine Keeps.third ‹_› ?_
    | with_reducible refine Keeps.thirdLast ‹_› ?_ | with_reducible refine Keeps.ite ?_ ?_ | split
    | refine Keeps.upd ?_ rfl rfl)

theorem keeps_setRelStep {z : State} (k : ℕ) (x : RstStep) (s : State)  (hk0 : Keeps z s) : Keeps z (setRelStep k x s) := by
  unfold setRelStep
  try dsimp only
  iterate 14 (try any_goals first
    | with_reducible assumption | refine Keeps.upd ?_ rfl rfl)

theorem keeps_stepBegin {z : State} (k : ℕ) (s : State)  (hk0 : Keeps z s) : Keeps z (stepBegin k s) := by
  unfold stepBegin
  try dsimp only
  iterate 14 (try any_goals first
    | with_reducible assumption | with_reducible refine Keeps.ite ?_ ?_ | split | refine Keeps.upd ?_ rfl rfl)

theorem keeps_execResetStepStart {z : State} (k : BitVec 4) (s : State)  (hk0 : Keeps z s) : KeepsOut z (execResetStepStart k s) := by
  unfold execResetStepStart
  try dsimp only
  iterate 14 (try any_goals first
    | with_reducible assumption | with_reducible apply keeps_stepBegin | with_reducible apply keeps_setRelStep
    | with_reducible refine KeepsOut.next ?_ | with_reducible exact KeepsOut.fault
    | with_reducible refine Keeps.ite ?_ ?_ | split | refine Keeps.upd ?_ rfl rfl)

theorem keeps_nullImage {z : State} (s : State)  (hk0 : Keeps z s) : Keeps z (nullImage s) := by
  unfold nullImage
  try dsimp only
  iterate 14 (try any_goals first
    | with_reducible assumption | refine Keeps.upd ?_ rfl rfl)

theorem keeps_poolStep {z : State} (s : State)  (hk0 : Keeps z s) : Keeps z (poolStep s) := by
  unfold poolStep
  try dsimp only
  iterate 14 (try any_goals first
    | with_reducible assumption | with_reducible apply keeps_poolKeep | with_reducible exact fun _ _ h => h
    | with_reducible refine Keeps.ite ?_ ?_ | split | refine Keeps.upd ?_ rfl rfl)

theorem keeps_linkStep {z : State} (s : State)  (hk0 : Keeps z s) : Keeps z (linkStep s) := by
  unfold linkStep
  try dsimp only
  iterate 14 (try any_goals first
    | with_reducible assumption | with_reducible refine Keeps.ite ?_ ?_ | split | refine Keeps.upd ?_ rfl rfl)

theorem keeps_engineStep {z : State} (s : State)  (hk0 : Keeps z s) : Keeps z (engineStep s) := by
  unfold engineStep
  try dsimp only
  iterate 14 (try any_goals first
    | with_reducible assumption | with_reducible apply keeps_announce | with_reducible refine Keeps.ite ?_ ?_
    | split | refine Keeps.upd ?_ rfl rfl)

theorem keeps_stepEnd {z : State} (k : ℕ) (s : State)  (hk0 : Keeps z s) : Keeps z (stepEnd k s) := by
  unfold stepEnd
  try dsimp only
  iterate 14 (try any_goals first
    | with_reducible assumption | with_reducible apply keeps_announce | with_reducible apply keeps_nullImage
    | with_reducible apply keeps_poolStep | with_reducible apply keeps_linkStep
    | with_reducible apply keeps_retarget | with_reducible apply keeps_engineStep
    | with_reducible refine Keeps.fst ‹_› ?_ | with_reducible refine Keeps.snd ‹_› ?_
    | with_reducible refine Keeps.mid ‹_› ?_ | with_reducible refine Keeps.third ‹_› ?_
    | with_reducible refine Keeps.thirdLast ‹_› ?_ | with_reducible refine Keeps.ite ?_ ?_ | split
    | refine Keeps.upd ?_ rfl rfl)

theorem keeps_execResetStepComplete {z : State} (k : BitVec 4) (s : State)  (hk0 : Keeps z s) : KeepsOut z (execResetStepComplete k s) := by
  unfold execResetStepComplete
  try dsimp only
  iterate 14 (try any_goals first
    | with_reducible assumption | with_reducible apply keeps_stepEnd | with_reducible apply keeps_setRelStep
    | with_reducible refine KeepsOut.next ?_ | with_reducible exact KeepsOut.fault
    | with_reducible refine Keeps.ite ?_ ?_ | split | refine Keeps.upd ?_ rfl rfl)

theorem keeps_enterSleep {z : State} (state : ℕ) (s : State)  (hk0 : Keeps z s) : Keeps z (enterSleep state s) := by
  unfold enterSleep
  try dsimp only
  iterate 14 (try any_goals first
    | with_reducible assumption | with_reducible apply keeps_clearData | with_reducible apply keeps_loseLink
    | with_reducible apply keeps_nullImage | with_reducible apply keeps_poolKeep
    | with_reducible exact fun _ _ h => h | with_reducible refine Keeps.foldl (fun _ _ _ => ?_) _ ?_
    | with_reducible refine Keeps.foldlFst (fun _ _ _ => ?_) _ ?_
    | with_reducible refine Keeps.foldlSnd (fun _ _ _ => ?_) _ ?_ | with_reducible refine Keeps.ite ?_ ?_
    | split | refine Keeps.upd ?_ rfl rfl)

theorem keeps_watchNext {z : State} (s : State)  (hk0 : Keeps z s) : Keeps z (watchNext s) := by
  unfold watchNext
  try dsimp only
  iterate 14 (try any_goals first
    | with_reducible assumption | refine Keeps.upd ?_ rfl rfl)

theorem keeps_execWatchWindow {z : State} (samples : List Bool) (frame : Option Byte) (s : State)  (hk0 : Keeps z s) : KeepsOut z (execWatchWindow samples frame s) := by
  unfold execWatchWindow
  try dsimp only
  iterate 14 (try any_goals first
    | with_reducible assumption | with_reducible apply keeps_watchNext | with_reducible apply keeps_wakePwr
    | with_reducible apply keeps_holdSteps | with_reducible refine KeepsOut.next ?_
    | with_reducible refine Keeps.ite ?_ ?_ | split | refine Keeps.upd ?_ rfl rfl)

theorem keeps_actAfter {z : State} (p : ℕ × Word) (s : State)  (hk0 : Keeps z s) : Keeps z (actAfter p s) := by
  unfold actAfter
  try dsimp only
  iterate 14 (try any_goals first
    | with_reducible assumption | with_reducible apply keeps_engineReset
    | with_reducible apply keeps_assertReset | with_reducible apply keeps_enterSleep
    | with_reducible refine Keeps.fst ‹_› ?_ | with_reducible refine Keeps.snd ‹_› ?_
    | with_reducible refine Keeps.mid ‹_› ?_ | with_reducible refine Keeps.third ‹_› ?_
    | with_reducible refine Keeps.thirdLast ‹_› ?_ | with_reducible refine Keeps.ite ?_ ?_ | split
    | refine Keeps.upd ?_ rfl rfl)

theorem keeps_afterReply {z : State} (l : List (ℕ × Word)) (s : State)  (hk0 : Keeps z s) : Keeps z (afterReply l s) := by
  unfold afterReply
  try dsimp only
  iterate 14 (try any_goals first
    | with_reducible assumption | with_reducible apply keeps_actAfter | with_reducible exact fun _ _ h => h
    | with_reducible refine Keeps.foldl (fun _ _ _ => ?_) _ ?_
    | with_reducible refine Keeps.foldlFst (fun _ _ _ => ?_) _ ?_
    | with_reducible refine Keeps.foldlSnd (fun _ _ _ => ?_) _ ?_)

theorem keeps_execSelfTestComplete {z : State} (fail : Option Byte) (s : State)  (hk0 : Keeps z s) : KeepsOut z (execSelfTestComplete fail s) := by
  unfold execSelfTestComplete
  try dsimp only
  iterate 14 (try any_goals first
    | with_reducible assumption | with_reducible apply keeps_testRestore
    | with_reducible apply keeps_assertReset | with_reducible refine KeepsOut.next ?_
    | with_reducible refine Keeps.fst ‹_› ?_ | with_reducible refine Keeps.snd ‹_› ?_
    | with_reducible refine Keeps.mid ‹_› ?_ | with_reducible refine Keeps.third ‹_› ?_
    | with_reducible refine Keeps.thirdLast ‹_› ?_ | with_reducible refine Keeps.ite ?_ ?_ | split
    | refine Keeps.upd ?_ rfl rfl)

theorem keeps_takeTemps {z : State} (logic : ℤ) (sram : ℤ) (s : State)  (hk0 : Keeps z s) : Keeps z (takeTemps logic sram s) := by
  unfold takeTemps
  try dsimp only
  iterate 14 (try any_goals first
    | with_reducible assumption | refine Keeps.upd ?_ rfl rfl)

theorem keeps_execThermWarn {z : State} (logic : ℤ) (sram : ℤ) (s : State)  (hk0 : Keeps z s) : KeepsOut z (execThermWarn logic sram s) := by
  unfold execThermWarn
  try dsimp only
  iterate 14 (try any_goals first
    | with_reducible assumption | with_reducible apply keeps_takeTemps | with_reducible refine KeepsOut.next ?_)

theorem keeps_execThermalTrip {z : State} (logic : ℤ) (sram : ℤ) (s : State)  (hk0 : Keeps z s) : KeepsOut z (execThermalTrip logic sram s) := by
  unfold execThermalTrip
  try dsimp only
  iterate 14 (try any_goals first
    | with_reducible assumption | with_reducible apply keeps_takeTemps | with_reducible apply keeps_raise
    | with_reducible refine KeepsOut.next ?_ | with_reducible refine Keeps.ite ?_ ?_ | split)

theorem keeps_frameRow {z : State} (t : Byte) (f : Frame) (s : State)  (hk0 : Keeps z s) : KeepsOut z (frameRow t f s) := by
  unfold frameRow
  try dsimp only
  iterate 14 (try any_goals first
    | with_reducible assumption | with_reducible apply keeps_takeFrame | with_reducible apply keeps_afterReply
    | with_reducible refine KeepsOut.next ?_ | with_reducible refine Keeps.ite ?_ ?_ | split)

theorem keeps_execHello {z : State} (f : Frame) (s : State)  (hk0 : Keeps z s) : KeepsOut z (execHello f s) := by
  unfold execHello
  try dsimp only
  iterate 14 (try any_goals first
    | with_reducible assumption | with_reducible apply keeps_frameRow | with_reducible refine KeepsOut.next ?_)

theorem keeps_execDiscover {z : State} (f : Frame) (s : State)  (hk0 : Keeps z s) : KeepsOut z (execDiscover f s) := by
  unfold execDiscover
  try dsimp only
  iterate 14 (try any_goals first
    | with_reducible assumption | with_reducible apply keeps_frameRow | with_reducible refine KeepsOut.next ?_)

theorem keeps_execRead {z : State} (f : Frame) (s : State)  (hk0 : Keeps z s) : KeepsOut z (execRead f s) := by
  unfold execRead
  try dsimp only
  iterate 14 (try any_goals first
    | with_reducible assumption | with_reducible apply keeps_frameRow | with_reducible refine KeepsOut.next ?_)

theorem keeps_execWrite {z : State} (f : Frame) (s : State)  (hk0 : Keeps z s) : KeepsOut z (execWrite f s) := by
  unfold execWrite
  try dsimp only
  iterate 14 (try any_goals first
    | with_reducible assumption | with_reducible apply keeps_frameRow | with_reducible refine KeepsOut.next ?_)

theorem keeps_execClaim {z : State} (f : Frame) (s : State)  (hk0 : Keeps z s) : KeepsOut z (execClaim f s) := by
  unfold execClaim
  try dsimp only
  iterate 14 (try any_goals first
    | with_reducible assumption | with_reducible apply keeps_frameRow | with_reducible refine KeepsOut.next ?_)

theorem keeps_execRenew {z : State} (f : Frame) (s : State)  (hk0 : Keeps z s) : KeepsOut z (execRenew f s) := by
  unfold execRenew
  try dsimp only
  iterate 14 (try any_goals first
    | with_reducible assumption | with_reducible apply keeps_frameRow | with_reducible refine KeepsOut.next ?_)

theorem keeps_execRelease {z : State} (f : Frame) (s : State)  (hk0 : Keeps z s) : KeepsOut z (execRelease f s) := by
  unfold execRelease
  try dsimp only
  iterate 14 (try any_goals first
    | with_reducible assumption | with_reducible apply keeps_frameRow | with_reducible refine KeepsOut.next ?_)

theorem keeps_execWake {z : State} (f : Frame) (s : State)  (hk0 : Keeps z s) : KeepsOut z (execWake f s) := by
  unfold execWake
  try dsimp only
  iterate 14 (try any_goals first
    | with_reducible assumption | with_reducible apply keeps_frameRow | with_reducible refine KeepsOut.next ?_)

theorem keeps_execAlertAck {z : State} (f : Frame) (s : State)  (hk0 : Keeps z s) : KeepsOut z (execAlertAck f s) := by
  unfold execAlertAck
  try dsimp only
  iterate 14 (try any_goals first
    | with_reducible assumption | with_reducible apply keeps_frameRow | with_reducible refine KeepsOut.next ?_)

theorem keeps_write1 {z : State} (r : Req) (a : ℕ) (w : Word) (s : State)  (hk0 : Keeps z s) : KeepsOut z (write1 r a w s) := by
  unfold write1
  try dsimp only
  iterate 14 (try any_goals first
    | with_reducible assumption | with_reducible apply keeps_takeFrame | with_reducible apply keeps_afterReply
    | with_reducible refine KeepsOut.next ?_)

theorem keeps_read1 {z : State} (r : Req) (a : ℕ) (s : State)  (hk0 : Keeps z s) : KeepsOut z (read1 r a s) := by
  unfold read1
  try dsimp only
  iterate 14 (try any_goals first
    | with_reducible assumption | with_reducible apply keeps_takeFrame | with_reducible apply keeps_afterReply
    | with_reducible refine KeepsOut.next ?_)

theorem keeps_execRstCmdCold {z : State} (r : Req) (s : State)  (hk0 : Keeps z s) : KeepsOut z (execRstCmdCold r s) := by
  unfold execRstCmdCold
  try dsimp only
  iterate 14 (try any_goals first
    | with_reducible assumption | with_reducible apply keeps_write1 | with_reducible refine KeepsOut.next ?_)

theorem keeps_execRstCmdWarm {z : State} (r : Req) (s : State)  (hk0 : Keeps z s) : KeepsOut z (execRstCmdWarm r s) := by
  unfold execRstCmdWarm
  try dsimp only
  iterate 14 (try any_goals first
    | with_reducible assumption | with_reducible apply keeps_write1 | with_reducible refine KeepsOut.next ?_)

theorem keeps_execRstCmdData {z : State} (r : Req) (s : State)  (hk0 : Keeps z s) : KeepsOut z (execRstCmdData r s) := by
  unfold execRstCmdData
  try dsimp only
  iterate 14 (try any_goals first
    | with_reducible assumption | with_reducible apply keeps_write1 | with_reducible refine KeepsOut.next ?_)

theorem keeps_execRstCmdEngine {z : State} (r : Req) (eng : BitVec 3) (s : State)  (hk0 : Keeps z s) : KeepsOut z (execRstCmdEngine r eng s) := by
  unfold execRstCmdEngine
  try dsimp only
  iterate 14 (try any_goals first
    | with_reducible assumption | with_reducible apply keeps_write1 | with_reducible refine KeepsOut.next ?_)

theorem keeps_imgCtl {z : State} (r : Req) (slot : Bool) (cmd : ℕ) (s : State)  (hk0 : Keeps z s) : KeepsOut z (imgCtl r slot cmd s) := by
  unfold imgCtl
  try dsimp only
  iterate 14 (try any_goals first
    | with_reducible assumption | with_reducible apply keeps_write1 | with_reducible refine KeepsOut.next ?_)

theorem keeps_execImgBegin {z : State} (r : Req) (slot : Bool) (s : State)  (hk0 : Keeps z s) : KeepsOut z (execImgBegin r slot s) := by
  unfold execImgBegin
  try dsimp only
  iterate 14 (try any_goals first
    | with_reducible assumption | with_reducible apply keeps_imgCtl | with_reducible refine KeepsOut.next ?_)

theorem keeps_execImgEnd {z : State} (r : Req) (slot : Bool) (s : State)  (hk0 : Keeps z s) : KeepsOut z (execImgEnd r slot s) := by
  unfold execImgEnd
  try dsimp only
  iterate 14 (try any_goals first
    | with_reducible assumption | with_reducible apply keeps_imgCtl | with_reducible refine KeepsOut.next ?_)

theorem keeps_execImgAbort {z : State} (r : Req) (slot : Bool) (s : State)  (hk0 : Keeps z s) : KeepsOut z (execImgAbort r slot s) := by
  unfold execImgAbort
  try dsimp only
  iterate 14 (try any_goals first
    | with_reducible assumption | with_reducible apply keeps_imgCtl | with_reducible refine KeepsOut.next ?_)

theorem keeps_execActivate {z : State} (r : Req) (slot : Bool) (s : State)  (hk0 : Keeps z s) : KeepsOut z (execActivate r slot s) := by
  unfold execActivate
  try dsimp only
  iterate 14 (try any_goals first
    | with_reducible assumption | with_reducible apply keeps_imgCtl | with_reducible refine KeepsOut.next ?_)

theorem keeps_execImgWindow {z : State} (r : Req) (w : Word) (s : State)  (hk0 : Keeps z s) : KeepsOut z (execImgWindow r w s) := by
  unfold execImgWindow
  try dsimp only
  iterate 14 (try any_goals first
    | with_reducible assumption | with_reducible apply keeps_write1 | with_reducible refine KeepsOut.next ?_)

theorem keeps_execImgHashWrite {z : State} (r : Req) (slot : Bool) (i : BitVec 3) (w : Word) (s : State)  (hk0 : Keeps z s) : KeepsOut z (execImgHashWrite r slot i w s) := by
  unfold execImgHashWrite
  try dsimp only
  iterate 14 (try any_goals first
    | with_reducible assumption | with_reducible apply keeps_write1 | with_reducible refine KeepsOut.next ?_
    | with_reducible refine Keeps.ite ?_ ?_ | split)

theorem keeps_execPatchBegin {z : State} (r : Req) (s : State)  (hk0 : Keeps z s) : KeepsOut z (execPatchBegin r s) := by
  unfold execPatchBegin
  try dsimp only
  iterate 14 (try any_goals first
    | with_reducible assumption | with_reducible apply keeps_write1 | with_reducible refine KeepsOut.next ?_)

theorem keeps_execPatchEnd {z : State} (r : Req) (s : State)  (hk0 : Keeps z s) : KeepsOut z (execPatchEnd r s) := by
  unfold execPatchEnd
  try dsimp only
  iterate 14 (try any_goals first
    | with_reducible assumption | with_reducible apply keeps_write1 | with_reducible refine KeepsOut.next ?_)

theorem keeps_execPatchApply {z : State} (r : Req) (s : State)  (hk0 : Keeps z s) : KeepsOut z (execPatchApply r s) := by
  unfold execPatchApply
  try dsimp only
  iterate 14 (try any_goals first
    | with_reducible assumption | with_reducible apply keeps_write1 | with_reducible refine KeepsOut.next ?_)

theorem keeps_execPatchWindow {z : State} (r : Req) (w : Word) (s : State)  (hk0 : Keeps z s) : KeepsOut z (execPatchWindow r w s) := by
  unfold execPatchWindow
  try dsimp only
  iterate 14 (try any_goals first
    | with_reducible assumption | with_reducible apply keeps_write1 | with_reducible refine KeepsOut.next ?_)

theorem keeps_execDbgLock {z : State} (r : Req) (s : State)  (hk0 : Keeps z s) : KeepsOut z (execDbgLock r s) := by
  unfold execDbgLock
  try dsimp only
  iterate 14 (try any_goals first
    | with_reducible assumption | with_reducible apply keeps_write1 | with_reducible refine KeepsOut.next ?_)

theorem keeps_execOwnLock {z : State} (r : Req) (s : State)  (hk0 : Keeps z s) : KeepsOut z (execOwnLock r s) := by
  unfold execOwnLock
  try dsimp only
  iterate 14 (try any_goals first
    | with_reducible assumption | with_reducible apply keeps_write1 | with_reducible refine KeepsOut.next ?_)

theorem keeps_execEopenClear {z : State} (r : Req) (s : State)  (hk0 : Keeps z s) : KeepsOut z (execEopenClear r s) := by
  unfold execEopenClear
  try dsimp only
  iterate 14 (try any_goals first
    | with_reducible assumption | with_reducible apply keeps_write1 | with_reducible refine KeepsOut.next ?_)

theorem keeps_execOwnHandover {z : State} (r : Req) (succ : Byte) (s : State)  (hk0 : Keeps z s) : KeepsOut z (execOwnHandover r succ s) := by
  unfold execOwnHandover
  try dsimp only
  iterate 14 (try any_goals first
    | with_reducible assumption | with_reducible apply keeps_write1 | with_reducible refine KeepsOut.next ?_)

theorem keeps_execEnrol {z : State} (r : Req) (n : BitVec 4) (w : Word) (s : State)  (hk0 : Keeps z s) : KeepsOut z (execEnrol r n w s) := by
  unfold execEnrol
  try dsimp only
  iterate 14 (try any_goals first
    | with_reducible assumption | with_reducible apply keeps_write1 | with_reducible refine KeepsOut.next ?_)

theorem keeps_execErrFirstClear {z : State} (r : Req) (s : State)  (hk0 : Keeps z s) : KeepsOut z (execErrFirstClear r s) := by
  unfold execErrFirstClear
  try dsimp only
  iterate 14 (try any_goals first
    | with_reducible assumption | with_reducible apply keeps_write1 | with_reducible refine KeepsOut.next ?_)

theorem keeps_execStallCtlWrite {z : State} (r : Req) (w : Word) (s : State)  (hk0 : Keeps z s) : KeepsOut z (execStallCtlWrite r w s) := by
  unfold execStallCtlWrite
  try dsimp only
  iterate 14 (try any_goals first
    | with_reducible assumption | with_reducible apply keeps_write1 | with_reducible refine KeepsOut.next ?_)

theorem keeps_execRouteDataWrite {z : State} (r : Req) (w : Word) (s : State)  (hk0 : Keeps z s) : KeepsOut z (execRouteDataWrite r w s) := by
  unfold execRouteDataWrite
  try dsimp only
  iterate 14 (try any_goals first
    | with_reducible assumption | with_reducible apply keeps_write1 | with_reducible refine KeepsOut.next ?_)

theorem keeps_execRouteDataRead {z : State} (r : Req) (s : State)  (hk0 : Keeps z s) : KeepsOut z (execRouteDataRead r s) := by
  unfold execRouteDataRead
  try dsimp only
  iterate 14 (try any_goals first
    | with_reducible assumption | with_reducible apply keeps_read1 | with_reducible refine KeepsOut.next ?_)

theorem keeps_execRouteCopy {z : State} (r : Req) (s : State)  (hk0 : Keeps z s) : KeepsOut z (execRouteCopy r s) := by
  unfold execRouteCopy
  try dsimp only
  iterate 14 (try any_goals first
    | with_reducible assumption | with_reducible apply keeps_write1 | with_reducible refine KeepsOut.next ?_)

theorem keeps_execRouteCommit {z : State} (r : Req) (s : State)  (hk0 : Keeps z s) : KeepsOut z (execRouteCommit r s) := by
  unfold execRouteCommit
  try dsimp only
  iterate 14 (try any_goals first
    | with_reducible assumption | with_reducible apply keeps_write1 | with_reducible refine KeepsOut.next ?_)

theorem keeps_execCntClr {z : State} (r : Req) (s : State)  (hk0 : Keeps z s) : KeepsOut z (execCntClr r s) := by
  unfold execCntClr
  try dsimp only
  iterate 14 (try any_goals first
    | with_reducible assumption | with_reducible apply keeps_write1 | with_reducible refine KeepsOut.next ?_)

theorem keeps_execCntLoRead {z : State} (r : Req) (addr : BitVec 16) (s : State)  (hk0 : Keeps z s) : KeepsOut z (execCntLoRead r addr s) := by
  unfold execCntLoRead
  try dsimp only
  iterate 14 (try any_goals first
    | with_reducible assumption | with_reducible apply keeps_read1 | with_reducible refine KeepsOut.next ?_
    | with_reducible refine Keeps.ite ?_ ?_ | split)

theorem keeps_execEnterShallows {z : State} (r : Req) (s : State)  (hk0 : Keeps z s) : KeepsOut z (execEnterShallows r s) := by
  unfold execEnterShallows
  try dsimp only
  iterate 14 (try any_goals first
    | with_reducible assumption | with_reducible apply keeps_write1 | with_reducible refine KeepsOut.next ?_)

theorem keeps_execEnterOff {z : State} (r : Req) (s : State)  (hk0 : Keeps z s) : KeepsOut z (execEnterOff r s) := by
  unfold execEnterOff
  try dsimp only
  iterate 14 (try any_goals first
    | with_reducible assumption | with_reducible apply keeps_write1 | with_reducible refine KeepsOut.next ?_)

theorem keeps_execArmCheck {z : State} (r : Req) (w : Word) (s : State)  (hk0 : Keeps z s) : KeepsOut z (execArmCheck r w s) := by
  unfold execArmCheck
  try dsimp only
  iterate 14 (try any_goals first
    | with_reducible assumption | with_reducible apply keeps_write1 | with_reducible refine KeepsOut.next ?_
    | with_reducible refine Keeps.ite ?_ ?_ | split)

theorem keeps_execRestoreLocal {z : State} (r : Req) (w : Word) (s : State)  (hk0 : Keeps z s) : KeepsOut z (execRestoreLocal r w s) := by
  unfold execRestoreLocal
  try dsimp only
  iterate 14 (try any_goals first
    | with_reducible assumption | with_reducible apply keeps_write1 | with_reducible refine KeepsOut.next ?_
    | with_reducible refine Keeps.ite ?_ ?_ | split)

theorem keeps_execRestoreRemote {z : State} (r : Req) (w : Word) (s : State)  (hk0 : Keeps z s) : KeepsOut z (execRestoreRemote r w s) := by
  unfold execRestoreRemote
  try dsimp only
  iterate 14 (try any_goals first
    | with_reducible assumption | with_reducible apply keeps_write1 | with_reducible refine KeepsOut.next ?_
    | with_reducible refine Keeps.ite ?_ ?_ | split)

theorem keeps_execRestoreHeld {z : State} (r : Req) (w : Word) (s : State)  (hk0 : Keeps z s) : KeepsOut z (execRestoreHeld r w s) := by
  unfold execRestoreHeld
  try dsimp only
  iterate 14 (try any_goals first
    | with_reducible assumption | with_reducible apply keeps_write1 | with_reducible refine KeepsOut.next ?_
    | with_reducible refine Keeps.ite ?_ ?_ | split)

theorem keeps_stCtl {z : State} (r : Req) (queue : Bool) (cmd : ℕ) (s : State)  (hk0 : Keeps z s) : KeepsOut z (stCtl r queue cmd s) := by
  unfold stCtl
  try dsimp only
  iterate 14 (try any_goals first
    | with_reducible assumption | with_reducible apply keeps_write1 | with_reducible refine KeepsOut.next ?_)

theorem keeps_execLbist {z : State} (r : Req) (queue : Bool) (s : State)  (hk0 : Keeps z s) : KeepsOut z (execLbist r queue s) := by
  unfold execLbist
  try dsimp only
  iterate 14 (try any_goals first
    | with_reducible assumption | with_reducible apply keeps_stCtl | with_reducible refine KeepsOut.next ?_)

theorem keeps_execBufferMbist {z : State} (r : Req) (queue : Bool) (s : State)  (hk0 : Keeps z s) : KeepsOut z (execBufferMbist r queue s) := by
  unfold execBufferMbist
  try dsimp only
  iterate 14 (try any_goals first
    | with_reducible assumption | with_reducible apply keeps_stCtl | with_reducible refine KeepsOut.next ?_)

theorem keeps_execPoolMbist {z : State} (r : Req) (queue : Bool) (s : State)  (hk0 : Keeps z s) : KeepsOut z (execPoolMbist r queue s) := by
  unfold execPoolMbist
  try dsimp only
  iterate 14 (try any_goals first
    | with_reducible assumption | with_reducible apply keeps_stCtl | with_reducible refine KeepsOut.next ?_)

theorem keeps_execSelfTestAll {z : State} (r : Req) (queue : Bool) (s : State)  (hk0 : Keeps z s) : KeepsOut z (execSelfTestAll r queue s) := by
  unfold execSelfTestAll
  try dsimp only
  iterate 14 (try any_goals first
    | with_reducible assumption | with_reducible apply keeps_stCtl | with_reducible refine KeepsOut.next ?_)

theorem keeps_flood {z : State} (cs : List ℕ) (s : State)  (hk0 : Keeps z s) : Keeps z (flood cs s) := by
  unfold flood
  try dsimp only
  iterate 14 (try any_goals first
    | with_reducible assumption | with_reducible exact fun _ _ h => h | with_reducible refine Keeps.ite ?_ ?_
    | split | refine Keeps.upd ?_ rfl rfl)

theorem keeps_execStallLimitReached {z : State} (s : State)  (hk0 : Keeps z s) : KeepsOut z (execStallLimitReached s) := by
  unfold execStallLimitReached
  try dsimp only
  iterate 14 (try any_goals first
    | with_reducible assumption | with_reducible apply keeps_raise | with_reducible refine KeepsOut.next ?_
    | with_reducible refine Keeps.ite ?_ ?_ | split | refine Keeps.upd ?_ rfl rfl)

theorem keeps_stallTick {z : State} (s : State)  (hk0 : Keeps z s) : Keeps z (stallTick s) := by
  unfold stallTick
  try dsimp only
  iterate 14 (try any_goals first
    | with_reducible assumption | with_reducible refine Keeps.ite ?_ ?_ | split | refine Keeps.upd ?_ rfl rfl)

theorem keeps_tapSelect {z : State} (ir : Byte) (s : State)  (hk0 : Keeps z s) : Keeps z (tapSelect ir s) := by
  unfold tapSelect
  try dsimp only
  iterate 14 (try any_goals first
    | with_reducible assumption | refine Keeps.upd ?_ rfl rfl)

theorem keeps_tapRead {z : State} (s : State)  (hk0 : Keeps z s) : Keeps z (tapRead s) := by
  unfold tapRead
  try dsimp only
  iterate 14 (try any_goals first
    | with_reducible assumption | refine Keeps.upd ?_ rfl rfl)

theorem keeps_execTapReset {z : State} (s : State)  (hk0 : Keeps z s) : KeepsOut z (execTapReset s) := by
  unfold execTapReset
  try dsimp only
  iterate 14 (try any_goals first
    | with_reducible assumption | with_reducible refine KeepsOut.next ?_ | refine Keeps.upd ?_ rfl rfl)

theorem keeps_execIdcode {z : State} (s : State)  (hk0 : Keeps z s) : KeepsOut z (execIdcode s) := by
  unfold execIdcode
  try dsimp only
  iterate 14 (try any_goals first
    | with_reducible assumption | with_reducible apply keeps_tapRead | with_reducible apply keeps_tapSelect
    | with_reducible refine KeepsOut.next ?_)

theorem keeps_execBypass {z : State} (ir : Byte) (s : State)  (hk0 : Keeps z s) : KeepsOut z (execBypass ir s) := by
  unfold execBypass
  try dsimp only
  iterate 14 (try any_goals first
    | with_reducible assumption | with_reducible apply keeps_tapRead | with_reducible apply keeps_tapSelect
    | with_reducible refine KeepsOut.next ?_ | with_reducible refine Keeps.ite ?_ ?_ | split)

theorem keeps_blockedAccess {z : State} (s : State)  (hk0 : Keeps z s) : Keeps z (blockedAccess s) := by
  unfold blockedAccess
  try dsimp only
  iterate 14 (try any_goals first
    | with_reducible assumption | refine Keeps.upd ?_ rfl rfl)

theorem keeps_execIjtag {z : State} (access : Ijtag) (s : State)  (hk0 : Keeps z s) : KeepsOut z (execIjtag access s) := by
  unfold execIjtag
  try dsimp only
  iterate 14 (try any_goals first
    | with_reducible assumption | with_reducible apply keeps_tapSelect
    | with_reducible apply keeps_blockedAccess | with_reducible apply keeps_readEffect
    | with_reducible apply keeps_regWrite | with_reducible apply keeps_actAfter
    | with_reducible apply keeps_freshBits | with_reducible refine KeepsOut.next ?_
    | with_reducible refine Keeps.fst ‹_› ?_ | with_reducible refine Keeps.snd ‹_› ?_
    | with_reducible refine Keeps.mid ‹_› ?_ | with_reducible refine Keeps.third ‹_› ?_
    | with_reducible refine Keeps.thirdLast ‹_› ?_ | with_reducible refine Keeps.ite ?_ ?_ | split
    | refine Keeps.upd ?_ rfl rfl)

theorem keeps_setWir {z : State} (n : ℕ) (p : Option Pads) (s : State)  (hk0 : Keeps z s) : Keeps z (setWir n p s) := by
  unfold setWir
  try dsimp only
  iterate 14 (try any_goals first
    | with_reducible assumption | refine Keeps.upd ?_ rfl rfl)

theorem keeps_scanOut {z : State} (par : Bool) (s : State)  (hk0 : Keeps z s) : Keeps z (scanOut par s) := by
  unfold scanOut
  try dsimp only
  iterate 14 (try any_goals first
    | with_reducible assumption | with_reducible refine Keeps.ite ?_ ?_ | split | refine Keeps.upd ?_ rfl rfl)

theorem keeps_execWsBypass {z : State} (s : State)  (hk0 : Keeps z s) : KeepsOut z (execWsBypass s) := by
  unfold execWsBypass
  try dsimp only
  iterate 14 (try any_goals first
    | with_reducible assumption | with_reducible apply keeps_setWir | with_reducible refine KeepsOut.next ?_)

theorem keeps_execWsExtest {z : State} (s : State)  (hk0 : Keeps z s) : KeepsOut z (execWsExtest s) := by
  unfold execWsExtest
  try dsimp only
  iterate 14 (try any_goals first
    | with_reducible assumption | with_reducible apply keeps_scanOut | with_reducible apply keeps_setWir
    | with_reducible refine KeepsOut.next ?_)

theorem keeps_execWsPreload {z : State} (s : State)  (hk0 : Keeps z s) : KeepsOut z (execWsPreload s) := by
  unfold execWsPreload
  try dsimp only
  iterate 14 (try any_goals first
    | with_reducible assumption | with_reducible apply keeps_setWir | with_reducible apply keeps_scanOut
    | with_reducible refine KeepsOut.next ?_ | refine Keeps.upd ?_ rfl rfl)

theorem keeps_execWsClamp {z : State} (s : State)  (hk0 : Keeps z s) : KeepsOut z (execWsClamp s) := by
  unfold execWsClamp
  try dsimp only
  iterate 14 (try any_goals first
    | with_reducible assumption | with_reducible apply keeps_setWir | with_reducible refine KeepsOut.next ?_)

theorem keeps_execWsSafe {z : State} (s : State)  (hk0 : Keeps z s) : KeepsOut z (execWsSafe s) := by
  unfold execWsSafe
  try dsimp only
  iterate 14 (try any_goals first
    | with_reducible assumption | with_reducible apply keeps_setWir | with_reducible refine KeepsOut.next ?_)

theorem keeps_execWsIntestScan {z : State} (s : State)  (hk0 : Keeps z s) : KeepsOut z (execWsIntestScan s) := by
  unfold execWsIntestScan
  try dsimp only
  iterate 14 (try any_goals first
    | with_reducible assumption | with_reducible apply keeps_scanOut | with_reducible apply keeps_setWir
    | with_reducible refine KeepsOut.next ?_)

theorem keeps_execWpExtest {z : State} (s : State)  (hk0 : Keeps z s) : KeepsOut z (execWpExtest s) := by
  unfold execWpExtest
  try dsimp only
  iterate 14 (try any_goals first
    | with_reducible assumption | with_reducible apply keeps_scanOut | with_reducible apply keeps_setWir
    | with_reducible refine KeepsOut.next ?_)

theorem keeps_execWpIntestScan {z : State} (s : State)  (hk0 : Keeps z s) : KeepsOut z (execWpIntestScan s) := by
  unfold execWpIntestScan
  try dsimp only
  iterate 14 (try any_goals first
    | with_reducible assumption | with_reducible apply keeps_scanOut | with_reducible apply keeps_setWir
    | with_reducible refine KeepsOut.next ?_)

theorem keeps_orSame {z : State} (s : State) (x1 : Host.Outcome State Fault Refusal) (hx : KeepsOut z x1) (hk0 : Keeps z s) : Keeps z (orSame s x1) := by
  unfold orSame
  split
  · exact hx.of _ rfl
  · exact hk0

theorem keeps_tryArray {z : State} (a : Arr) (s : State)  (hk0 : Keeps z s) : Keeps z (tryArray a s) := by
  unfold tryArray
  try dsimp only
  iterate 14 (try any_goals first
    | with_reducible assumption | with_reducible refine keeps_fetchClk' ‹_› ?_
    | with_reducible apply keeps_fetchClk | with_reducible refine Keeps.fst ‹_› ?_
    | with_reducible refine Keeps.snd ‹_› ?_ | with_reducible refine Keeps.mid ‹_› ?_
    | with_reducible refine Keeps.third ‹_› ?_ | with_reducible refine Keeps.thirdLast ‹_› ?_
    | with_reducible refine Keeps.ite ?_ ?_ | split | refine Keeps.upd ?_ rfl rfl)

theorem keeps_tryEnd {z : State} (ep : ℕ) (s : State)  (hk0 : Keeps z s) : Keeps z (tryEnd ep s) := by
  unfold tryEnd
  try dsimp only
  iterate 14 (try any_goals first
    | with_reducible assumption | with_reducible apply keeps_tryArray | with_reducible apply keeps_orSame
    | with_reducible apply keeps_execVecStep | with_reducible apply keeps_rsuTick
    | with_reducible apply keeps_execGeneratorLinePop | with_reducible apply keeps_tinTick
    | with_reducible apply keeps_execGatherEntryStart | with_reducible apply keeps_acmpTick
    | with_reducible refine keeps_putAsk' ‹_› ?_ | with_reducible apply keeps_putAsk
    | with_reducible apply keeps_fabTick | with_reducible exact fun _ _ h => h
    | with_reducible refine Keeps.foldl (fun _ _ _ => ?_) _ ?_
    | with_reducible refine Keeps.foldlFst (fun _ _ _ => ?_) _ ?_
    | with_reducible refine Keeps.foldlSnd (fun _ _ _ => ?_) _ ?_ | with_reducible refine Keeps.fst ‹_› ?_
    | with_reducible refine Keeps.snd ‹_› ?_ | with_reducible refine Keeps.mid ‹_› ?_
    | with_reducible refine Keeps.third ‹_› ?_ | with_reducible refine Keeps.thirdLast ‹_› ?_
    | with_reducible refine Keeps.ite ?_ ?_ | split | refine Keeps.upd ?_ rfl rfl)

theorem keeps_preview {z : State} (ep : ℕ) (s : State)  (hk0 : Keeps z s) : Keeps z (preview ep s) := by
  unfold preview
  try dsimp only
  iterate 14 (try any_goals first
    | with_reducible assumption | with_reducible exact fun _ _ h => h | with_reducible refine Keeps.ite ?_ ?_
    | split | refine Keeps.upd ?_ rfl rfl)

theorem keeps_joinFork {z : State} (c : ℕ) (s : State)  (hk0 : Keeps z s) : Keeps z (joinFork c s) := by
  unfold joinFork
  try dsimp only
  iterate 14 (try any_goals first
    | with_reducible assumption | with_reducible apply keeps_forkPop | with_reducible refine Keeps.ite ?_ ?_
    | split)

theorem keeps_joinForks {z : State} (s : State)  (hk0 : Keeps z s) : Keeps z (joinForks s) := by
  unfold joinForks
  try dsimp only
  iterate 14 (try any_goals first
    | with_reducible assumption | with_reducible apply keeps_joinFork | with_reducible exact fun _ _ h => h
    | with_reducible refine Keeps.foldl (fun _ _ _ => ?_) _ ?_
    | with_reducible refine Keeps.foldlFst (fun _ _ _ => ?_) _ ?_
    | with_reducible refine Keeps.foldlSnd (fun _ _ _ => ?_) _ ?_)

theorem keeps_slowTick {z : State} (s : State)  (hk0 : Keeps z s) : Keeps z (slowTick s) := by
  unfold slowTick
  try dsimp only
  iterate 14 (try any_goals first
    | with_reducible assumption | with_reducible exact fun _ _ h => h | with_reducible refine Keeps.ite ?_ ?_
    | split | refine Keeps.upd ?_ rfl rfl)

theorem keeps_serveOwners {z : State} (s : State)  (hk0 : Keeps z s) : Keeps z (serveOwners s) := by
  unfold serveOwners
  try dsimp only
  iterate 14 (try any_goals first
    | with_reducible assumption | with_reducible apply keeps_serveFrame | with_reducible apply keeps_afterReply
    | with_reducible exact fun _ _ h => h | with_reducible refine Keeps.foldl (fun _ _ _ => ?_) _ ?_
    | with_reducible refine Keeps.foldlFst (fun _ _ _ => ?_) _ ?_
    | with_reducible refine Keeps.foldlSnd (fun _ _ _ => ?_) _ ?_ | refine Keeps.upd ?_ rfl rfl)

theorem keeps_calibrate {z : State} (s : State)  (hk0 : Keeps z s) : Keeps z (calibrate s) := by
  unfold calibrate
  try dsimp only
  iterate 14 (try any_goals first
    | with_reducible assumption | with_reducible refine Keeps.ite ?_ ?_ | split | refine Keeps.upd ?_ rfl rfl)

theorem keeps_refTick {z : State} (s : State)  (hk0 : Keeps z s) : Keeps z (refTick s) := by
  unfold refTick
  try dsimp only
  iterate 14 (try any_goals first
    | with_reducible assumption | with_reducible apply keeps_edgeActions | with_reducible apply keeps_slowTick
    | with_reducible apply keeps_serveOwners | with_reducible apply keeps_calibrate
    | with_reducible apply keeps_serveFrames | with_reducible apply keeps_afterReply
    | with_reducible refine Keeps.ite ?_ ?_ | split | refine Keeps.upd ?_ rfl rfl)

theorem keeps_countWaits {z : State} (s : State)  (hk0 : Keeps z s) : Keeps z (countWaits s) := by
  unfold countWaits
  try dsimp only
  iterate 14 (try any_goals first
    | with_reducible assumption | with_reducible apply keeps_bump | with_reducible exact fun _ _ h => h
    | with_reducible refine Keeps.foldl (fun _ _ _ => ?_) _ ?_
    | with_reducible refine Keeps.foldlFst (fun _ _ _ => ?_) _ ?_
    | with_reducible refine Keeps.foldlSnd (fun _ _ _ => ?_) _ ?_ | with_reducible refine Keeps.ite ?_ ?_
    | split)

theorem keeps_deferred {z : State} (s : State)  (hk0 : Keeps z s) : Keeps z (deferred s) := by
  unfold deferred
  try dsimp only
  iterate 14 (try any_goals first
    | with_reducible assumption | with_reducible exact fun _ _ h => h
    | with_reducible refine Keeps.foldl (fun _ _ _ => ?_) _ ?_
    | with_reducible refine Keeps.foldlFst (fun _ _ _ => ?_) _ ?_
    | with_reducible refine Keeps.foldlSnd (fun _ _ _ => ?_) _ ?_ | with_reducible refine Keeps.fst ‹_› ?_
    | with_reducible refine Keeps.snd ‹_› ?_ | with_reducible refine Keeps.mid ‹_› ?_
    | with_reducible refine Keeps.third ‹_› ?_ | with_reducible refine Keeps.thirdLast ‹_› ?_
    | with_reducible refine Keeps.ite ?_ ?_ | split | refine Keeps.upd ?_ rfl rfl)

theorem keeps_countClk {z : State} (s : State)  (hk0 : Keeps z s) : Keeps z (countClk s) := by
  unfold countClk
  try dsimp only
  iterate 14 (try any_goals first
    | with_reducible assumption | with_reducible apply keeps_bump | with_reducible apply keeps_countWaits
    | with_reducible apply keeps_deferred | with_reducible refine Keeps.fst ‹_› ?_
    | with_reducible refine Keeps.snd ‹_› ?_ | with_reducible refine Keeps.mid ‹_› ?_
    | with_reducible refine Keeps.third ‹_› ?_ | with_reducible refine Keeps.thirdLast ‹_› ?_
    | with_reducible refine Keeps.ite ?_ ?_ | split | refine Keeps.upd ?_ rfl rfl)

theorem keeps_landClk {z : State} (s : State)  (hk0 : Keeps z s) : Keeps z (landClk s) := by
  unfold landClk
  try dsimp only
  iterate 14 (try any_goals first
    | with_reducible assumption | with_reducible apply keeps_settle | with_reducible apply keeps_copyBegin
    | with_reducible apply keeps_landScales | with_reducible apply keeps_landCarries
    | with_reducible apply keeps_landAdds)

theorem keeps_endClk {z : State} (s : State)  (hk0 : Keeps z s) : Keeps z (endClk s) := by
  unfold endClk
  try dsimp only
  iterate 14 (try any_goals first
    | with_reducible assumption | with_reducible apply keeps_countClk | with_reducible apply keeps_arrTick
    | with_reducible apply keeps_stallTick | with_reducible refine Keeps.ite ?_ ?_ | split
    | refine Keeps.upd ?_ rfl rfl)

theorem keeps_nextClk {z : State} (s : State)  (hk0 : Keeps z s) : Keeps z (nextClk s) := by
  unfold nextClk
  try dsimp only
  iterate 14 (try any_goals first
    | with_reducible assumption | with_reducible apply keeps_retireCmd | with_reducible apply keeps_bump
    | with_reducible apply keeps_refTick | with_reducible exact fun _ _ h => h
    | with_reducible refine Keeps.ite ?_ ?_ | split | refine Keeps.upd ?_ rfl rfl)

theorem keeps_commitNow {z : State} (s : State)  (hk0 : Keeps z s) : Keeps z (commitNow s) := by
  unfold commitNow
  try dsimp only
  iterate 14 (try any_goals first
    | with_reducible assumption | with_reducible apply keeps_routeSwap | with_reducible refine Keeps.ite ?_ ?_
    | split)

theorem keeps_engineClk {z : State} (s : State)  (hk0 : Keeps z s) : Keeps z (engineClk s) := by
  unfold engineClk
  extract_lets s0 s1 s2
  have h0 : Keeps z s0 := keeps_commitNow _ (keeps_drainParked _ hk0)
  have h1 : Keeps z s1 := Keeps.ite h0 (keeps_joinForks _ h0)
  have h2 : Keeps z s2 := keeps_copyTick _ _ (keeps_copyTick _ _ (keeps_tinTick _ _ (keeps_tinTick _ _
    (keeps_wgTick _ (keeps_rgTick _ (keeps_rsuTick _ h1))))))
  exact keeps_synTick _ (keeps_fabTick _ (keeps_acmpTick _ (keeps_gatherTick _ h2)))

end Sys2Proof.Machine
end

