-- ==== Sys2Proof/Laws/PerInstr.lean ====
section
/-! SUPPORT. The per-command families of LAWS.json. NoWord: the table gives the command no bits, so no word spells it. -/

/-- No word of the table spells the command (spec/opcode_table.json gives no row bits). -/
def Sys2Proof.Laws.NoWord.Statement (i : Sys2Proof.Instr) : Prop :=
  ∀ nbits w : Nat, Sys2Proof.decodeTableWord nbits w ≠ some i

namespace Sys2Proof.Laws.NoWord

theorem springDataFlit (typ : BitVec 2) (data : BitVec 128) : Sys2Proof.Laws.NoWord.Statement (Sys2Proof.Instr.springDataFlit typ data) :=
  fun _ _ h => nomatch h
theorem loadBlock (w3 : BitVec 24) (w2 w1 w0 : Word) : Sys2Proof.Laws.NoWord.Statement (Sys2Proof.Instr.loadBlock w3 w2 w1 w0) :=
  fun _ _ h => nomatch h
theorem replay (w3 : BitVec 24) (w2 w1 w0 : Word) : Sys2Proof.Laws.NoWord.Statement (Sys2Proof.Instr.replay w3 w2 w1 w0) :=
  fun _ _ h => nomatch h
theorem descLoad (w3 : BitVec 24) (w2 w1 w0 : Word) : Sys2Proof.Laws.NoWord.Statement (Sys2Proof.Instr.descLoad w3 w2 w1 w0) :=
  fun _ _ h => nomatch h
theorem beatNo (w3 : BitVec 24) (w2 w1 w0 : Word) : Sys2Proof.Laws.NoWord.Statement (Sys2Proof.Instr.beatNo w3 w2 w1 w0) :=
  fun _ _ h => nomatch h
theorem resume (w3 : BitVec 24) (w2 w1 w0 : Word) : Sys2Proof.Laws.NoWord.Statement (Sys2Proof.Instr.resume w3 w2 w1 w0) :=
  fun _ _ h => nomatch h
theorem descLoadExecute : Sys2Proof.Laws.NoWord.Statement (Sys2Proof.Instr.descLoadExecute) :=
  fun _ _ h => nomatch h
theorem beatNoExecute : Sys2Proof.Laws.NoWord.Statement (Sys2Proof.Instr.beatNoExecute) :=
  fun _ _ h => nomatch h
theorem patchListApply : Sys2Proof.Laws.NoWord.Statement (Sys2Proof.Instr.patchListApply) :=
  fun _ _ h => nomatch h
theorem bundleIssue : Sys2Proof.Laws.NoWord.Statement (Sys2Proof.Instr.bundleIssue) :=
  fun _ _ h => nomatch h
theorem beatMark : Sys2Proof.Laws.NoWord.Statement (Sys2Proof.Instr.beatMark) :=
  fun _ _ h => nomatch h
theorem holdMark : Sys2Proof.Laws.NoWord.Statement (Sys2Proof.Instr.holdMark) :=
  fun _ _ h => nomatch h
theorem imgswMark : Sys2Proof.Laws.NoWord.Statement (Sys2Proof.Instr.imgswMark) :=
  fun _ _ h => nomatch h
theorem ckptMark : Sys2Proof.Laws.NoWord.Statement (Sys2Proof.Instr.ckptMark) :=
  fun _ _ h => nomatch h
theorem beatDue : Sys2Proof.Laws.NoWord.Statement (Sys2Proof.Instr.beatDue) :=
  fun _ _ h => nomatch h
theorem beatEdge : Sys2Proof.Laws.NoWord.Statement (Sys2Proof.Instr.beatEdge) :=
  fun _ _ h => nomatch h
theorem plTargetChange (level : BitVec 2) : Sys2Proof.Laws.NoWord.Statement (Sys2Proof.Instr.plTargetChange level) :=
  fun _ _ h => nomatch h
theorem plCommit (edge : Bool) : Sys2Proof.Laws.NoWord.Statement (Sys2Proof.Instr.plCommit edge) :=
  fun _ _ h => nomatch h
theorem plReadyRise : Sys2Proof.Laws.NoWord.Statement (Sys2Proof.Instr.plReadyRise) :=
  fun _ _ h => nomatch h
theorem pondHaltRise : Sys2Proof.Laws.NoWord.Statement (Sys2Proof.Instr.pondHaltRise) :=
  fun _ _ h => nomatch h
theorem droopAlertRise : Sys2Proof.Laws.NoWord.Statement (Sys2Proof.Instr.droopAlertRise) :=
  fun _ _ h => nomatch h
theorem droopAlertFall : Sys2Proof.Laws.NoWord.Statement (Sys2Proof.Instr.droopAlertFall) :=
  fun _ _ h => nomatch h
theorem droopWindowEnd : Sys2Proof.Laws.NoWord.Statement (Sys2Proof.Instr.droopWindowEnd) :=
  fun _ _ h => nomatch h
theorem gmiTxCredit (ch : BitVec 1) : Sys2Proof.Laws.NoWord.Statement (Sys2Proof.Instr.gmiTxCredit ch) :=
  fun _ _ h => nomatch h
theorem packetHandoff (ch : BitVec 1) : Sys2Proof.Laws.NoWord.Statement (Sys2Proof.Instr.packetHandoff ch) :=
  fun _ _ h => nomatch h
theorem putPacket (p : Pkt) : Sys2Proof.Laws.NoWord.Statement (Sys2Proof.Instr.putPacket p) :=
  fun _ _ h => nomatch h
theorem getPacket (p : Pkt) : Sys2Proof.Laws.NoWord.Statement (Sys2Proof.Instr.getPacket p) :=
  fun _ _ h => nomatch h
theorem getrPacket (p : Pkt) : Sys2Proof.Laws.NoWord.Statement (Sys2Proof.Instr.getrPacket p) :=
  fun _ _ h => nomatch h
theorem ackPacket (p : Pkt) : Sys2Proof.Laws.NoWord.Statement (Sys2Proof.Instr.ackPacket p) :=
  fun _ _ h => nomatch h
theorem nackPacket (p : Pkt) : Sys2Proof.Laws.NoWord.Statement (Sys2Proof.Instr.nackPacket p) :=
  fun _ _ h => nomatch h
theorem raccPacket (p : Pkt) : Sys2Proof.Laws.NoWord.Statement (Sys2Proof.Instr.raccPacket p) :=
  fun _ _ h => nomatch h
theorem faddPacket (p : Pkt) : Sys2Proof.Laws.NoWord.Statement (Sys2Proof.Instr.faddPacket p) :=
  fun _ _ h => nomatch h
theorem carryPacket (p : Pkt) : Sys2Proof.Laws.NoWord.Statement (Sys2Proof.Instr.carryPacket p) :=
  fun _ _ h => nomatch h
theorem rconPacket (p : Pkt) : Sys2Proof.Laws.NoWord.Statement (Sys2Proof.Instr.rconPacket p) :=
  fun _ _ h => nomatch h
theorem rresPacket (p : Pkt) : Sys2Proof.Laws.NoWord.Statement (Sys2Proof.Instr.rresPacket p) :=
  fun _ _ h => nomatch h
theorem probePacket (p : Pkt) : Sys2Proof.Laws.NoWord.Statement (Sys2Proof.Instr.probePacket p) :=
  fun _ _ h => nomatch h
theorem proberPacket (p : Pkt) : Sys2Proof.Laws.NoWord.Statement (Sys2Proof.Instr.proberPacket p) :=
  fun _ _ h => nomatch h
theorem resetPacket (p : Pkt) : Sys2Proof.Laws.NoWord.Statement (Sys2Proof.Instr.resetPacket p) :=
  fun _ _ h => nomatch h
theorem thermWarn (logic sram : Int) : Sys2Proof.Laws.NoWord.Statement (Sys2Proof.Instr.thermWarn logic sram) :=
  fun _ _ h => nomatch h
theorem thermalTrip (logic sram : Int) : Sys2Proof.Laws.NoWord.Statement (Sys2Proof.Instr.thermalTrip logic sram) :=
  fun _ _ h => nomatch h
theorem brownOut : Sys2Proof.Laws.NoWord.Statement (Sys2Proof.Instr.brownOut) :=
  fun _ _ h => nomatch h
theorem brownOutRelease : Sys2Proof.Laws.NoWord.Statement (Sys2Proof.Instr.brownOutRelease) :=
  fun _ _ h => nomatch h
theorem porAssert : Sys2Proof.Laws.NoWord.Statement (Sys2Proof.Instr.porAssert) :=
  fun _ _ h => nomatch h
theorem porRelease (straps : Straps) : Sys2Proof.Laws.NoWord.Statement (Sys2Proof.Instr.porRelease straps) :=
  fun _ _ h => nomatch h
theorem chipRstAssert : Sys2Proof.Laws.NoWord.Statement (Sys2Proof.Instr.chipRstAssert) :=
  fun _ _ h => nomatch h
theorem chipRstRelease : Sys2Proof.Laws.NoWord.Statement (Sys2Proof.Instr.chipRstRelease) :=
  fun _ _ h => nomatch h
theorem internalResetRelease (bit : BitVec 4) : Sys2Proof.Laws.NoWord.Statement (Sys2Proof.Instr.internalResetRelease bit) :=
  fun _ _ h => nomatch h
theorem resetStepStart (k : BitVec 4) : Sys2Proof.Laws.NoWord.Statement (Sys2Proof.Instr.resetStepStart k) :=
  fun _ _ h => nomatch h
theorem resetStepComplete (k : BitVec 4) : Sys2Proof.Laws.NoWord.Statement (Sys2Proof.Instr.resetStepComplete k) :=
  fun _ _ h => nomatch h
theorem fuseFrameEnd (words : List Word) : Sys2Proof.Laws.NoWord.Statement (Sys2Proof.Instr.fuseFrameEnd words) :=
  fun _ _ h => nomatch h
theorem fuseTimeout : Sys2Proof.Laws.NoWord.Statement (Sys2Proof.Instr.fuseTimeout) :=
  fun _ _ h => nomatch h
theorem fuseRetry : Sys2Proof.Laws.NoWord.Statement (Sys2Proof.Instr.fuseRetry) :=
  fun _ _ h => nomatch h
theorem tapReset : Sys2Proof.Laws.NoWord.Statement (Sys2Proof.Instr.tapReset) :=
  fun _ _ h => nomatch h
theorem idcode : Sys2Proof.Laws.NoWord.Statement (Sys2Proof.Instr.idcode) :=
  fun _ _ h => nomatch h
theorem bypass (ir : Byte) : Sys2Proof.Laws.NoWord.Statement (Sys2Proof.Instr.bypass ir) :=
  fun _ _ h => nomatch h
theorem ijtag (access : Ijtag) : Sys2Proof.Laws.NoWord.Statement (Sys2Proof.Instr.ijtag access) :=
  fun _ _ h => nomatch h
theorem debugReset (reach : BitVec 2) : Sys2Proof.Laws.NoWord.Statement (Sys2Proof.Instr.debugReset reach) :=
  fun _ _ h => nomatch h
theorem wsBypass : Sys2Proof.Laws.NoWord.Statement (Sys2Proof.Instr.wsBypass) :=
  fun _ _ h => nomatch h
theorem wsExtest : Sys2Proof.Laws.NoWord.Statement (Sys2Proof.Instr.wsExtest) :=
  fun _ _ h => nomatch h
theorem wsPreload : Sys2Proof.Laws.NoWord.Statement (Sys2Proof.Instr.wsPreload) :=
  fun _ _ h => nomatch h
theorem wsClamp : Sys2Proof.Laws.NoWord.Statement (Sys2Proof.Instr.wsClamp) :=
  fun _ _ h => nomatch h
theorem wsSafe : Sys2Proof.Laws.NoWord.Statement (Sys2Proof.Instr.wsSafe) :=
  fun _ _ h => nomatch h
theorem wsIntestScan : Sys2Proof.Laws.NoWord.Statement (Sys2Proof.Instr.wsIntestScan) :=
  fun _ _ h => nomatch h
theorem wpExtest : Sys2Proof.Laws.NoWord.Statement (Sys2Proof.Instr.wpExtest) :=
  fun _ _ h => nomatch h
theorem wpIntestScan : Sys2Proof.Laws.NoWord.Statement (Sys2Proof.Instr.wpIntestScan) :=
  fun _ _ h => nomatch h
theorem mma (a : Arr) : Sys2Proof.Laws.NoWord.Statement (Sys2Proof.Instr.mma a) :=
  fun _ _ h => nomatch h
theorem mman (a : Arr) : Sys2Proof.Laws.NoWord.Statement (Sys2Proof.Instr.mman a) :=
  fun _ _ h => nomatch h
theorem cdl1 (a : Arr) : Sys2Proof.Laws.NoWord.Statement (Sys2Proof.Instr.cdl1 a) :=
  fun _ _ h => nomatch h
theorem cdl2 (a : Arr) : Sys2Proof.Laws.NoWord.Statement (Sys2Proof.Instr.cdl2 a) :=
  fun _ _ h => nomatch h
theorem cminp (a : Arr) : Sys2Proof.Laws.NoWord.Statement (Sys2Proof.Instr.cminp a) :=
  fun _ _ h => nomatch h
theorem cmaxp (a : Arr) : Sys2Proof.Laws.NoWord.Statement (Sys2Proof.Instr.cmaxp a) :=
  fun _ _ h => nomatch h
theorem ccnt (a : Arr) : Sys2Proof.Laws.NoWord.Statement (Sys2Proof.Instr.ccnt a) :=
  fun _ _ h => nomatch h
theorem drain (a : Arr) : Sys2Proof.Laws.NoWord.Statement (Sys2Proof.Instr.drain a) :=
  fun _ _ h => nomatch h
theorem discard (a : Arr) : Sys2Proof.Laws.NoWord.Statement (Sys2Proof.Instr.discard a) :=
  fun _ _ h => nomatch h
theorem arm (a : Arr) : Sys2Proof.Laws.NoWord.Statement (Sys2Proof.Instr.arm a) :=
  fun _ _ h => nomatch h
theorem quiet (a : Arr) : Sys2Proof.Laws.NoWord.Statement (Sys2Proof.Instr.quiet a) :=
  fun _ _ h => nomatch h
theorem gpdx : Sys2Proof.Laws.NoWord.Statement (Sys2Proof.Instr.gpdx) :=
  fun _ _ h => nomatch h
theorem gpdw : Sys2Proof.Laws.NoWord.Statement (Sys2Proof.Instr.gpdw) :=
  fun _ _ h => nomatch h
theorem fwdx : Sys2Proof.Laws.NoWord.Statement (Sys2Proof.Instr.fwdx) :=
  fun _ _ h => nomatch h
theorem adz : Sys2Proof.Laws.NoWord.Statement (Sys2Proof.Instr.adz) :=
  fun _ _ h => nomatch h
theorem kstepBroadcast (a : Arr) : Sys2Proof.Laws.NoWord.Statement (Sys2Proof.Instr.kstepBroadcast a) :=
  fun _ _ h => nomatch h
theorem tileSwap (a : Arr) : Sys2Proof.Laws.NoWord.Statement (Sys2Proof.Instr.tileSwap a) :=
  fun _ _ h => nomatch h
theorem drainRowPush (a : Arr) : Sys2Proof.Laws.NoWord.Statement (Sys2Proof.Instr.drainRowPush a) :=
  fun _ _ h => nomatch h
theorem activityLevelStep (a : Arr) : Sys2Proof.Laws.NoWord.Statement (Sys2Proof.Instr.activityLevelStep a) :=
  fun _ _ h => nomatch h
theorem vecAdd : Sys2Proof.Laws.NoWord.Statement (Sys2Proof.Instr.vecAdd) :=
  fun _ _ h => nomatch h
theorem vecSub : Sys2Proof.Laws.NoWord.Statement (Sys2Proof.Instr.vecSub) :=
  fun _ _ h => nomatch h
theorem vecMul : Sys2Proof.Laws.NoWord.Statement (Sys2Proof.Instr.vecMul) :=
  fun _ _ h => nomatch h
theorem fma : Sys2Proof.Laws.NoWord.Statement (Sys2Proof.Instr.fma) :=
  fun _ _ h => nomatch h
theorem fms : Sys2Proof.Laws.NoWord.Statement (Sys2Proof.Instr.fms) :=
  fun _ _ h => nomatch h
theorem fnma : Sys2Proof.Laws.NoWord.Statement (Sys2Proof.Instr.fnma) :=
  fun _ _ h => nomatch h
theorem mul3 : Sys2Proof.Laws.NoWord.Statement (Sys2Proof.Instr.mul3) :=
  fun _ _ h => nomatch h
theorem abs : Sys2Proof.Laws.NoWord.Statement (Sys2Proof.Instr.abs) :=
  fun _ _ h => nomatch h
theorem neg : Sys2Proof.Laws.NoWord.Statement (Sys2Proof.Instr.neg) :=
  fun _ _ h => nomatch h
theorem vecMin : Sys2Proof.Laws.NoWord.Statement (Sys2Proof.Instr.vecMin) :=
  fun _ _ h => nomatch h
theorem vecMax : Sys2Proof.Laws.NoWord.Statement (Sys2Proof.Instr.vecMax) :=
  fun _ _ h => nomatch h
theorem clamp : Sys2Proof.Laws.NoWord.Statement (Sys2Proof.Instr.clamp) :=
  fun _ _ h => nomatch h
theorem sqd : Sys2Proof.Laws.NoWord.Statement (Sys2Proof.Instr.sqd) :=
  fun _ _ h => nomatch h
theorem cmp : Sys2Proof.Laws.NoWord.Statement (Sys2Proof.Instr.cmp) :=
  fun _ _ h => nomatch h
theorem sel : Sys2Proof.Laws.NoWord.Statement (Sys2Proof.Instr.sel) :=
  fun _ _ h => nomatch h
theorem vecAnd : Sys2Proof.Laws.NoWord.Statement (Sys2Proof.Instr.vecAnd) :=
  fun _ _ h => nomatch h
theorem vecOr : Sys2Proof.Laws.NoWord.Statement (Sys2Proof.Instr.vecOr) :=
  fun _ _ h => nomatch h
theorem vecXor : Sys2Proof.Laws.NoWord.Statement (Sys2Proof.Instr.vecXor) :=
  fun _ _ h => nomatch h
theorem mand : Sys2Proof.Laws.NoWord.Statement (Sys2Proof.Instr.mand) :=
  fun _ _ h => nomatch h
theorem mor : Sys2Proof.Laws.NoWord.Statement (Sys2Proof.Instr.mor) :=
  fun _ _ h => nomatch h
theorem mnot : Sys2Proof.Laws.NoWord.Statement (Sys2Proof.Instr.mnot) :=
  fun _ _ h => nomatch h
theorem cvt : Sys2Proof.Laws.NoWord.Statement (Sys2Proof.Instr.cvt) :=
  fun _ _ h => nomatch h
theorem perm : Sys2Proof.Laws.NoWord.Statement (Sys2Proof.Instr.perm) :=
  fun _ _ h => nomatch h
theorem shuf : Sys2Proof.Laws.NoWord.Statement (Sys2Proof.Instr.shuf) :=
  fun _ _ h => nomatch h
theorem zip : Sys2Proof.Laws.NoWord.Statement (Sys2Proof.Instr.zip) :=
  fun _ _ h => nomatch h
theorem even : Sys2Proof.Laws.NoWord.Statement (Sys2Proof.Instr.even) :=
  fun _ _ h => nomatch h
theorem odd : Sys2Proof.Laws.NoWord.Statement (Sys2Proof.Instr.odd) :=
  fun _ _ h => nomatch h
theorem pack : Sys2Proof.Laws.NoWord.Statement (Sys2Proof.Instr.pack) :=
  fun _ _ h => nomatch h
theorem unpack : Sys2Proof.Laws.NoWord.Statement (Sys2Proof.Instr.unpack) :=
  fun _ _ h => nomatch h
theorem ocw : Sys2Proof.Laws.NoWord.Statement (Sys2Proof.Instr.ocw) :=
  fun _ _ h => nomatch h
theorem cmprs : Sys2Proof.Laws.NoWord.Statement (Sys2Proof.Instr.cmprs) :=
  fun _ _ h => nomatch h
theorem expand : Sys2Proof.Laws.NoWord.Statement (Sys2Proof.Instr.expand) :=
  fun _ _ h => nomatch h
theorem cnt : Sys2Proof.Laws.NoWord.Statement (Sys2Proof.Instr.cnt) :=
  fun _ _ h => nomatch h
theorem rng : Sys2Proof.Laws.NoWord.Statement (Sys2Proof.Instr.rng) :=
  fun _ _ h => nomatch h
theorem exp2 : Sys2Proof.Laws.NoWord.Statement (Sys2Proof.Instr.exp2) :=
  fun _ _ h => nomatch h
theorem log2 : Sys2Proof.Laws.NoWord.Statement (Sys2Proof.Instr.log2) :=
  fun _ _ h => nomatch h
theorem rcp : Sys2Proof.Laws.NoWord.Statement (Sys2Proof.Instr.rcp) :=
  fun _ _ h => nomatch h
theorem rsqrt : Sys2Proof.Laws.NoWord.Statement (Sys2Proof.Instr.rsqrt) :=
  fun _ _ h => nomatch h
theorem sqrt : Sys2Proof.Laws.NoWord.Statement (Sys2Proof.Instr.sqrt) :=
  fun _ _ h => nomatch h
theorem tanh : Sys2Proof.Laws.NoWord.Statement (Sys2Proof.Instr.tanh) :=
  fun _ _ h => nomatch h
theorem sigm : Sys2Proof.Laws.NoWord.Statement (Sys2Proof.Instr.sigm) :=
  fun _ _ h => nomatch h
theorem erf : Sys2Proof.Laws.NoWord.Statement (Sys2Proof.Instr.erf) :=
  fun _ _ h => nomatch h
theorem utab : Sys2Proof.Laws.NoWord.Statement (Sys2Proof.Instr.utab) :=
  fun _ _ h => nomatch h
theorem chainFlowStart : Sys2Proof.Laws.NoWord.Statement (Sys2Proof.Instr.chainFlowStart) :=
  fun _ _ h => nomatch h
theorem vecStep : Sys2Proof.Laws.NoWord.Statement (Sys2Proof.Instr.vecStep) :=
  fun _ _ h => nomatch h
theorem vecResultPush : Sys2Proof.Laws.NoWord.Statement (Sys2Proof.Instr.vecResultPush) :=
  fun _ _ h => nomatch h
theorem rsum : Sys2Proof.Laws.NoWord.Statement (Sys2Proof.Instr.rsum) :=
  fun _ _ h => nomatch h
theorem rsumsq : Sys2Proof.Laws.NoWord.Statement (Sys2Proof.Instr.rsumsq) :=
  fun _ _ h => nomatch h
theorem rmax : Sys2Proof.Laws.NoWord.Statement (Sys2Proof.Instr.rmax) :=
  fun _ _ h => nomatch h
theorem rmin : Sys2Proof.Laws.NoWord.Statement (Sys2Proof.Instr.rmin) :=
  fun _ _ h => nomatch h
theorem ramax : Sys2Proof.Laws.NoWord.Statement (Sys2Proof.Instr.ramax) :=
  fun _ _ h => nomatch h
theorem ramin : Sys2Proof.Laws.NoWord.Statement (Sys2Proof.Instr.ramin) :=
  fun _ _ h => nomatch h
theorem topk : Sys2Proof.Laws.NoWord.Statement (Sys2Proof.Instr.topk) :=
  fun _ _ h => nomatch h
theorem botk : Sys2Proof.Laws.NoWord.Statement (Sys2Proof.Instr.botk) :=
  fun _ _ h => nomatch h
theorem rstatMv : Sys2Proof.Laws.NoWord.Statement (Sys2Proof.Instr.rstatMv) :=
  fun _ _ h => nomatch h
theorem rstatMs : Sys2Proof.Laws.NoWord.Statement (Sys2Proof.Instr.rstatMs) :=
  fun _ _ h => nomatch h
theorem rstatLse : Sys2Proof.Laws.NoWord.Statement (Sys2Proof.Instr.rstatLse) :=
  fun _ _ h => nomatch h
theorem scadd : Sys2Proof.Laws.NoWord.Statement (Sys2Proof.Instr.scadd) :=
  fun _ _ h => nomatch h
theorem scmax : Sys2Proof.Laws.NoWord.Statement (Sys2Proof.Instr.scmax) :=
  fun _ _ h => nomatch h
theorem scmin : Sys2Proof.Laws.NoWord.Statement (Sys2Proof.Instr.scmin) :=
  fun _ _ h => nomatch h
theorem scmul : Sys2Proof.Laws.NoWord.Statement (Sys2Proof.Instr.scmul) :=
  fun _ _ h => nomatch h
theorem lrec : Sys2Proof.Laws.NoWord.Statement (Sys2Proof.Instr.lrec) :=
  fun _ _ h => nomatch h
theorem crset : Sys2Proof.Laws.NoWord.Statement (Sys2Proof.Instr.crset) :=
  fun _ _ h => nomatch h
theorem crld : Sys2Proof.Laws.NoWord.Statement (Sys2Proof.Instr.crld) :=
  fun _ _ h => nomatch h
theorem crst : Sys2Proof.Laws.NoWord.Statement (Sys2Proof.Instr.crst) :=
  fun _ _ h => nomatch h
theorem crcomb : Sys2Proof.Laws.NoWord.Statement (Sys2Proof.Instr.crcomb) :=
  fun _ _ h => nomatch h
theorem csend : Sys2Proof.Laws.NoWord.Statement (Sys2Proof.Instr.csend) :=
  fun _ _ h => nomatch h
theorem rsuFlowStart : Sys2Proof.Laws.NoWord.Statement (Sys2Proof.Instr.rsuFlowStart) :=
  fun _ _ h => nomatch h
theorem rsuResultPush : Sys2Proof.Laws.NoWord.Statement (Sys2Proof.Instr.rsuResultPush) :=
  fun _ _ h => nomatch h
theorem statRecordWrite : Sys2Proof.Laws.NoWord.Statement (Sys2Proof.Instr.statRecordWrite) :=
  fun _ _ h => nomatch h
theorem rd : Sys2Proof.Laws.NoWord.Statement (Sys2Proof.Instr.rd) :=
  fun _ _ h => nomatch h
theorem wr : Sys2Proof.Laws.NoWord.Statement (Sys2Proof.Instr.wr) :=
  fun _ _ h => nomatch h
theorem rdm : Sys2Proof.Laws.NoWord.Statement (Sys2Proof.Instr.rdm) :=
  fun _ _ h => nomatch h
theorem wrm : Sys2Proof.Laws.NoWord.Statement (Sys2Proof.Instr.wrm) :=
  fun _ _ h => nomatch h
theorem zero : Sys2Proof.Laws.NoWord.Statement (Sys2Proof.Instr.zero) :=
  fun _ _ h => nomatch h
theorem generatorLinePush (g : BitVec 4) : Sys2Proof.Laws.NoWord.Statement (Sys2Proof.Instr.generatorLinePush g) :=
  fun _ _ h => nomatch h
theorem generatorLinePop (g : BitVec 3) : Sys2Proof.Laws.NoWord.Statement (Sys2Proof.Instr.generatorLinePop g) :=
  fun _ _ h => nomatch h
theorem tin0 : Sys2Proof.Laws.NoWord.Statement (Sys2Proof.Instr.tin0) :=
  fun _ _ h => nomatch h
theorem tin1 : Sys2Proof.Laws.NoWord.Statement (Sys2Proof.Instr.tin1) :=
  fun _ _ h => nomatch h
theorem tinUnitEmit (b : BitVec 1) : Sys2Proof.Laws.NoWord.Statement (Sys2Proof.Instr.tinUnitEmit b) :=
  fun _ _ h => nomatch h
theorem tpc0 : Sys2Proof.Laws.NoWord.Statement (Sys2Proof.Instr.tpc0) :=
  fun _ _ h => nomatch h
theorem tpc1 : Sys2Proof.Laws.NoWord.Statement (Sys2Proof.Instr.tpc1) :=
  fun _ _ h => nomatch h
theorem tpci0 : Sys2Proof.Laws.NoWord.Statement (Sys2Proof.Instr.tpci0) :=
  fun _ _ h => nomatch h
theorem tpci1 : Sys2Proof.Laws.NoWord.Statement (Sys2Proof.Instr.tpci1) :=
  fun _ _ h => nomatch h
theorem gath : Sys2Proof.Laws.NoWord.Statement (Sys2Proof.Instr.gath) :=
  fun _ _ h => nomatch h
theorem scst : Sys2Proof.Laws.NoWord.Statement (Sys2Proof.Instr.scst) :=
  fun _ _ h => nomatch h
theorem movScadd : Sys2Proof.Laws.NoWord.Statement (Sys2Proof.Instr.movScadd) :=
  fun _ _ h => nomatch h
theorem gatherEntryStart : Sys2Proof.Laws.NoWord.Statement (Sys2Proof.Instr.gatherEntryStart) :=
  fun _ _ h => nomatch h
theorem acsv : Sys2Proof.Laws.NoWord.Statement (Sys2Proof.Instr.acsv) :=
  fun _ _ h => nomatch h
theorem acrs : Sys2Proof.Laws.NoWord.Statement (Sys2Proof.Instr.acrs) :=
  fun _ _ h => nomatch h
theorem put : Sys2Proof.Laws.NoWord.Statement (Sys2Proof.Instr.put) :=
  fun _ _ h => nomatch h
theorem get : Sys2Proof.Laws.NoWord.Statement (Sys2Proof.Instr.get) :=
  fun _ _ h => nomatch h
theorem getp : Sys2Proof.Laws.NoWord.Statement (Sys2Proof.Instr.getp) :=
  fun _ _ h => nomatch h
theorem racc : Sys2Proof.Laws.NoWord.Statement (Sys2Proof.Instr.racc) :=
  fun _ _ h => nomatch h
theorem rsend : Sys2Proof.Laws.NoWord.Statement (Sys2Proof.Instr.rsend) :=
  fun _ _ h => nomatch h
theorem rmaxs : Sys2Proof.Laws.NoWord.Statement (Sys2Proof.Instr.rmaxs) :=
  fun _ _ h => nomatch h
theorem patrolRead (bank : BitVec 6) : Sys2Proof.Laws.NoWord.Statement (Sys2Proof.Instr.patrolRead bank) :=
  fun _ _ h => nomatch h
theorem correctedWriteback (row : BitVec 19) : Sys2Proof.Laws.NoWord.Statement (Sys2Proof.Instr.correctedWriteback row) :=
  fun _ _ h => nomatch h
theorem fset : Sys2Proof.Laws.NoWord.Statement (Sys2Proof.Instr.fset) :=
  fun _ _ h => nomatch h
theorem fadd : Sys2Proof.Laws.NoWord.Statement (Sys2Proof.Instr.fadd) :=
  fun _ _ h => nomatch h
theorem fwge : Sys2Proof.Laws.NoWord.Statement (Sys2Proof.Instr.fwge) :=
  fun _ _ h => nomatch h
theorem fweq : Sys2Proof.Laws.NoWord.Statement (Sys2Proof.Instr.fweq) :=
  fun _ _ h => nomatch h
theorem ftake : Sys2Proof.Laws.NoWord.Statement (Sys2Proof.Instr.ftake) :=
  fun _ _ h => nomatch h
theorem fence : Sys2Proof.Laws.NoWord.Statement (Sys2Proof.Instr.fence) :=
  fun _ _ h => nomatch h
theorem twge : Sys2Proof.Laws.NoWord.Statement (Sys2Proof.Instr.twge) :=
  fun _ _ h => nomatch h
theorem tweq : Sys2Proof.Laws.NoWord.Statement (Sys2Proof.Instr.tweq) :=
  fun _ _ h => nomatch h
theorem ttake : Sys2Proof.Laws.NoWord.Statement (Sys2Proof.Instr.ttake) :=
  fun _ _ h => nomatch h
theorem rfadd : Sys2Proof.Laws.NoWord.Statement (Sys2Proof.Instr.rfadd) :=
  fun _ _ h => nomatch h
theorem flagWaitPass : Sys2Proof.Laws.NoWord.Statement (Sys2Proof.Instr.flagWaitPass) :=
  fun _ _ h => nomatch h
theorem timedWaitExpiry : Sys2Proof.Laws.NoWord.Statement (Sys2Proof.Instr.timedWaitExpiry) :=
  fun _ _ h => nomatch h
theorem timedWaitProceed : Sys2Proof.Laws.NoWord.Statement (Sys2Proof.Instr.timedWaitProceed) :=
  fun _ _ h => nomatch h
theorem sclAdd : Sys2Proof.Laws.NoWord.Statement (Sys2Proof.Instr.sclAdd) :=
  fun _ _ h => nomatch h
theorem sclSub : Sys2Proof.Laws.NoWord.Statement (Sys2Proof.Instr.sclSub) :=
  fun _ _ h => nomatch h
theorem sclMul : Sys2Proof.Laws.NoWord.Statement (Sys2Proof.Instr.sclMul) :=
  fun _ _ h => nomatch h
theorem sclAnd : Sys2Proof.Laws.NoWord.Statement (Sys2Proof.Instr.sclAnd) :=
  fun _ _ h => nomatch h
theorem sclOr : Sys2Proof.Laws.NoWord.Statement (Sys2Proof.Instr.sclOr) :=
  fun _ _ h => nomatch h
theorem sclXor : Sys2Proof.Laws.NoWord.Statement (Sys2Proof.Instr.sclXor) :=
  fun _ _ h => nomatch h
theorem shl : Sys2Proof.Laws.NoWord.Statement (Sys2Proof.Instr.shl) :=
  fun _ _ h => nomatch h
theorem shr : Sys2Proof.Laws.NoWord.Statement (Sys2Proof.Instr.shr) :=
  fun _ _ h => nomatch h
theorem sra : Sys2Proof.Laws.NoWord.Statement (Sys2Proof.Instr.sra) :=
  fun _ _ h => nomatch h
theorem sclMin : Sys2Proof.Laws.NoWord.Statement (Sys2Proof.Instr.sclMin) :=
  fun _ _ h => nomatch h
theorem sclMax : Sys2Proof.Laws.NoWord.Statement (Sys2Proof.Instr.sclMax) :=
  fun _ _ h => nomatch h
theorem minu : Sys2Proof.Laws.NoWord.Statement (Sys2Proof.Instr.minu) :=
  fun _ _ h => nomatch h
theorem maxu : Sys2Proof.Laws.NoWord.Statement (Sys2Proof.Instr.maxu) :=
  fun _ _ h => nomatch h
theorem slt : Sys2Proof.Laws.NoWord.Statement (Sys2Proof.Instr.slt) :=
  fun _ _ h => nomatch h
theorem sltu : Sys2Proof.Laws.NoWord.Statement (Sys2Proof.Instr.sltu) :=
  fun _ _ h => nomatch h
theorem addi : Sys2Proof.Laws.NoWord.Statement (Sys2Proof.Instr.addi) :=
  fun _ _ h => nomatch h
theorem andi : Sys2Proof.Laws.NoWord.Statement (Sys2Proof.Instr.andi) :=
  fun _ _ h => nomatch h
theorem ori : Sys2Proof.Laws.NoWord.Statement (Sys2Proof.Instr.ori) :=
  fun _ _ h => nomatch h
theorem xori : Sys2Proof.Laws.NoWord.Statement (Sys2Proof.Instr.xori) :=
  fun _ _ h => nomatch h
theorem shli : Sys2Proof.Laws.NoWord.Statement (Sys2Proof.Instr.shli) :=
  fun _ _ h => nomatch h
theorem shri : Sys2Proof.Laws.NoWord.Statement (Sys2Proof.Instr.shri) :=
  fun _ _ h => nomatch h
theorem srai : Sys2Proof.Laws.NoWord.Statement (Sys2Proof.Instr.srai) :=
  fun _ _ h => nomatch h
theorem cmov : Sys2Proof.Laws.NoWord.Statement (Sys2Proof.Instr.cmov) :=
  fun _ _ h => nomatch h
theorem li : Sys2Proof.Laws.NoWord.Statement (Sys2Proof.Instr.li) :=
  fun _ _ h => nomatch h
theorem lui : Sys2Proof.Laws.NoWord.Statement (Sys2Proof.Instr.lui) :=
  fun _ _ h => nomatch h
theorem divu : Sys2Proof.Laws.NoWord.Statement (Sys2Proof.Instr.divu) :=
  fun _ _ h => nomatch h
theorem remu : Sys2Proof.Laws.NoWord.Statement (Sys2Proof.Instr.remu) :=
  fun _ _ h => nomatch h
theorem drd : Sys2Proof.Laws.NoWord.Statement (Sys2Proof.Instr.drd) :=
  fun _ _ h => nomatch h
theorem dwr : Sys2Proof.Laws.NoWord.Statement (Sys2Proof.Instr.dwr) :=
  fun _ _ h => nomatch h
theorem cpop : Sys2Proof.Laws.NoWord.Statement (Sys2Proof.Instr.cpop) :=
  fun _ _ h => nomatch h
theorem cpush : Sys2Proof.Laws.NoWord.Statement (Sys2Proof.Instr.cpush) :=
  fun _ _ h => nomatch h
theorem tcfg : Sys2Proof.Laws.NoWord.Statement (Sys2Proof.Instr.tcfg) :=
  fun _ _ h => nomatch h
theorem tcommit : Sys2Proof.Laws.NoWord.Statement (Sys2Proof.Instr.tcommit) :=
  fun _ _ h => nomatch h
theorem trd : Sys2Proof.Laws.NoWord.Statement (Sys2Proof.Instr.trd) :=
  fun _ _ h => nomatch h
theorem jread : Sys2Proof.Laws.NoWord.Statement (Sys2Proof.Instr.jread) :=
  fun _ _ h => nomatch h
theorem sclComplete : Sys2Proof.Laws.NoWord.Statement (Sys2Proof.Instr.sclComplete) :=
  fun _ _ h => nomatch h
theorem holdEntry : Sys2Proof.Laws.NoWord.Statement (Sys2Proof.Instr.holdEntry) :=
  fun _ _ h => nomatch h
theorem idleEntry : Sys2Proof.Laws.NoWord.Statement (Sys2Proof.Instr.idleEntry) :=
  fun _ _ h => nomatch h
theorem imageInstallStart : Sys2Proof.Laws.NoWord.Statement (Sys2Proof.Instr.imageInstallStart) :=
  fun _ _ h => nomatch h
theorem installationComplete : Sys2Proof.Laws.NoWord.Statement (Sys2Proof.Instr.installationComplete) :=
  fun _ _ h => nomatch h
theorem ckptStopEntry : Sys2Proof.Laws.NoWord.Statement (Sys2Proof.Instr.ckptStopEntry) :=
  fun _ _ h => nomatch h
theorem selfTestComplete (fail : Option Byte) : Sys2Proof.Laws.NoWord.Statement (Sys2Proof.Instr.selfTestComplete fail) :=
  fun _ _ h => nomatch h
theorem restoreComplete : Sys2Proof.Laws.NoWord.Statement (Sys2Proof.Instr.restoreComplete) :=
  fun _ _ h => nomatch h
theorem beatOverrun : Sys2Proof.Laws.NoWord.Statement (Sys2Proof.Instr.beatOverrun) :=
  fun _ _ h => nomatch h
theorem stallLimitReached : Sys2Proof.Laws.NoWord.Statement (Sys2Proof.Instr.stallLimitReached) :=
  fun _ _ h => nomatch h
theorem hello (f : Frame) : Sys2Proof.Laws.NoWord.Statement (Sys2Proof.Instr.hello f) :=
  fun _ _ h => nomatch h
theorem discover (f : Frame) : Sys2Proof.Laws.NoWord.Statement (Sys2Proof.Instr.discover f) :=
  fun _ _ h => nomatch h
theorem read (f : Frame) : Sys2Proof.Laws.NoWord.Statement (Sys2Proof.Instr.read f) :=
  fun _ _ h => nomatch h
theorem write (f : Frame) : Sys2Proof.Laws.NoWord.Statement (Sys2Proof.Instr.write f) :=
  fun _ _ h => nomatch h
theorem claim (f : Frame) : Sys2Proof.Laws.NoWord.Statement (Sys2Proof.Instr.claim f) :=
  fun _ _ h => nomatch h
theorem renew (f : Frame) : Sys2Proof.Laws.NoWord.Statement (Sys2Proof.Instr.renew f) :=
  fun _ _ h => nomatch h
theorem release (f : Frame) : Sys2Proof.Laws.NoWord.Statement (Sys2Proof.Instr.release f) :=
  fun _ _ h => nomatch h
theorem wake (f : Frame) : Sys2Proof.Laws.NoWord.Statement (Sys2Proof.Instr.wake f) :=
  fun _ _ h => nomatch h
theorem alertAck (f : Frame) : Sys2Proof.Laws.NoWord.Statement (Sys2Proof.Instr.alertAck f) :=
  fun _ _ h => nomatch h
theorem alert : Sys2Proof.Laws.NoWord.Statement (Sys2Proof.Instr.alert) :=
  fun _ _ h => nomatch h
theorem event : Sys2Proof.Laws.NoWord.Statement (Sys2Proof.Instr.event) :=
  fun _ _ h => nomatch h
theorem sidebandCollision : Sys2Proof.Laws.NoWord.Statement (Sys2Proof.Instr.sidebandCollision) :=
  fun _ _ h => nomatch h
theorem sidebandBackoffExpiry : Sys2Proof.Laws.NoWord.Statement (Sys2Proof.Instr.sidebandBackoffExpiry) :=
  fun _ _ h => nomatch h
theorem leaseExpiry : Sys2Proof.Laws.NoWord.Statement (Sys2Proof.Instr.leaseExpiry) :=
  fun _ _ h => nomatch h
theorem electionWindowClose : Sys2Proof.Laws.NoWord.Statement (Sys2Proof.Instr.electionWindowClose) :=
  fun _ _ h => nomatch h
theorem handoverWindowExpiry : Sys2Proof.Laws.NoWord.Statement (Sys2Proof.Instr.handoverWindowExpiry) :=
  fun _ _ h => nomatch h
theorem mgcWatchdogExpiry : Sys2Proof.Laws.NoWord.Statement (Sys2Proof.Instr.mgcWatchdogExpiry) :=
  fun _ _ h => nomatch h
theorem rstCmdCold (r : Req) : Sys2Proof.Laws.NoWord.Statement (Sys2Proof.Instr.rstCmdCold r) :=
  fun _ _ h => nomatch h
theorem rstCmdWarm (r : Req) : Sys2Proof.Laws.NoWord.Statement (Sys2Proof.Instr.rstCmdWarm r) :=
  fun _ _ h => nomatch h
theorem rstCmdData (r : Req) : Sys2Proof.Laws.NoWord.Statement (Sys2Proof.Instr.rstCmdData r) :=
  fun _ _ h => nomatch h
theorem rstCmdEngine (r : Req) (eng : BitVec 3) : Sys2Proof.Laws.NoWord.Statement (Sys2Proof.Instr.rstCmdEngine r eng) :=
  fun _ _ h => nomatch h
theorem imgBegin (r : Req) (slot : Bool) : Sys2Proof.Laws.NoWord.Statement (Sys2Proof.Instr.imgBegin r slot) :=
  fun _ _ h => nomatch h
theorem imgEnd (r : Req) (slot : Bool) : Sys2Proof.Laws.NoWord.Statement (Sys2Proof.Instr.imgEnd r slot) :=
  fun _ _ h => nomatch h
theorem imgAbort (r : Req) (slot : Bool) : Sys2Proof.Laws.NoWord.Statement (Sys2Proof.Instr.imgAbort r slot) :=
  fun _ _ h => nomatch h
theorem activate (r : Req) (slot : Bool) : Sys2Proof.Laws.NoWord.Statement (Sys2Proof.Instr.activate r slot) :=
  fun _ _ h => nomatch h
theorem imgWindow (r : Req) (w : Word) : Sys2Proof.Laws.NoWord.Statement (Sys2Proof.Instr.imgWindow r w) :=
  fun _ _ h => nomatch h
theorem imgHashWrite (r : Req) (slot : Bool) (i : BitVec 3) (w : Word) : Sys2Proof.Laws.NoWord.Statement (Sys2Proof.Instr.imgHashWrite r slot i w) :=
  fun _ _ h => nomatch h
theorem imageCheckComplete : Sys2Proof.Laws.NoWord.Statement (Sys2Proof.Instr.imageCheckComplete) :=
  fun _ _ h => nomatch h
theorem patchBegin (r : Req) : Sys2Proof.Laws.NoWord.Statement (Sys2Proof.Instr.patchBegin r) :=
  fun _ _ h => nomatch h
theorem patchEnd (r : Req) : Sys2Proof.Laws.NoWord.Statement (Sys2Proof.Instr.patchEnd r) :=
  fun _ _ h => nomatch h
theorem patchApply (r : Req) : Sys2Proof.Laws.NoWord.Statement (Sys2Proof.Instr.patchApply r) :=
  fun _ _ h => nomatch h
theorem patchWindow (r : Req) (w : Word) : Sys2Proof.Laws.NoWord.Statement (Sys2Proof.Instr.patchWindow r w) :=
  fun _ _ h => nomatch h
theorem patchCheckComplete : Sys2Proof.Laws.NoWord.Statement (Sys2Proof.Instr.patchCheckComplete) :=
  fun _ _ h => nomatch h
theorem ownLock (r : Req) : Sys2Proof.Laws.NoWord.Statement (Sys2Proof.Instr.ownLock r) :=
  fun _ _ h => nomatch h
theorem eopenClear (r : Req) : Sys2Proof.Laws.NoWord.Statement (Sys2Proof.Instr.eopenClear r) :=
  fun _ _ h => nomatch h
theorem ownHandover (r : Req) (succ : Byte) : Sys2Proof.Laws.NoWord.Statement (Sys2Proof.Instr.ownHandover r succ) :=
  fun _ _ h => nomatch h
theorem enrol (r : Req) (n : BitVec 4) (w : Word) : Sys2Proof.Laws.NoWord.Statement (Sys2Proof.Instr.enrol r n w) :=
  fun _ _ h => nomatch h
theorem dbgLock (r : Req) : Sys2Proof.Laws.NoWord.Statement (Sys2Proof.Instr.dbgLock r) :=
  fun _ _ h => nomatch h
theorem errFirstClear (r : Req) : Sys2Proof.Laws.NoWord.Statement (Sys2Proof.Instr.errFirstClear r) :=
  fun _ _ h => nomatch h
theorem stallCtlWrite (r : Req) (w : Word) : Sys2Proof.Laws.NoWord.Statement (Sys2Proof.Instr.stallCtlWrite r w) :=
  fun _ _ h => nomatch h
theorem routeDataWrite (r : Req) (w : Word) : Sys2Proof.Laws.NoWord.Statement (Sys2Proof.Instr.routeDataWrite r w) :=
  fun _ _ h => nomatch h
theorem routeDataRead (r : Req) : Sys2Proof.Laws.NoWord.Statement (Sys2Proof.Instr.routeDataRead r) :=
  fun _ _ h => nomatch h
theorem routeCopy (r : Req) : Sys2Proof.Laws.NoWord.Statement (Sys2Proof.Instr.routeCopy r) :=
  fun _ _ h => nomatch h
theorem routeCopyComplete : Sys2Proof.Laws.NoWord.Statement (Sys2Proof.Instr.routeCopyComplete) :=
  fun _ _ h => nomatch h
theorem routeCommit (r : Req) : Sys2Proof.Laws.NoWord.Statement (Sys2Proof.Instr.routeCommit r) :=
  fun _ _ h => nomatch h
theorem cntClr (r : Req) : Sys2Proof.Laws.NoWord.Statement (Sys2Proof.Instr.cntClr r) :=
  fun _ _ h => nomatch h
theorem cntLoRead (r : Req) (addr : BitVec 16) : Sys2Proof.Laws.NoWord.Statement (Sys2Proof.Instr.cntLoRead r addr) :=
  fun _ _ h => nomatch h
theorem enterShallows (r : Req) : Sys2Proof.Laws.NoWord.Statement (Sys2Proof.Instr.enterShallows r) :=
  fun _ _ h => nomatch h
theorem enterOff (r : Req) : Sys2Proof.Laws.NoWord.Statement (Sys2Proof.Instr.enterOff r) :=
  fun _ _ h => nomatch h
theorem watchWindow (samples : List Bool) (frame : Option Byte) : Sys2Proof.Laws.NoWord.Statement (Sys2Proof.Instr.watchWindow samples frame) :=
  fun _ _ h => nomatch h
theorem armCheck (r : Req) (w : Word) : Sys2Proof.Laws.NoWord.Statement (Sys2Proof.Instr.armCheck r w) :=
  fun _ _ h => nomatch h
theorem armProbeTimeout : Sys2Proof.Laws.NoWord.Statement (Sys2Proof.Instr.armProbeTimeout) :=
  fun _ _ h => nomatch h
theorem restoreLocal (r : Req) (w : Word) : Sys2Proof.Laws.NoWord.Statement (Sys2Proof.Instr.restoreLocal r w) :=
  fun _ _ h => nomatch h
theorem restoreRemote (r : Req) (w : Word) : Sys2Proof.Laws.NoWord.Statement (Sys2Proof.Instr.restoreRemote r w) :=
  fun _ _ h => nomatch h
theorem restoreHeld (r : Req) (w : Word) : Sys2Proof.Laws.NoWord.Statement (Sys2Proof.Instr.restoreHeld r w) :=
  fun _ _ h => nomatch h
theorem lbist (r : Req) (queue : Bool) : Sys2Proof.Laws.NoWord.Statement (Sys2Proof.Instr.lbist r queue) :=
  fun _ _ h => nomatch h
theorem bufferMbist (r : Req) (queue : Bool) : Sys2Proof.Laws.NoWord.Statement (Sys2Proof.Instr.bufferMbist r queue) :=
  fun _ _ h => nomatch h
theorem poolMbist (r : Req) (queue : Bool) : Sys2Proof.Laws.NoWord.Statement (Sys2Proof.Instr.poolMbist r queue) :=
  fun _ _ h => nomatch h
theorem selfTestAll (r : Req) (queue : Bool) : Sys2Proof.Laws.NoWord.Statement (Sys2Proof.Instr.selfTestAll r queue) :=
  fun _ _ h => nomatch h
theorem pondHaltFall : Sys2Proof.Laws.NoWord.Statement (Sys2Proof.Instr.pondHaltFall) :=
  fun _ _ h => nomatch h
theorem debugResetRelease : Sys2Proof.Laws.NoWord.Statement (Sys2Proof.Instr.debugResetRelease) :=
  fun _ _ h => nomatch h

end Sys2Proof.Laws.NoWord
end

