-- ==== Sys2Proof/Laws/State.lean ====
section
/-! SUPPORT. What each shared update of the state leaves as it was: one lemma per field and update. -/

namespace Sys2Proof.Machine

/-! ## bump -/

@[simp] theorem bump_cfg (src n : Nat) (s : State) : (bump src n s).cfg = s.cfg := by unfold bump; split <;> rfl
@[simp] theorem bump_straps (src n : Nat) (s : State) : (bump src n s).straps = s.straps := by unfold bump; split <;> rfl
@[simp] theorem bump_strapPins (src n : Nat) (s : State) : (bump src n s).strapPins = s.strapPins := by unfold bump; split <;> rfl
@[simp] theorem bump_pins (src n : Nat) (s : State) : (bump src n s).pins = s.pins := by unfold bump; split <;> rfl
@[simp] theorem bump_out (src n : Nat) (s : State) : (bump src n s).out = s.out := by unfold bump; split <;> rfl
@[simp] theorem bump_clock (src n : Nat) (s : State) : (bump src n s).clock = s.clock := by unfold bump; split <;> rfl
@[simp] theorem bump_rcv (src n : Nat) (s : State) : (bump src n s).rcv = s.rcv := by unfold bump; split <;> rfl
@[simp] theorem bump_issue (src n : Nat) (s : State) : (bump src n s).issue = s.issue := by unfold bump; split <;> rfl
@[simp] theorem bump_q (src n : Nat) (s : State) : (bump src n s).q = s.q := by unfold bump; split <;> rfl
@[simp] theorem bump_live (src n : Nat) (s : State) : (bump src n s).live = s.live := by unfold bump; split <;> rfl
@[simp] theorem bump_gates (src n : Nat) (s : State) : (bump src n s).gates = s.gates := by unfold bump; split <;> rfl
@[simp] theorem bump_started (src n : Nat) (s : State) : (bump src n s).started = s.started := by unfold bump; split <;> rfl
@[simp] theorem bump_mxa (src n : Nat) (s : State) : (bump src n s).mxa = s.mxa := by unfold bump; split <;> rfl
@[simp] theorem bump_mxb (src n : Nat) (s : State) : (bump src n s).mxb = s.mxb := by unfold bump; split <;> rfl
@[simp] theorem bump_turn (src n : Nat) (s : State) : (bump src n s).turn = s.turn := by unfold bump; split <;> rfl
@[simp] theorem bump_vec (src n : Nat) (s : State) : (bump src n s).vec = s.vec := by unfold bump; split <;> rfl
@[simp] theorem bump_ocache (src n : Nat) (s : State) : (bump src n s).ocache = s.ocache := by unfold bump; split <;> rfl
@[simp] theorem bump_ocUpset (src n : Nat) (s : State) : (bump src n s).ocUpset = s.ocUpset := by unfold bump; split <;> rfl
@[simp] theorem bump_flagUpset (src n : Nat) (s : State) : (bump src n s).flagUpset = s.flagUpset := by unfold bump; split <;> rfl
@[simp] theorem bump_descUpset (src n : Nat) (s : State) : (bump src n s).descUpset = s.descUpset := by unfold bump; split <;> rfl
@[simp] theorem bump_routeUpset (src n : Nat) (s : State) : (bump src n s).routeUpset = s.routeUpset := by unfold bump; split <;> rfl
@[simp] theorem bump_imgUpset (src n : Nat) (s : State) : (bump src n s).imgUpset = s.imgUpset := by unfold bump; split <;> rfl
@[simp] theorem bump_rsu (src n : Nat) (s : State) : (bump src n s).rsu = s.rsu := by unfold bump; split <;> rfl
@[simp] theorem bump_crs (src n : Nat) (s : State) : (bump src n s).crs = s.crs := by unfold bump; split <;> rfl
@[simp] theorem bump_mov (src n : Nat) (s : State) : (bump src n s).mov = s.mov := by unfold bump; split <;> rfl
@[simp] theorem bump_syn (src n : Nat) (s : State) : (bump src n s).syn = s.syn := by unfold bump; split <;> rfl
@[simp] theorem bump_scl (src n : Nat) (s : State) : (bump src n s).scl = s.scl := by unfold bump; split <;> rfl
@[simp] theorem bump_chans (src n : Nat) (s : State) : (bump src n s).chans = s.chans := by unfold bump; split <;> rfl
@[simp] theorem bump_pool (src n : Nat) (s : State) : (bump src n s).pool = s.pool := by unfold bump; split <;> rfl
@[simp] theorem bump_sregs (src n : Nat) (s : State) : (bump src n s).sregs = s.sregs := by unfold bump; split <;> rfl
@[simp] theorem bump_s63 (src n : Nat) (s : State) : (bump src n s).s63 = s.s63 := by unfold bump; split <;> rfl
@[simp] theorem bump_descs (src n : Nat) (s : State) : (bump src n s).descs = s.descs := by unfold bump; split <;> rfl
@[simp] theorem bump_scales (src n : Nat) (s : State) : (bump src n s).scales = s.scales := by unfold bump; split <;> rfl
@[simp] theorem bump_scaleNow (src n : Nat) (s : State) : (bump src n s).scaleNow = s.scaleNow := by unfold bump; split <;> rfl
@[simp] theorem bump_flags (src n : Nat) (s : State) : (bump src n s).flags = s.flags := by unfold bump; split <;> rfl
@[simp] theorem bump_flagOld (src n : Nat) (s : State) : (bump src n s).flagOld = s.flagOld := by unfold bump; split <;> rfl
@[simp] theorem bump_fab (src n : Nat) (s : State) : (bump src n s).fab = s.fab := by unfold bump; split <;> rfl
@[simp] theorem bump_job (src n : Nat) (s : State) : (bump src n s).job = s.job := by unfold bump; split <;> rfl
@[simp] theorem bump_own (src n : Nat) (s : State) : (bump src n s).own = s.own := by unfold bump; split <;> rfl
@[simp] theorem bump_sb (src n : Nat) (s : State) : (bump src n s).sb = s.sb := by unfold bump; split <;> rfl
@[simp] theorem bump_dbg (src n : Nat) (s : State) : (bump src n s).dbg = s.dbg := by unfold bump; split <;> rfl
@[simp] theorem bump_img (src n : Nat) (s : State) : (bump src n s).img = s.img := by unfold bump; split <;> rfl
@[simp] theorem bump_err (src n : Nat) (s : State) : (bump src n s).err = s.err := by unfold bump; split <;> rfl
@[simp] theorem bump_sync (src n : Nat) (s : State) : (bump src n s).sync = s.sync := by unfold bump; split <;> rfl
@[simp] theorem bump_ckpt (src n : Nat) (s : State) : (bump src n s).ckpt = s.ckpt := by unfold bump; split <;> rfl
@[simp] theorem bump_st (src n : Nat) (s : State) : (bump src n s).st = s.st := by unfold bump; split <;> rfl
@[simp] theorem bump_rst (src n : Nat) (s : State) : (bump src n s).rst = s.rst := by unfold bump; split <;> rfl
@[simp] theorem bump_trim (src n : Nat) (s : State) : (bump src n s).trim = s.trim := by unfold bump; split <;> rfl
@[simp] theorem bump_pwr (src n : Nat) (s : State) : (bump src n s).pwr = s.pwr := by unfold bump; split <;> rfl
@[simp] theorem bump_tap (src n : Nat) (s : State) : (bump src n s).tap = s.tap := by unfold bump; split <;> rfl
@[simp] theorem bump_undo (src n : Nat) (s : State) : (bump src n s).undo = s.undo := by unfold bump; split <;> rfl
@[simp] theorem bump_free (src n : Nat) (s : State) : (bump src n s).free = s.free := by unfold bump; split <;> rfl
@[simp] theorem bump_pending (src n : Nat) (s : State) : (bump src n s).pending = s.pending := by unfold bump; split <;> rfl

/-! ## noteError -/

@[simp] theorem noteError_cfg (h : Bool) (c : Byte) (x : FaultCtx) (s : State) : (noteError h c x s).cfg = s.cfg := by unfold noteError; dsimp only; split <;> rfl
@[simp] theorem noteError_straps (h : Bool) (c : Byte) (x : FaultCtx) (s : State) : (noteError h c x s).straps = s.straps := by unfold noteError; dsimp only; split <;> rfl
@[simp] theorem noteError_strapPins (h : Bool) (c : Byte) (x : FaultCtx) (s : State) : (noteError h c x s).strapPins = s.strapPins := by unfold noteError; dsimp only; split <;> rfl
@[simp] theorem noteError_pins (h : Bool) (c : Byte) (x : FaultCtx) (s : State) : (noteError h c x s).pins = s.pins := by unfold noteError; dsimp only; split <;> rfl
@[simp] theorem noteError_out (h : Bool) (c : Byte) (x : FaultCtx) (s : State) : (noteError h c x s).out = s.out := by unfold noteError; dsimp only; split <;> rfl
@[simp] theorem noteError_clock (h : Bool) (c : Byte) (x : FaultCtx) (s : State) : (noteError h c x s).clock = s.clock := by unfold noteError; dsimp only; split <;> rfl
@[simp] theorem noteError_rcv (h : Bool) (c : Byte) (x : FaultCtx) (s : State) : (noteError h c x s).rcv = s.rcv := by unfold noteError; dsimp only; split <;> rfl
@[simp] theorem noteError_issue (h : Bool) (c : Byte) (x : FaultCtx) (s : State) : (noteError h c x s).issue = s.issue := by unfold noteError; dsimp only; split <;> rfl
@[simp] theorem noteError_q (h : Bool) (c : Byte) (x : FaultCtx) (s : State) : (noteError h c x s).q = s.q := by unfold noteError; dsimp only; split <;> rfl
@[simp] theorem noteError_live (h : Bool) (c : Byte) (x : FaultCtx) (s : State) : (noteError h c x s).live = s.live := by unfold noteError; dsimp only; split <;> rfl
@[simp] theorem noteError_gates (h : Bool) (c : Byte) (x : FaultCtx) (s : State) : (noteError h c x s).gates = s.gates := by unfold noteError; dsimp only; split <;> rfl
@[simp] theorem noteError_started (h : Bool) (c : Byte) (x : FaultCtx) (s : State) : (noteError h c x s).started = s.started := by unfold noteError; dsimp only; split <;> rfl
@[simp] theorem noteError_mxa (h : Bool) (c : Byte) (x : FaultCtx) (s : State) : (noteError h c x s).mxa = s.mxa := by unfold noteError; dsimp only; split <;> rfl
@[simp] theorem noteError_mxb (h : Bool) (c : Byte) (x : FaultCtx) (s : State) : (noteError h c x s).mxb = s.mxb := by unfold noteError; dsimp only; split <;> rfl
@[simp] theorem noteError_turn (h : Bool) (c : Byte) (x : FaultCtx) (s : State) : (noteError h c x s).turn = s.turn := by unfold noteError; dsimp only; split <;> rfl
@[simp] theorem noteError_vec (h : Bool) (c : Byte) (x : FaultCtx) (s : State) : (noteError h c x s).vec = s.vec := by unfold noteError; dsimp only; split <;> rfl
@[simp] theorem noteError_ocache (h : Bool) (c : Byte) (x : FaultCtx) (s : State) : (noteError h c x s).ocache = s.ocache := by unfold noteError; dsimp only; split <;> rfl
@[simp] theorem noteError_ocUpset (h : Bool) (c : Byte) (x : FaultCtx) (s : State) : (noteError h c x s).ocUpset = s.ocUpset := by unfold noteError; dsimp only; split <;> rfl
@[simp] theorem noteError_flagUpset (h : Bool) (c : Byte) (x : FaultCtx) (s : State) : (noteError h c x s).flagUpset = s.flagUpset := by unfold noteError; dsimp only; split <;> rfl
@[simp] theorem noteError_descUpset (h : Bool) (c : Byte) (x : FaultCtx) (s : State) : (noteError h c x s).descUpset = s.descUpset := by unfold noteError; dsimp only; split <;> rfl
@[simp] theorem noteError_routeUpset (h : Bool) (c : Byte) (x : FaultCtx) (s : State) : (noteError h c x s).routeUpset = s.routeUpset := by unfold noteError; dsimp only; split <;> rfl
@[simp] theorem noteError_imgUpset (h : Bool) (c : Byte) (x : FaultCtx) (s : State) : (noteError h c x s).imgUpset = s.imgUpset := by unfold noteError; dsimp only; split <;> rfl
@[simp] theorem noteError_rsu (h : Bool) (c : Byte) (x : FaultCtx) (s : State) : (noteError h c x s).rsu = s.rsu := by unfold noteError; dsimp only; split <;> rfl
@[simp] theorem noteError_crs (h : Bool) (c : Byte) (x : FaultCtx) (s : State) : (noteError h c x s).crs = s.crs := by unfold noteError; dsimp only; split <;> rfl
@[simp] theorem noteError_mov (h : Bool) (c : Byte) (x : FaultCtx) (s : State) : (noteError h c x s).mov = s.mov := by unfold noteError; dsimp only; split <;> rfl
@[simp] theorem noteError_syn (h : Bool) (c : Byte) (x : FaultCtx) (s : State) : (noteError h c x s).syn = s.syn := by unfold noteError; dsimp only; split <;> rfl
@[simp] theorem noteError_scl (h : Bool) (c : Byte) (x : FaultCtx) (s : State) : (noteError h c x s).scl = s.scl := by unfold noteError; dsimp only; split <;> rfl
@[simp] theorem noteError_chans (h : Bool) (c : Byte) (x : FaultCtx) (s : State) : (noteError h c x s).chans = s.chans := by unfold noteError; dsimp only; split <;> rfl
@[simp] theorem noteError_pool (h : Bool) (c : Byte) (x : FaultCtx) (s : State) : (noteError h c x s).pool = s.pool := by unfold noteError; dsimp only; split <;> rfl
@[simp] theorem noteError_sregs (h : Bool) (c : Byte) (x : FaultCtx) (s : State) : (noteError h c x s).sregs = s.sregs := by unfold noteError; dsimp only; split <;> rfl
@[simp] theorem noteError_s63 (h : Bool) (c : Byte) (x : FaultCtx) (s : State) : (noteError h c x s).s63 = s.s63 := by unfold noteError; dsimp only; split <;> rfl
@[simp] theorem noteError_descs (h : Bool) (c : Byte) (x : FaultCtx) (s : State) : (noteError h c x s).descs = s.descs := by unfold noteError; dsimp only; split <;> rfl
@[simp] theorem noteError_scales (h : Bool) (c : Byte) (x : FaultCtx) (s : State) : (noteError h c x s).scales = s.scales := by unfold noteError; dsimp only; split <;> rfl
@[simp] theorem noteError_scaleNow (h : Bool) (c : Byte) (x : FaultCtx) (s : State) : (noteError h c x s).scaleNow = s.scaleNow := by unfold noteError; dsimp only; split <;> rfl
@[simp] theorem noteError_flags (h : Bool) (c : Byte) (x : FaultCtx) (s : State) : (noteError h c x s).flags = s.flags := by unfold noteError; dsimp only; split <;> rfl
@[simp] theorem noteError_flagOld (h : Bool) (c : Byte) (x : FaultCtx) (s : State) : (noteError h c x s).flagOld = s.flagOld := by unfold noteError; dsimp only; split <;> rfl
@[simp] theorem noteError_fab (h : Bool) (c : Byte) (x : FaultCtx) (s : State) : (noteError h c x s).fab = s.fab := by unfold noteError; dsimp only; split <;> rfl
@[simp] theorem noteError_job (h : Bool) (c : Byte) (x : FaultCtx) (s : State) : (noteError h c x s).job = s.job := by unfold noteError; dsimp only; split <;> rfl
@[simp] theorem noteError_own (h : Bool) (c : Byte) (x : FaultCtx) (s : State) : (noteError h c x s).own = s.own := by unfold noteError; dsimp only; split <;> rfl
@[simp] theorem noteError_sb (h : Bool) (c : Byte) (x : FaultCtx) (s : State) : (noteError h c x s).sb = s.sb := by unfold noteError; dsimp only; split <;> rfl
@[simp] theorem noteError_dbg (h : Bool) (c : Byte) (x : FaultCtx) (s : State) : (noteError h c x s).dbg = s.dbg := by unfold noteError; dsimp only; split <;> rfl
@[simp] theorem noteError_img (h : Bool) (c : Byte) (x : FaultCtx) (s : State) : (noteError h c x s).img = s.img := by unfold noteError; dsimp only; split <;> rfl
@[simp] theorem noteError_cnt (h : Bool) (c : Byte) (x : FaultCtx) (s : State) : (noteError h c x s).cnt = s.cnt := by unfold noteError; dsimp only; split <;> rfl
@[simp] theorem noteError_sync (h : Bool) (c : Byte) (x : FaultCtx) (s : State) : (noteError h c x s).sync = s.sync := by unfold noteError; dsimp only; split <;> rfl
@[simp] theorem noteError_ckpt (h : Bool) (c : Byte) (x : FaultCtx) (s : State) : (noteError h c x s).ckpt = s.ckpt := by unfold noteError; dsimp only; split <;> rfl
@[simp] theorem noteError_st (h : Bool) (c : Byte) (x : FaultCtx) (s : State) : (noteError h c x s).st = s.st := by unfold noteError; dsimp only; split <;> rfl
@[simp] theorem noteError_rst (h : Bool) (c : Byte) (x : FaultCtx) (s : State) : (noteError h c x s).rst = s.rst := by unfold noteError; dsimp only; split <;> rfl
@[simp] theorem noteError_trim (h : Bool) (c : Byte) (x : FaultCtx) (s : State) : (noteError h c x s).trim = s.trim := by unfold noteError; dsimp only; split <;> rfl
@[simp] theorem noteError_pwr (h : Bool) (c : Byte) (x : FaultCtx) (s : State) : (noteError h c x s).pwr = s.pwr := by unfold noteError; dsimp only; split <;> rfl
@[simp] theorem noteError_tap (h : Bool) (c : Byte) (x : FaultCtx) (s : State) : (noteError h c x s).tap = s.tap := by unfold noteError; dsimp only; split <;> rfl
@[simp] theorem noteError_undo (h : Bool) (c : Byte) (x : FaultCtx) (s : State) : (noteError h c x s).undo = s.undo := by unfold noteError; dsimp only; split <;> rfl
@[simp] theorem noteError_free (h : Bool) (c : Byte) (x : FaultCtx) (s : State) : (noteError h c x s).free = s.free := by unfold noteError; dsimp only; split <;> rfl
@[simp] theorem noteError_pending (h : Bool) (c : Byte) (x : FaultCtx) (s : State) : (noteError h c x s).pending = s.pending := by unfold noteError; dsimp only; split <;> rfl

/-! ## raise -/

@[simp] theorem raise_cfg (c : Byte) (x : FaultCtx) (s : State) : (raise c x s).cfg = s.cfg := noteError_cfg true c x s
@[simp] theorem raise_straps (c : Byte) (x : FaultCtx) (s : State) : (raise c x s).straps = s.straps := noteError_straps true c x s
@[simp] theorem raise_strapPins (c : Byte) (x : FaultCtx) (s : State) : (raise c x s).strapPins = s.strapPins := noteError_strapPins true c x s
@[simp] theorem raise_pins (c : Byte) (x : FaultCtx) (s : State) : (raise c x s).pins = s.pins := noteError_pins true c x s
@[simp] theorem raise_out (c : Byte) (x : FaultCtx) (s : State) : (raise c x s).out = s.out := noteError_out true c x s
@[simp] theorem raise_clock (c : Byte) (x : FaultCtx) (s : State) : (raise c x s).clock = s.clock := noteError_clock true c x s
@[simp] theorem raise_rcv (c : Byte) (x : FaultCtx) (s : State) : (raise c x s).rcv = s.rcv := noteError_rcv true c x s
@[simp] theorem raise_issue (c : Byte) (x : FaultCtx) (s : State) : (raise c x s).issue = s.issue := noteError_issue true c x s
@[simp] theorem raise_q (c : Byte) (x : FaultCtx) (s : State) : (raise c x s).q = s.q := noteError_q true c x s
@[simp] theorem raise_live (c : Byte) (x : FaultCtx) (s : State) : (raise c x s).live = s.live := noteError_live true c x s
@[simp] theorem raise_gates (c : Byte) (x : FaultCtx) (s : State) : (raise c x s).gates = s.gates := noteError_gates true c x s
@[simp] theorem raise_started (c : Byte) (x : FaultCtx) (s : State) : (raise c x s).started = s.started := noteError_started true c x s
@[simp] theorem raise_mxa (c : Byte) (x : FaultCtx) (s : State) : (raise c x s).mxa = s.mxa := noteError_mxa true c x s
@[simp] theorem raise_mxb (c : Byte) (x : FaultCtx) (s : State) : (raise c x s).mxb = s.mxb := noteError_mxb true c x s
@[simp] theorem raise_turn (c : Byte) (x : FaultCtx) (s : State) : (raise c x s).turn = s.turn := noteError_turn true c x s
@[simp] theorem raise_vec (c : Byte) (x : FaultCtx) (s : State) : (raise c x s).vec = s.vec := noteError_vec true c x s
@[simp] theorem raise_ocache (c : Byte) (x : FaultCtx) (s : State) : (raise c x s).ocache = s.ocache := noteError_ocache true c x s
@[simp] theorem raise_ocUpset (c : Byte) (x : FaultCtx) (s : State) : (raise c x s).ocUpset = s.ocUpset := noteError_ocUpset true c x s
@[simp] theorem raise_flagUpset (c : Byte) (x : FaultCtx) (s : State) : (raise c x s).flagUpset = s.flagUpset := noteError_flagUpset true c x s
@[simp] theorem raise_descUpset (c : Byte) (x : FaultCtx) (s : State) : (raise c x s).descUpset = s.descUpset := noteError_descUpset true c x s
@[simp] theorem raise_routeUpset (c : Byte) (x : FaultCtx) (s : State) : (raise c x s).routeUpset = s.routeUpset := noteError_routeUpset true c x s
@[simp] theorem raise_imgUpset (c : Byte) (x : FaultCtx) (s : State) : (raise c x s).imgUpset = s.imgUpset := noteError_imgUpset true c x s
@[simp] theorem raise_rsu (c : Byte) (x : FaultCtx) (s : State) : (raise c x s).rsu = s.rsu := noteError_rsu true c x s
@[simp] theorem raise_crs (c : Byte) (x : FaultCtx) (s : State) : (raise c x s).crs = s.crs := noteError_crs true c x s
@[simp] theorem raise_mov (c : Byte) (x : FaultCtx) (s : State) : (raise c x s).mov = s.mov := noteError_mov true c x s
@[simp] theorem raise_syn (c : Byte) (x : FaultCtx) (s : State) : (raise c x s).syn = s.syn := noteError_syn true c x s
@[simp] theorem raise_scl (c : Byte) (x : FaultCtx) (s : State) : (raise c x s).scl = s.scl := noteError_scl true c x s
@[simp] theorem raise_chans (c : Byte) (x : FaultCtx) (s : State) : (raise c x s).chans = s.chans := noteError_chans true c x s
@[simp] theorem raise_pool (c : Byte) (x : FaultCtx) (s : State) : (raise c x s).pool = s.pool := noteError_pool true c x s
@[simp] theorem raise_sregs (c : Byte) (x : FaultCtx) (s : State) : (raise c x s).sregs = s.sregs := noteError_sregs true c x s
@[simp] theorem raise_s63 (c : Byte) (x : FaultCtx) (s : State) : (raise c x s).s63 = s.s63 := noteError_s63 true c x s
@[simp] theorem raise_descs (c : Byte) (x : FaultCtx) (s : State) : (raise c x s).descs = s.descs := noteError_descs true c x s
@[simp] theorem raise_scales (c : Byte) (x : FaultCtx) (s : State) : (raise c x s).scales = s.scales := noteError_scales true c x s
@[simp] theorem raise_scaleNow (c : Byte) (x : FaultCtx) (s : State) : (raise c x s).scaleNow = s.scaleNow := noteError_scaleNow true c x s
@[simp] theorem raise_flags (c : Byte) (x : FaultCtx) (s : State) : (raise c x s).flags = s.flags := noteError_flags true c x s
@[simp] theorem raise_flagOld (c : Byte) (x : FaultCtx) (s : State) : (raise c x s).flagOld = s.flagOld := noteError_flagOld true c x s
@[simp] theorem raise_fab (c : Byte) (x : FaultCtx) (s : State) : (raise c x s).fab = s.fab := noteError_fab true c x s
@[simp] theorem raise_job (c : Byte) (x : FaultCtx) (s : State) : (raise c x s).job = s.job := noteError_job true c x s
@[simp] theorem raise_own (c : Byte) (x : FaultCtx) (s : State) : (raise c x s).own = s.own := noteError_own true c x s
@[simp] theorem raise_sb (c : Byte) (x : FaultCtx) (s : State) : (raise c x s).sb = s.sb := noteError_sb true c x s
@[simp] theorem raise_dbg (c : Byte) (x : FaultCtx) (s : State) : (raise c x s).dbg = s.dbg := noteError_dbg true c x s
@[simp] theorem raise_img (c : Byte) (x : FaultCtx) (s : State) : (raise c x s).img = s.img := noteError_img true c x s
@[simp] theorem raise_cnt (c : Byte) (x : FaultCtx) (s : State) : (raise c x s).cnt = s.cnt := noteError_cnt true c x s
@[simp] theorem raise_sync (c : Byte) (x : FaultCtx) (s : State) : (raise c x s).sync = s.sync := noteError_sync true c x s
@[simp] theorem raise_ckpt (c : Byte) (x : FaultCtx) (s : State) : (raise c x s).ckpt = s.ckpt := noteError_ckpt true c x s
@[simp] theorem raise_st (c : Byte) (x : FaultCtx) (s : State) : (raise c x s).st = s.st := noteError_st true c x s
@[simp] theorem raise_rst (c : Byte) (x : FaultCtx) (s : State) : (raise c x s).rst = s.rst := noteError_rst true c x s
@[simp] theorem raise_trim (c : Byte) (x : FaultCtx) (s : State) : (raise c x s).trim = s.trim := noteError_trim true c x s
@[simp] theorem raise_pwr (c : Byte) (x : FaultCtx) (s : State) : (raise c x s).pwr = s.pwr := noteError_pwr true c x s
@[simp] theorem raise_tap (c : Byte) (x : FaultCtx) (s : State) : (raise c x s).tap = s.tap := noteError_tap true c x s
@[simp] theorem raise_undo (c : Byte) (x : FaultCtx) (s : State) : (raise c x s).undo = s.undo := noteError_undo true c x s
@[simp] theorem raise_free (c : Byte) (x : FaultCtx) (s : State) : (raise c x s).free = s.free := noteError_free true c x s
@[simp] theorem raise_pending (c : Byte) (x : FaultCtx) (s : State) : (raise c x s).pending = s.pending := noteError_pending true c x s

/-! ## logError -/

@[simp] theorem logError_cfg (c : Byte) (x : FaultCtx) (s : State) : (logError c x s).cfg = s.cfg := noteError_cfg false c x s
@[simp] theorem logError_straps (c : Byte) (x : FaultCtx) (s : State) : (logError c x s).straps = s.straps := noteError_straps false c x s
@[simp] theorem logError_strapPins (c : Byte) (x : FaultCtx) (s : State) : (logError c x s).strapPins = s.strapPins := noteError_strapPins false c x s
@[simp] theorem logError_pins (c : Byte) (x : FaultCtx) (s : State) : (logError c x s).pins = s.pins := noteError_pins false c x s
@[simp] theorem logError_out (c : Byte) (x : FaultCtx) (s : State) : (logError c x s).out = s.out := noteError_out false c x s
@[simp] theorem logError_clock (c : Byte) (x : FaultCtx) (s : State) : (logError c x s).clock = s.clock := noteError_clock false c x s
@[simp] theorem logError_rcv (c : Byte) (x : FaultCtx) (s : State) : (logError c x s).rcv = s.rcv := noteError_rcv false c x s
@[simp] theorem logError_issue (c : Byte) (x : FaultCtx) (s : State) : (logError c x s).issue = s.issue := noteError_issue false c x s
@[simp] theorem logError_q (c : Byte) (x : FaultCtx) (s : State) : (logError c x s).q = s.q := noteError_q false c x s
@[simp] theorem logError_live (c : Byte) (x : FaultCtx) (s : State) : (logError c x s).live = s.live := noteError_live false c x s
@[simp] theorem logError_gates (c : Byte) (x : FaultCtx) (s : State) : (logError c x s).gates = s.gates := noteError_gates false c x s
@[simp] theorem logError_started (c : Byte) (x : FaultCtx) (s : State) : (logError c x s).started = s.started := noteError_started false c x s
@[simp] theorem logError_mxa (c : Byte) (x : FaultCtx) (s : State) : (logError c x s).mxa = s.mxa := noteError_mxa false c x s
@[simp] theorem logError_mxb (c : Byte) (x : FaultCtx) (s : State) : (logError c x s).mxb = s.mxb := noteError_mxb false c x s
@[simp] theorem logError_turn (c : Byte) (x : FaultCtx) (s : State) : (logError c x s).turn = s.turn := noteError_turn false c x s
@[simp] theorem logError_vec (c : Byte) (x : FaultCtx) (s : State) : (logError c x s).vec = s.vec := noteError_vec false c x s
@[simp] theorem logError_ocache (c : Byte) (x : FaultCtx) (s : State) : (logError c x s).ocache = s.ocache := noteError_ocache false c x s
@[simp] theorem logError_ocUpset (c : Byte) (x : FaultCtx) (s : State) : (logError c x s).ocUpset = s.ocUpset := noteError_ocUpset false c x s
@[simp] theorem logError_flagUpset (c : Byte) (x : FaultCtx) (s : State) : (logError c x s).flagUpset = s.flagUpset := noteError_flagUpset false c x s
@[simp] theorem logError_descUpset (c : Byte) (x : FaultCtx) (s : State) : (logError c x s).descUpset = s.descUpset := noteError_descUpset false c x s
@[simp] theorem logError_routeUpset (c : Byte) (x : FaultCtx) (s : State) : (logError c x s).routeUpset = s.routeUpset := noteError_routeUpset false c x s
@[simp] theorem logError_imgUpset (c : Byte) (x : FaultCtx) (s : State) : (logError c x s).imgUpset = s.imgUpset := noteError_imgUpset false c x s
@[simp] theorem logError_rsu (c : Byte) (x : FaultCtx) (s : State) : (logError c x s).rsu = s.rsu := noteError_rsu false c x s
@[simp] theorem logError_crs (c : Byte) (x : FaultCtx) (s : State) : (logError c x s).crs = s.crs := noteError_crs false c x s
@[simp] theorem logError_mov (c : Byte) (x : FaultCtx) (s : State) : (logError c x s).mov = s.mov := noteError_mov false c x s
@[simp] theorem logError_syn (c : Byte) (x : FaultCtx) (s : State) : (logError c x s).syn = s.syn := noteError_syn false c x s
@[simp] theorem logError_scl (c : Byte) (x : FaultCtx) (s : State) : (logError c x s).scl = s.scl := noteError_scl false c x s
@[simp] theorem logError_chans (c : Byte) (x : FaultCtx) (s : State) : (logError c x s).chans = s.chans := noteError_chans false c x s
@[simp] theorem logError_pool (c : Byte) (x : FaultCtx) (s : State) : (logError c x s).pool = s.pool := noteError_pool false c x s
@[simp] theorem logError_sregs (c : Byte) (x : FaultCtx) (s : State) : (logError c x s).sregs = s.sregs := noteError_sregs false c x s
@[simp] theorem logError_s63 (c : Byte) (x : FaultCtx) (s : State) : (logError c x s).s63 = s.s63 := noteError_s63 false c x s
@[simp] theorem logError_descs (c : Byte) (x : FaultCtx) (s : State) : (logError c x s).descs = s.descs := noteError_descs false c x s
@[simp] theorem logError_scales (c : Byte) (x : FaultCtx) (s : State) : (logError c x s).scales = s.scales := noteError_scales false c x s
@[simp] theorem logError_scaleNow (c : Byte) (x : FaultCtx) (s : State) : (logError c x s).scaleNow = s.scaleNow := noteError_scaleNow false c x s
@[simp] theorem logError_flags (c : Byte) (x : FaultCtx) (s : State) : (logError c x s).flags = s.flags := noteError_flags false c x s
@[simp] theorem logError_flagOld (c : Byte) (x : FaultCtx) (s : State) : (logError c x s).flagOld = s.flagOld := noteError_flagOld false c x s
@[simp] theorem logError_fab (c : Byte) (x : FaultCtx) (s : State) : (logError c x s).fab = s.fab := noteError_fab false c x s
@[simp] theorem logError_job (c : Byte) (x : FaultCtx) (s : State) : (logError c x s).job = s.job := noteError_job false c x s
@[simp] theorem logError_own (c : Byte) (x : FaultCtx) (s : State) : (logError c x s).own = s.own := noteError_own false c x s
@[simp] theorem logError_sb (c : Byte) (x : FaultCtx) (s : State) : (logError c x s).sb = s.sb := noteError_sb false c x s
@[simp] theorem logError_dbg (c : Byte) (x : FaultCtx) (s : State) : (logError c x s).dbg = s.dbg := noteError_dbg false c x s
@[simp] theorem logError_img (c : Byte) (x : FaultCtx) (s : State) : (logError c x s).img = s.img := noteError_img false c x s
@[simp] theorem logError_cnt (c : Byte) (x : FaultCtx) (s : State) : (logError c x s).cnt = s.cnt := noteError_cnt false c x s
@[simp] theorem logError_sync (c : Byte) (x : FaultCtx) (s : State) : (logError c x s).sync = s.sync := noteError_sync false c x s
@[simp] theorem logError_ckpt (c : Byte) (x : FaultCtx) (s : State) : (logError c x s).ckpt = s.ckpt := noteError_ckpt false c x s
@[simp] theorem logError_st (c : Byte) (x : FaultCtx) (s : State) : (logError c x s).st = s.st := noteError_st false c x s
@[simp] theorem logError_rst (c : Byte) (x : FaultCtx) (s : State) : (logError c x s).rst = s.rst := noteError_rst false c x s
@[simp] theorem logError_trim (c : Byte) (x : FaultCtx) (s : State) : (logError c x s).trim = s.trim := noteError_trim false c x s
@[simp] theorem logError_pwr (c : Byte) (x : FaultCtx) (s : State) : (logError c x s).pwr = s.pwr := noteError_pwr false c x s
@[simp] theorem logError_tap (c : Byte) (x : FaultCtx) (s : State) : (logError c x s).tap = s.tap := noteError_tap false c x s
@[simp] theorem logError_undo (c : Byte) (x : FaultCtx) (s : State) : (logError c x s).undo = s.undo := noteError_undo false c x s
@[simp] theorem logError_free (c : Byte) (x : FaultCtx) (s : State) : (logError c x s).free = s.free := noteError_free false c x s
@[simp] theorem logError_pending (c : Byte) (x : FaultCtx) (s : State) : (logError c x s).pending = s.pending := noteError_pending false c x s

/-! ## touch -/

@[simp] theorem touch_cfg (s : State) : (touch s).cfg = s.cfg := rfl
@[simp] theorem touch_straps (s : State) : (touch s).straps = s.straps := rfl
@[simp] theorem touch_strapPins (s : State) : (touch s).strapPins = s.strapPins := rfl
@[simp] theorem touch_pins (s : State) : (touch s).pins = s.pins := rfl
@[simp] theorem touch_out (s : State) : (touch s).out = s.out := rfl
@[simp] theorem touch_clock (s : State) : (touch s).clock = s.clock := rfl
@[simp] theorem touch_rcv (s : State) : (touch s).rcv = s.rcv := rfl
@[simp] theorem touch_issue (s : State) : (touch s).issue = s.issue := rfl
@[simp] theorem touch_q (s : State) : (touch s).q = s.q := rfl
@[simp] theorem touch_live (s : State) : (touch s).live = s.live := rfl
@[simp] theorem touch_gates (s : State) : (touch s).gates = s.gates := rfl
@[simp] theorem touch_started (s : State) : (touch s).started = s.started := rfl
@[simp] theorem touch_mxa (s : State) : (touch s).mxa = s.mxa := rfl
@[simp] theorem touch_mxb (s : State) : (touch s).mxb = s.mxb := rfl
@[simp] theorem touch_turn (s : State) : (touch s).turn = s.turn := rfl
@[simp] theorem touch_vec (s : State) : (touch s).vec = s.vec := rfl
@[simp] theorem touch_ocache (s : State) : (touch s).ocache = s.ocache := rfl
@[simp] theorem touch_ocUpset (s : State) : (touch s).ocUpset = s.ocUpset := rfl
@[simp] theorem touch_flagUpset (s : State) : (touch s).flagUpset = s.flagUpset := rfl
@[simp] theorem touch_descUpset (s : State) : (touch s).descUpset = s.descUpset := rfl
@[simp] theorem touch_routeUpset (s : State) : (touch s).routeUpset = s.routeUpset := rfl
@[simp] theorem touch_imgUpset (s : State) : (touch s).imgUpset = s.imgUpset := rfl
@[simp] theorem touch_rsu (s : State) : (touch s).rsu = s.rsu := rfl
@[simp] theorem touch_crs (s : State) : (touch s).crs = s.crs := rfl
@[simp] theorem touch_mov (s : State) : (touch s).mov = s.mov := rfl
@[simp] theorem touch_syn (s : State) : (touch s).syn = s.syn := rfl
@[simp] theorem touch_scl (s : State) : (touch s).scl = s.scl := rfl
@[simp] theorem touch_chans (s : State) : (touch s).chans = s.chans := rfl
@[simp] theorem touch_pool (s : State) : (touch s).pool = s.pool := rfl
@[simp] theorem touch_sregs (s : State) : (touch s).sregs = s.sregs := rfl
@[simp] theorem touch_s63 (s : State) : (touch s).s63 = s.s63 := rfl
@[simp] theorem touch_descs (s : State) : (touch s).descs = s.descs := rfl
@[simp] theorem touch_scales (s : State) : (touch s).scales = s.scales := rfl
@[simp] theorem touch_scaleNow (s : State) : (touch s).scaleNow = s.scaleNow := rfl
@[simp] theorem touch_flags (s : State) : (touch s).flags = s.flags := rfl
@[simp] theorem touch_flagOld (s : State) : (touch s).flagOld = s.flagOld := rfl
@[simp] theorem touch_fab (s : State) : (touch s).fab = s.fab := rfl
@[simp] theorem touch_job (s : State) : (touch s).job = s.job := rfl
@[simp] theorem touch_own (s : State) : (touch s).own = s.own := rfl
@[simp] theorem touch_sb (s : State) : (touch s).sb = s.sb := rfl
@[simp] theorem touch_dbg (s : State) : (touch s).dbg = s.dbg := rfl
@[simp] theorem touch_img (s : State) : (touch s).img = s.img := rfl
@[simp] theorem touch_cnt (s : State) : (touch s).cnt = s.cnt := rfl
@[simp] theorem touch_err (s : State) : (touch s).err = s.err := rfl
@[simp] theorem touch_ckpt (s : State) : (touch s).ckpt = s.ckpt := rfl
@[simp] theorem touch_st (s : State) : (touch s).st = s.st := rfl
@[simp] theorem touch_rst (s : State) : (touch s).rst = s.rst := rfl
@[simp] theorem touch_trim (s : State) : (touch s).trim = s.trim := rfl
@[simp] theorem touch_pwr (s : State) : (touch s).pwr = s.pwr := rfl
@[simp] theorem touch_tap (s : State) : (touch s).tap = s.tap := rfl
@[simp] theorem touch_undo (s : State) : (touch s).undo = s.undo := rfl
@[simp] theorem touch_free (s : State) : (touch s).free = s.free := rfl
@[simp] theorem touch_pending (s : State) : (touch s).pending = s.pending := rfl

/-! ## complete -/

@[simp] theorem complete_cfg (id : Nat) (s : State) : (complete id s).cfg = s.cfg := rfl
@[simp] theorem complete_straps (id : Nat) (s : State) : (complete id s).straps = s.straps := rfl
@[simp] theorem complete_strapPins (id : Nat) (s : State) : (complete id s).strapPins = s.strapPins := rfl
@[simp] theorem complete_pins (id : Nat) (s : State) : (complete id s).pins = s.pins := rfl
@[simp] theorem complete_out (id : Nat) (s : State) : (complete id s).out = s.out := rfl
@[simp] theorem complete_clock (id : Nat) (s : State) : (complete id s).clock = s.clock := rfl
@[simp] theorem complete_rcv (id : Nat) (s : State) : (complete id s).rcv = s.rcv := rfl
@[simp] theorem complete_issue (id : Nat) (s : State) : (complete id s).issue = s.issue := rfl
@[simp] theorem complete_q (id : Nat) (s : State) : (complete id s).q = s.q := rfl
@[simp] theorem complete_gates (id : Nat) (s : State) : (complete id s).gates = s.gates := rfl
@[simp] theorem complete_started (id : Nat) (s : State) : (complete id s).started = s.started := rfl
@[simp] theorem complete_mxa (id : Nat) (s : State) : (complete id s).mxa = s.mxa := rfl
@[simp] theorem complete_mxb (id : Nat) (s : State) : (complete id s).mxb = s.mxb := rfl
@[simp] theorem complete_turn (id : Nat) (s : State) : (complete id s).turn = s.turn := rfl
@[simp] theorem complete_vec (id : Nat) (s : State) : (complete id s).vec = s.vec := rfl
@[simp] theorem complete_ocache (id : Nat) (s : State) : (complete id s).ocache = s.ocache := rfl
@[simp] theorem complete_ocUpset (id : Nat) (s : State) : (complete id s).ocUpset = s.ocUpset := rfl
@[simp] theorem complete_flagUpset (id : Nat) (s : State) : (complete id s).flagUpset = s.flagUpset := rfl
@[simp] theorem complete_descUpset (id : Nat) (s : State) : (complete id s).descUpset = s.descUpset := rfl
@[simp] theorem complete_routeUpset (id : Nat) (s : State) : (complete id s).routeUpset = s.routeUpset := rfl
@[simp] theorem complete_imgUpset (id : Nat) (s : State) : (complete id s).imgUpset = s.imgUpset := rfl
@[simp] theorem complete_rsu (id : Nat) (s : State) : (complete id s).rsu = s.rsu := rfl
@[simp] theorem complete_crs (id : Nat) (s : State) : (complete id s).crs = s.crs := rfl
@[simp] theorem complete_mov (id : Nat) (s : State) : (complete id s).mov = s.mov := rfl
@[simp] theorem complete_syn (id : Nat) (s : State) : (complete id s).syn = s.syn := rfl
@[simp] theorem complete_scl (id : Nat) (s : State) : (complete id s).scl = s.scl := rfl
@[simp] theorem complete_chans (id : Nat) (s : State) : (complete id s).chans = s.chans := rfl
@[simp] theorem complete_pool (id : Nat) (s : State) : (complete id s).pool = s.pool := rfl
@[simp] theorem complete_sregs (id : Nat) (s : State) : (complete id s).sregs = s.sregs := rfl
@[simp] theorem complete_s63 (id : Nat) (s : State) : (complete id s).s63 = s.s63 := rfl
@[simp] theorem complete_descs (id : Nat) (s : State) : (complete id s).descs = s.descs := rfl
@[simp] theorem complete_scales (id : Nat) (s : State) : (complete id s).scales = s.scales := rfl
@[simp] theorem complete_scaleNow (id : Nat) (s : State) : (complete id s).scaleNow = s.scaleNow := rfl
@[simp] theorem complete_flags (id : Nat) (s : State) : (complete id s).flags = s.flags := rfl
@[simp] theorem complete_flagOld (id : Nat) (s : State) : (complete id s).flagOld = s.flagOld := rfl
@[simp] theorem complete_fab (id : Nat) (s : State) : (complete id s).fab = s.fab := rfl
@[simp] theorem complete_job (id : Nat) (s : State) : (complete id s).job = s.job := rfl
@[simp] theorem complete_own (id : Nat) (s : State) : (complete id s).own = s.own := rfl
@[simp] theorem complete_sb (id : Nat) (s : State) : (complete id s).sb = s.sb := rfl
@[simp] theorem complete_dbg (id : Nat) (s : State) : (complete id s).dbg = s.dbg := rfl
@[simp] theorem complete_img (id : Nat) (s : State) : (complete id s).img = s.img := rfl
@[simp] theorem complete_cnt (id : Nat) (s : State) : (complete id s).cnt = s.cnt := rfl
@[simp] theorem complete_err (id : Nat) (s : State) : (complete id s).err = s.err := rfl
@[simp] theorem complete_sync (id : Nat) (s : State) : (complete id s).sync = s.sync := rfl
@[simp] theorem complete_ckpt (id : Nat) (s : State) : (complete id s).ckpt = s.ckpt := rfl
@[simp] theorem complete_st (id : Nat) (s : State) : (complete id s).st = s.st := rfl
@[simp] theorem complete_rst (id : Nat) (s : State) : (complete id s).rst = s.rst := rfl
@[simp] theorem complete_trim (id : Nat) (s : State) : (complete id s).trim = s.trim := rfl
@[simp] theorem complete_pwr (id : Nat) (s : State) : (complete id s).pwr = s.pwr := rfl
@[simp] theorem complete_tap (id : Nat) (s : State) : (complete id s).tap = s.tap := rfl
@[simp] theorem complete_undo (id : Nat) (s : State) : (complete id s).undo = s.undo := rfl
@[simp] theorem complete_free (id : Nat) (s : State) : (complete id s).free = s.free := rfl
@[simp] theorem complete_pending (id : Nat) (s : State) : (complete id s).pending = s.pending := rfl

/-! ## setQ -/

@[simp] theorem setQ_cfg (i : Nat) (l : List Entry) (s : State) : (setQ i l s).cfg = s.cfg := by unfold setQ; split <;> rfl
@[simp] theorem setQ_straps (i : Nat) (l : List Entry) (s : State) : (setQ i l s).straps = s.straps := by unfold setQ; split <;> rfl
@[simp] theorem setQ_strapPins (i : Nat) (l : List Entry) (s : State) : (setQ i l s).strapPins = s.strapPins := by unfold setQ; split <;> rfl
@[simp] theorem setQ_pins (i : Nat) (l : List Entry) (s : State) : (setQ i l s).pins = s.pins := by unfold setQ; split <;> rfl
@[simp] theorem setQ_out (i : Nat) (l : List Entry) (s : State) : (setQ i l s).out = s.out := by unfold setQ; split <;> rfl
@[simp] theorem setQ_clock (i : Nat) (l : List Entry) (s : State) : (setQ i l s).clock = s.clock := by unfold setQ; split <;> rfl
@[simp] theorem setQ_rcv (i : Nat) (l : List Entry) (s : State) : (setQ i l s).rcv = s.rcv := by unfold setQ; split <;> rfl
@[simp] theorem setQ_issue (i : Nat) (l : List Entry) (s : State) : (setQ i l s).issue = s.issue := by unfold setQ; split <;> rfl
@[simp] theorem setQ_live (i : Nat) (l : List Entry) (s : State) : (setQ i l s).live = s.live := by unfold setQ; split <;> rfl
@[simp] theorem setQ_gates (i : Nat) (l : List Entry) (s : State) : (setQ i l s).gates = s.gates := by unfold setQ; split <;> rfl
@[simp] theorem setQ_started (i : Nat) (l : List Entry) (s : State) : (setQ i l s).started = s.started := by unfold setQ; split <;> rfl
@[simp] theorem setQ_mxa (i : Nat) (l : List Entry) (s : State) : (setQ i l s).mxa = s.mxa := by unfold setQ; split <;> rfl
@[simp] theorem setQ_mxb (i : Nat) (l : List Entry) (s : State) : (setQ i l s).mxb = s.mxb := by unfold setQ; split <;> rfl
@[simp] theorem setQ_turn (i : Nat) (l : List Entry) (s : State) : (setQ i l s).turn = s.turn := by unfold setQ; split <;> rfl
@[simp] theorem setQ_vec (i : Nat) (l : List Entry) (s : State) : (setQ i l s).vec = s.vec := by unfold setQ; split <;> rfl
@[simp] theorem setQ_ocache (i : Nat) (l : List Entry) (s : State) : (setQ i l s).ocache = s.ocache := by unfold setQ; split <;> rfl
@[simp] theorem setQ_ocUpset (i : Nat) (l : List Entry) (s : State) : (setQ i l s).ocUpset = s.ocUpset := by unfold setQ; split <;> rfl
@[simp] theorem setQ_flagUpset (i : Nat) (l : List Entry) (s : State) : (setQ i l s).flagUpset = s.flagUpset := by unfold setQ; split <;> rfl
@[simp] theorem setQ_descUpset (i : Nat) (l : List Entry) (s : State) : (setQ i l s).descUpset = s.descUpset := by unfold setQ; split <;> rfl
@[simp] theorem setQ_routeUpset (i : Nat) (l : List Entry) (s : State) : (setQ i l s).routeUpset = s.routeUpset := by unfold setQ; split <;> rfl
@[simp] theorem setQ_imgUpset (i : Nat) (l : List Entry) (s : State) : (setQ i l s).imgUpset = s.imgUpset := by unfold setQ; split <;> rfl
@[simp] theorem setQ_rsu (i : Nat) (l : List Entry) (s : State) : (setQ i l s).rsu = s.rsu := by unfold setQ; split <;> rfl
@[simp] theorem setQ_crs (i : Nat) (l : List Entry) (s : State) : (setQ i l s).crs = s.crs := by unfold setQ; split <;> rfl
@[simp] theorem setQ_mov (i : Nat) (l : List Entry) (s : State) : (setQ i l s).mov = s.mov := by unfold setQ; split <;> rfl
@[simp] theorem setQ_syn (i : Nat) (l : List Entry) (s : State) : (setQ i l s).syn = s.syn := by unfold setQ; split <;> rfl
@[simp] theorem setQ_scl (i : Nat) (l : List Entry) (s : State) : (setQ i l s).scl = s.scl := by unfold setQ; split <;> rfl
@[simp] theorem setQ_chans (i : Nat) (l : List Entry) (s : State) : (setQ i l s).chans = s.chans := by unfold setQ; split <;> rfl
@[simp] theorem setQ_pool (i : Nat) (l : List Entry) (s : State) : (setQ i l s).pool = s.pool := by unfold setQ; split <;> rfl
@[simp] theorem setQ_sregs (i : Nat) (l : List Entry) (s : State) : (setQ i l s).sregs = s.sregs := by unfold setQ; split <;> rfl
@[simp] theorem setQ_s63 (i : Nat) (l : List Entry) (s : State) : (setQ i l s).s63 = s.s63 := by unfold setQ; split <;> rfl
@[simp] theorem setQ_descs (i : Nat) (l : List Entry) (s : State) : (setQ i l s).descs = s.descs := by unfold setQ; split <;> rfl
@[simp] theorem setQ_scales (i : Nat) (l : List Entry) (s : State) : (setQ i l s).scales = s.scales := by unfold setQ; split <;> rfl
@[simp] theorem setQ_scaleNow (i : Nat) (l : List Entry) (s : State) : (setQ i l s).scaleNow = s.scaleNow := by unfold setQ; split <;> rfl
@[simp] theorem setQ_flags (i : Nat) (l : List Entry) (s : State) : (setQ i l s).flags = s.flags := by unfold setQ; split <;> rfl
@[simp] theorem setQ_flagOld (i : Nat) (l : List Entry) (s : State) : (setQ i l s).flagOld = s.flagOld := by unfold setQ; split <;> rfl
@[simp] theorem setQ_fab (i : Nat) (l : List Entry) (s : State) : (setQ i l s).fab = s.fab := by unfold setQ; split <;> rfl
@[simp] theorem setQ_job (i : Nat) (l : List Entry) (s : State) : (setQ i l s).job = s.job := by unfold setQ; split <;> rfl
@[simp] theorem setQ_own (i : Nat) (l : List Entry) (s : State) : (setQ i l s).own = s.own := by unfold setQ; split <;> rfl
@[simp] theorem setQ_sb (i : Nat) (l : List Entry) (s : State) : (setQ i l s).sb = s.sb := by unfold setQ; split <;> rfl
@[simp] theorem setQ_dbg (i : Nat) (l : List Entry) (s : State) : (setQ i l s).dbg = s.dbg := by unfold setQ; split <;> rfl
@[simp] theorem setQ_img (i : Nat) (l : List Entry) (s : State) : (setQ i l s).img = s.img := by unfold setQ; split <;> rfl
@[simp] theorem setQ_cnt (i : Nat) (l : List Entry) (s : State) : (setQ i l s).cnt = s.cnt := by unfold setQ; split <;> rfl
@[simp] theorem setQ_err (i : Nat) (l : List Entry) (s : State) : (setQ i l s).err = s.err := by unfold setQ; split <;> rfl
@[simp] theorem setQ_sync (i : Nat) (l : List Entry) (s : State) : (setQ i l s).sync = s.sync := by unfold setQ; split <;> rfl
@[simp] theorem setQ_ckpt (i : Nat) (l : List Entry) (s : State) : (setQ i l s).ckpt = s.ckpt := by unfold setQ; split <;> rfl
@[simp] theorem setQ_st (i : Nat) (l : List Entry) (s : State) : (setQ i l s).st = s.st := by unfold setQ; split <;> rfl
@[simp] theorem setQ_rst (i : Nat) (l : List Entry) (s : State) : (setQ i l s).rst = s.rst := by unfold setQ; split <;> rfl
@[simp] theorem setQ_trim (i : Nat) (l : List Entry) (s : State) : (setQ i l s).trim = s.trim := by unfold setQ; split <;> rfl
@[simp] theorem setQ_pwr (i : Nat) (l : List Entry) (s : State) : (setQ i l s).pwr = s.pwr := by unfold setQ; split <;> rfl
@[simp] theorem setQ_tap (i : Nat) (l : List Entry) (s : State) : (setQ i l s).tap = s.tap := by unfold setQ; split <;> rfl
@[simp] theorem setQ_undo (i : Nat) (l : List Entry) (s : State) : (setQ i l s).undo = s.undo := by unfold setQ; split <;> rfl
@[simp] theorem setQ_free (i : Nat) (l : List Entry) (s : State) : (setQ i l s).free = s.free := by unfold setQ; split <;> rfl
@[simp] theorem setQ_pending (i : Nat) (l : List Entry) (s : State) : (setQ i l s).pending = s.pending := by unfold setQ; split <;> rfl

/-! ## setChan -/

@[simp] theorem setChan_cfg (c : Nat) (x : Chan) (s : State) : (setChan c x s).cfg = s.cfg := rfl
@[simp] theorem setChan_straps (c : Nat) (x : Chan) (s : State) : (setChan c x s).straps = s.straps := rfl
@[simp] theorem setChan_strapPins (c : Nat) (x : Chan) (s : State) : (setChan c x s).strapPins = s.strapPins := rfl
@[simp] theorem setChan_pins (c : Nat) (x : Chan) (s : State) : (setChan c x s).pins = s.pins := rfl
@[simp] theorem setChan_out (c : Nat) (x : Chan) (s : State) : (setChan c x s).out = s.out := rfl
@[simp] theorem setChan_clock (c : Nat) (x : Chan) (s : State) : (setChan c x s).clock = s.clock := rfl
@[simp] theorem setChan_rcv (c : Nat) (x : Chan) (s : State) : (setChan c x s).rcv = s.rcv := rfl
@[simp] theorem setChan_issue (c : Nat) (x : Chan) (s : State) : (setChan c x s).issue = s.issue := rfl
@[simp] theorem setChan_q (c : Nat) (x : Chan) (s : State) : (setChan c x s).q = s.q := rfl
@[simp] theorem setChan_live (c : Nat) (x : Chan) (s : State) : (setChan c x s).live = s.live := rfl
@[simp] theorem setChan_gates (c : Nat) (x : Chan) (s : State) : (setChan c x s).gates = s.gates := rfl
@[simp] theorem setChan_started (c : Nat) (x : Chan) (s : State) : (setChan c x s).started = s.started := rfl
@[simp] theorem setChan_mxa (c : Nat) (x : Chan) (s : State) : (setChan c x s).mxa = s.mxa := rfl
@[simp] theorem setChan_mxb (c : Nat) (x : Chan) (s : State) : (setChan c x s).mxb = s.mxb := rfl
@[simp] theorem setChan_turn (c : Nat) (x : Chan) (s : State) : (setChan c x s).turn = s.turn := rfl
@[simp] theorem setChan_vec (c : Nat) (x : Chan) (s : State) : (setChan c x s).vec = s.vec := rfl
@[simp] theorem setChan_ocache (c : Nat) (x : Chan) (s : State) : (setChan c x s).ocache = s.ocache := rfl
@[simp] theorem setChan_ocUpset (c : Nat) (x : Chan) (s : State) : (setChan c x s).ocUpset = s.ocUpset := rfl
@[simp] theorem setChan_flagUpset (c : Nat) (x : Chan) (s : State) : (setChan c x s).flagUpset = s.flagUpset := rfl
@[simp] theorem setChan_descUpset (c : Nat) (x : Chan) (s : State) : (setChan c x s).descUpset = s.descUpset := rfl
@[simp] theorem setChan_routeUpset (c : Nat) (x : Chan) (s : State) : (setChan c x s).routeUpset = s.routeUpset := rfl
@[simp] theorem setChan_imgUpset (c : Nat) (x : Chan) (s : State) : (setChan c x s).imgUpset = s.imgUpset := rfl
@[simp] theorem setChan_rsu (c : Nat) (x : Chan) (s : State) : (setChan c x s).rsu = s.rsu := rfl
@[simp] theorem setChan_crs (c : Nat) (x : Chan) (s : State) : (setChan c x s).crs = s.crs := rfl
@[simp] theorem setChan_mov (c : Nat) (x : Chan) (s : State) : (setChan c x s).mov = s.mov := rfl
@[simp] theorem setChan_syn (c : Nat) (x : Chan) (s : State) : (setChan c x s).syn = s.syn := rfl
@[simp] theorem setChan_scl (c : Nat) (x : Chan) (s : State) : (setChan c x s).scl = s.scl := rfl
@[simp] theorem setChan_pool (c : Nat) (x : Chan) (s : State) : (setChan c x s).pool = s.pool := rfl
@[simp] theorem setChan_sregs (c : Nat) (x : Chan) (s : State) : (setChan c x s).sregs = s.sregs := rfl
@[simp] theorem setChan_s63 (c : Nat) (x : Chan) (s : State) : (setChan c x s).s63 = s.s63 := rfl
@[simp] theorem setChan_descs (c : Nat) (x : Chan) (s : State) : (setChan c x s).descs = s.descs := rfl
@[simp] theorem setChan_scales (c : Nat) (x : Chan) (s : State) : (setChan c x s).scales = s.scales := rfl
@[simp] theorem setChan_scaleNow (c : Nat) (x : Chan) (s : State) : (setChan c x s).scaleNow = s.scaleNow := rfl
@[simp] theorem setChan_flags (c : Nat) (x : Chan) (s : State) : (setChan c x s).flags = s.flags := rfl
@[simp] theorem setChan_flagOld (c : Nat) (x : Chan) (s : State) : (setChan c x s).flagOld = s.flagOld := rfl
@[simp] theorem setChan_fab (c : Nat) (x : Chan) (s : State) : (setChan c x s).fab = s.fab := rfl
@[simp] theorem setChan_job (c : Nat) (x : Chan) (s : State) : (setChan c x s).job = s.job := rfl
@[simp] theorem setChan_own (c : Nat) (x : Chan) (s : State) : (setChan c x s).own = s.own := rfl
@[simp] theorem setChan_sb (c : Nat) (x : Chan) (s : State) : (setChan c x s).sb = s.sb := rfl
@[simp] theorem setChan_dbg (c : Nat) (x : Chan) (s : State) : (setChan c x s).dbg = s.dbg := rfl
@[simp] theorem setChan_img (c : Nat) (x : Chan) (s : State) : (setChan c x s).img = s.img := rfl
@[simp] theorem setChan_cnt (c : Nat) (x : Chan) (s : State) : (setChan c x s).cnt = s.cnt := rfl
@[simp] theorem setChan_err (c : Nat) (x : Chan) (s : State) : (setChan c x s).err = s.err := rfl
@[simp] theorem setChan_sync (c : Nat) (x : Chan) (s : State) : (setChan c x s).sync = s.sync := rfl
@[simp] theorem setChan_ckpt (c : Nat) (x : Chan) (s : State) : (setChan c x s).ckpt = s.ckpt := rfl
@[simp] theorem setChan_st (c : Nat) (x : Chan) (s : State) : (setChan c x s).st = s.st := rfl
@[simp] theorem setChan_rst (c : Nat) (x : Chan) (s : State) : (setChan c x s).rst = s.rst := rfl
@[simp] theorem setChan_trim (c : Nat) (x : Chan) (s : State) : (setChan c x s).trim = s.trim := rfl
@[simp] theorem setChan_pwr (c : Nat) (x : Chan) (s : State) : (setChan c x s).pwr = s.pwr := rfl
@[simp] theorem setChan_tap (c : Nat) (x : Chan) (s : State) : (setChan c x s).tap = s.tap := rfl
@[simp] theorem setChan_undo (c : Nat) (x : Chan) (s : State) : (setChan c x s).undo = s.undo := rfl
@[simp] theorem setChan_free (c : Nat) (x : Chan) (s : State) : (setChan c x s).free = s.free := rfl
@[simp] theorem setChan_pending (c : Nat) (x : Chan) (s : State) : (setChan c x s).pending = s.pending := rfl

/-! ## descSet -/

@[simp] theorem descSet_cfg (c n : Nat) (d : W8) (s : State) : (descSet c n d s).cfg = s.cfg := rfl
@[simp] theorem descSet_straps (c n : Nat) (d : W8) (s : State) : (descSet c n d s).straps = s.straps := rfl
@[simp] theorem descSet_strapPins (c n : Nat) (d : W8) (s : State) : (descSet c n d s).strapPins = s.strapPins := rfl
@[simp] theorem descSet_pins (c n : Nat) (d : W8) (s : State) : (descSet c n d s).pins = s.pins := rfl
@[simp] theorem descSet_out (c n : Nat) (d : W8) (s : State) : (descSet c n d s).out = s.out := rfl
@[simp] theorem descSet_clock (c n : Nat) (d : W8) (s : State) : (descSet c n d s).clock = s.clock := rfl
@[simp] theorem descSet_rcv (c n : Nat) (d : W8) (s : State) : (descSet c n d s).rcv = s.rcv := rfl
@[simp] theorem descSet_issue (c n : Nat) (d : W8) (s : State) : (descSet c n d s).issue = s.issue := rfl
@[simp] theorem descSet_q (c n : Nat) (d : W8) (s : State) : (descSet c n d s).q = s.q := rfl
@[simp] theorem descSet_live (c n : Nat) (d : W8) (s : State) : (descSet c n d s).live = s.live := rfl
@[simp] theorem descSet_gates (c n : Nat) (d : W8) (s : State) : (descSet c n d s).gates = s.gates := rfl
@[simp] theorem descSet_started (c n : Nat) (d : W8) (s : State) : (descSet c n d s).started = s.started := rfl
@[simp] theorem descSet_mxa (c n : Nat) (d : W8) (s : State) : (descSet c n d s).mxa = s.mxa := rfl
@[simp] theorem descSet_mxb (c n : Nat) (d : W8) (s : State) : (descSet c n d s).mxb = s.mxb := rfl
@[simp] theorem descSet_turn (c n : Nat) (d : W8) (s : State) : (descSet c n d s).turn = s.turn := rfl
@[simp] theorem descSet_vec (c n : Nat) (d : W8) (s : State) : (descSet c n d s).vec = s.vec := rfl
@[simp] theorem descSet_ocache (c n : Nat) (d : W8) (s : State) : (descSet c n d s).ocache = s.ocache := rfl
@[simp] theorem descSet_ocUpset (c n : Nat) (d : W8) (s : State) : (descSet c n d s).ocUpset = s.ocUpset := rfl
@[simp] theorem descSet_flagUpset (c n : Nat) (d : W8) (s : State) : (descSet c n d s).flagUpset = s.flagUpset := rfl
@[simp] theorem descSet_routeUpset (c n : Nat) (d : W8) (s : State) : (descSet c n d s).routeUpset = s.routeUpset := rfl
@[simp] theorem descSet_imgUpset (c n : Nat) (d : W8) (s : State) : (descSet c n d s).imgUpset = s.imgUpset := rfl
@[simp] theorem descSet_rsu (c n : Nat) (d : W8) (s : State) : (descSet c n d s).rsu = s.rsu := rfl
@[simp] theorem descSet_crs (c n : Nat) (d : W8) (s : State) : (descSet c n d s).crs = s.crs := rfl
@[simp] theorem descSet_mov (c n : Nat) (d : W8) (s : State) : (descSet c n d s).mov = s.mov := rfl
@[simp] theorem descSet_syn (c n : Nat) (d : W8) (s : State) : (descSet c n d s).syn = s.syn := rfl
@[simp] theorem descSet_scl (c n : Nat) (d : W8) (s : State) : (descSet c n d s).scl = s.scl := rfl
@[simp] theorem descSet_chans (c n : Nat) (d : W8) (s : State) : (descSet c n d s).chans = s.chans := rfl
@[simp] theorem descSet_pool (c n : Nat) (d : W8) (s : State) : (descSet c n d s).pool = s.pool := rfl
@[simp] theorem descSet_sregs (c n : Nat) (d : W8) (s : State) : (descSet c n d s).sregs = s.sregs := rfl
@[simp] theorem descSet_s63 (c n : Nat) (d : W8) (s : State) : (descSet c n d s).s63 = s.s63 := rfl
@[simp] theorem descSet_scales (c n : Nat) (d : W8) (s : State) : (descSet c n d s).scales = s.scales := rfl
@[simp] theorem descSet_scaleNow (c n : Nat) (d : W8) (s : State) : (descSet c n d s).scaleNow = s.scaleNow := rfl
@[simp] theorem descSet_flags (c n : Nat) (d : W8) (s : State) : (descSet c n d s).flags = s.flags := rfl
@[simp] theorem descSet_flagOld (c n : Nat) (d : W8) (s : State) : (descSet c n d s).flagOld = s.flagOld := rfl
@[simp] theorem descSet_fab (c n : Nat) (d : W8) (s : State) : (descSet c n d s).fab = s.fab := rfl
@[simp] theorem descSet_job (c n : Nat) (d : W8) (s : State) : (descSet c n d s).job = s.job := rfl
@[simp] theorem descSet_own (c n : Nat) (d : W8) (s : State) : (descSet c n d s).own = s.own := rfl
@[simp] theorem descSet_sb (c n : Nat) (d : W8) (s : State) : (descSet c n d s).sb = s.sb := rfl
@[simp] theorem descSet_dbg (c n : Nat) (d : W8) (s : State) : (descSet c n d s).dbg = s.dbg := rfl
@[simp] theorem descSet_img (c n : Nat) (d : W8) (s : State) : (descSet c n d s).img = s.img := rfl
@[simp] theorem descSet_cnt (c n : Nat) (d : W8) (s : State) : (descSet c n d s).cnt = s.cnt := rfl
@[simp] theorem descSet_err (c n : Nat) (d : W8) (s : State) : (descSet c n d s).err = s.err := rfl
@[simp] theorem descSet_sync (c n : Nat) (d : W8) (s : State) : (descSet c n d s).sync = s.sync := rfl
@[simp] theorem descSet_ckpt (c n : Nat) (d : W8) (s : State) : (descSet c n d s).ckpt = s.ckpt := rfl
@[simp] theorem descSet_st (c n : Nat) (d : W8) (s : State) : (descSet c n d s).st = s.st := rfl
@[simp] theorem descSet_rst (c n : Nat) (d : W8) (s : State) : (descSet c n d s).rst = s.rst := rfl
@[simp] theorem descSet_trim (c n : Nat) (d : W8) (s : State) : (descSet c n d s).trim = s.trim := rfl
@[simp] theorem descSet_pwr (c n : Nat) (d : W8) (s : State) : (descSet c n d s).pwr = s.pwr := rfl
@[simp] theorem descSet_tap (c n : Nat) (d : W8) (s : State) : (descSet c n d s).tap = s.tap := rfl
@[simp] theorem descSet_undo (c n : Nat) (d : W8) (s : State) : (descSet c n d s).undo = s.undo := rfl
@[simp] theorem descSet_free (c n : Nat) (d : W8) (s : State) : (descSet c n d s).free = s.free := rfl
@[simp] theorem descSet_pending (c n : Nat) (d : W8) (s : State) : (descSet c n d s).pending = s.pending := rfl

/-! ## scaleSet -/

@[simp] theorem scaleSet_cfg (n : Nat) (r : ScaleRec) (s : State) : (scaleSet n r s).cfg = s.cfg := rfl
@[simp] theorem scaleSet_straps (n : Nat) (r : ScaleRec) (s : State) : (scaleSet n r s).straps = s.straps := rfl
@[simp] theorem scaleSet_strapPins (n : Nat) (r : ScaleRec) (s : State) : (scaleSet n r s).strapPins = s.strapPins := rfl
@[simp] theorem scaleSet_pins (n : Nat) (r : ScaleRec) (s : State) : (scaleSet n r s).pins = s.pins := rfl
@[simp] theorem scaleSet_out (n : Nat) (r : ScaleRec) (s : State) : (scaleSet n r s).out = s.out := rfl
@[simp] theorem scaleSet_clock (n : Nat) (r : ScaleRec) (s : State) : (scaleSet n r s).clock = s.clock := rfl
@[simp] theorem scaleSet_rcv (n : Nat) (r : ScaleRec) (s : State) : (scaleSet n r s).rcv = s.rcv := rfl
@[simp] theorem scaleSet_issue (n : Nat) (r : ScaleRec) (s : State) : (scaleSet n r s).issue = s.issue := rfl
@[simp] theorem scaleSet_q (n : Nat) (r : ScaleRec) (s : State) : (scaleSet n r s).q = s.q := rfl
@[simp] theorem scaleSet_live (n : Nat) (r : ScaleRec) (s : State) : (scaleSet n r s).live = s.live := rfl
@[simp] theorem scaleSet_gates (n : Nat) (r : ScaleRec) (s : State) : (scaleSet n r s).gates = s.gates := rfl
@[simp] theorem scaleSet_started (n : Nat) (r : ScaleRec) (s : State) : (scaleSet n r s).started = s.started := rfl
@[simp] theorem scaleSet_mxa (n : Nat) (r : ScaleRec) (s : State) : (scaleSet n r s).mxa = s.mxa := rfl
@[simp] theorem scaleSet_mxb (n : Nat) (r : ScaleRec) (s : State) : (scaleSet n r s).mxb = s.mxb := rfl
@[simp] theorem scaleSet_turn (n : Nat) (r : ScaleRec) (s : State) : (scaleSet n r s).turn = s.turn := rfl
@[simp] theorem scaleSet_vec (n : Nat) (r : ScaleRec) (s : State) : (scaleSet n r s).vec = s.vec := rfl
@[simp] theorem scaleSet_ocache (n : Nat) (r : ScaleRec) (s : State) : (scaleSet n r s).ocache = s.ocache := rfl
@[simp] theorem scaleSet_ocUpset (n : Nat) (r : ScaleRec) (s : State) : (scaleSet n r s).ocUpset = s.ocUpset := rfl
@[simp] theorem scaleSet_flagUpset (n : Nat) (r : ScaleRec) (s : State) : (scaleSet n r s).flagUpset = s.flagUpset := rfl
@[simp] theorem scaleSet_descUpset (n : Nat) (r : ScaleRec) (s : State) : (scaleSet n r s).descUpset = s.descUpset := rfl
@[simp] theorem scaleSet_routeUpset (n : Nat) (r : ScaleRec) (s : State) : (scaleSet n r s).routeUpset = s.routeUpset := rfl
@[simp] theorem scaleSet_imgUpset (n : Nat) (r : ScaleRec) (s : State) : (scaleSet n r s).imgUpset = s.imgUpset := rfl
@[simp] theorem scaleSet_rsu (n : Nat) (r : ScaleRec) (s : State) : (scaleSet n r s).rsu = s.rsu := rfl
@[simp] theorem scaleSet_crs (n : Nat) (r : ScaleRec) (s : State) : (scaleSet n r s).crs = s.crs := rfl
@[simp] theorem scaleSet_mov (n : Nat) (r : ScaleRec) (s : State) : (scaleSet n r s).mov = s.mov := rfl
@[simp] theorem scaleSet_syn (n : Nat) (r : ScaleRec) (s : State) : (scaleSet n r s).syn = s.syn := rfl
@[simp] theorem scaleSet_scl (n : Nat) (r : ScaleRec) (s : State) : (scaleSet n r s).scl = s.scl := rfl
@[simp] theorem scaleSet_chans (n : Nat) (r : ScaleRec) (s : State) : (scaleSet n r s).chans = s.chans := rfl
@[simp] theorem scaleSet_pool (n : Nat) (r : ScaleRec) (s : State) : (scaleSet n r s).pool = s.pool := rfl
@[simp] theorem scaleSet_sregs (n : Nat) (r : ScaleRec) (s : State) : (scaleSet n r s).sregs = s.sregs := rfl
@[simp] theorem scaleSet_s63 (n : Nat) (r : ScaleRec) (s : State) : (scaleSet n r s).s63 = s.s63 := rfl
@[simp] theorem scaleSet_descs (n : Nat) (r : ScaleRec) (s : State) : (scaleSet n r s).descs = s.descs := rfl
@[simp] theorem scaleSet_scaleNow (n : Nat) (r : ScaleRec) (s : State) : (scaleSet n r s).scaleNow = s.scaleNow := rfl
@[simp] theorem scaleSet_flags (n : Nat) (r : ScaleRec) (s : State) : (scaleSet n r s).flags = s.flags := rfl
@[simp] theorem scaleSet_flagOld (n : Nat) (r : ScaleRec) (s : State) : (scaleSet n r s).flagOld = s.flagOld := rfl
@[simp] theorem scaleSet_fab (n : Nat) (r : ScaleRec) (s : State) : (scaleSet n r s).fab = s.fab := rfl
@[simp] theorem scaleSet_job (n : Nat) (r : ScaleRec) (s : State) : (scaleSet n r s).job = s.job := rfl
@[simp] theorem scaleSet_own (n : Nat) (r : ScaleRec) (s : State) : (scaleSet n r s).own = s.own := rfl
@[simp] theorem scaleSet_sb (n : Nat) (r : ScaleRec) (s : State) : (scaleSet n r s).sb = s.sb := rfl
@[simp] theorem scaleSet_dbg (n : Nat) (r : ScaleRec) (s : State) : (scaleSet n r s).dbg = s.dbg := rfl
@[simp] theorem scaleSet_img (n : Nat) (r : ScaleRec) (s : State) : (scaleSet n r s).img = s.img := rfl
@[simp] theorem scaleSet_cnt (n : Nat) (r : ScaleRec) (s : State) : (scaleSet n r s).cnt = s.cnt := rfl
@[simp] theorem scaleSet_err (n : Nat) (r : ScaleRec) (s : State) : (scaleSet n r s).err = s.err := rfl
@[simp] theorem scaleSet_sync (n : Nat) (r : ScaleRec) (s : State) : (scaleSet n r s).sync = s.sync := rfl
@[simp] theorem scaleSet_ckpt (n : Nat) (r : ScaleRec) (s : State) : (scaleSet n r s).ckpt = s.ckpt := rfl
@[simp] theorem scaleSet_st (n : Nat) (r : ScaleRec) (s : State) : (scaleSet n r s).st = s.st := rfl
@[simp] theorem scaleSet_rst (n : Nat) (r : ScaleRec) (s : State) : (scaleSet n r s).rst = s.rst := rfl
@[simp] theorem scaleSet_trim (n : Nat) (r : ScaleRec) (s : State) : (scaleSet n r s).trim = s.trim := rfl
@[simp] theorem scaleSet_pwr (n : Nat) (r : ScaleRec) (s : State) : (scaleSet n r s).pwr = s.pwr := rfl
@[simp] theorem scaleSet_tap (n : Nat) (r : ScaleRec) (s : State) : (scaleSet n r s).tap = s.tap := rfl
@[simp] theorem scaleSet_undo (n : Nat) (r : ScaleRec) (s : State) : (scaleSet n r s).undo = s.undo := rfl
@[simp] theorem scaleSet_free (n : Nat) (r : ScaleRec) (s : State) : (scaleSet n r s).free = s.free := rfl
@[simp] theorem scaleSet_pending (n : Nat) (r : ScaleRec) (s : State) : (scaleSet n r s).pending = s.pending := rfl

/-! ## setSreg -/

@[simp] theorem setSreg_cfg (n : Nat) (v : Word) (s : State) : (setSreg n v s).cfg = s.cfg := by unfold setSreg; split <;> rfl
@[simp] theorem setSreg_straps (n : Nat) (v : Word) (s : State) : (setSreg n v s).straps = s.straps := by unfold setSreg; split <;> rfl
@[simp] theorem setSreg_strapPins (n : Nat) (v : Word) (s : State) : (setSreg n v s).strapPins = s.strapPins := by unfold setSreg; split <;> rfl
@[simp] theorem setSreg_pins (n : Nat) (v : Word) (s : State) : (setSreg n v s).pins = s.pins := by unfold setSreg; split <;> rfl
@[simp] theorem setSreg_out (n : Nat) (v : Word) (s : State) : (setSreg n v s).out = s.out := by unfold setSreg; split <;> rfl
@[simp] theorem setSreg_clock (n : Nat) (v : Word) (s : State) : (setSreg n v s).clock = s.clock := by unfold setSreg; split <;> rfl
@[simp] theorem setSreg_rcv (n : Nat) (v : Word) (s : State) : (setSreg n v s).rcv = s.rcv := by unfold setSreg; split <;> rfl
@[simp] theorem setSreg_issue (n : Nat) (v : Word) (s : State) : (setSreg n v s).issue = s.issue := by unfold setSreg; split <;> rfl
@[simp] theorem setSreg_q (n : Nat) (v : Word) (s : State) : (setSreg n v s).q = s.q := by unfold setSreg; split <;> rfl
@[simp] theorem setSreg_live (n : Nat) (v : Word) (s : State) : (setSreg n v s).live = s.live := by unfold setSreg; split <;> rfl
@[simp] theorem setSreg_gates (n : Nat) (v : Word) (s : State) : (setSreg n v s).gates = s.gates := by unfold setSreg; split <;> rfl
@[simp] theorem setSreg_started (n : Nat) (v : Word) (s : State) : (setSreg n v s).started = s.started := by unfold setSreg; split <;> rfl
@[simp] theorem setSreg_mxa (n : Nat) (v : Word) (s : State) : (setSreg n v s).mxa = s.mxa := by unfold setSreg; split <;> rfl
@[simp] theorem setSreg_mxb (n : Nat) (v : Word) (s : State) : (setSreg n v s).mxb = s.mxb := by unfold setSreg; split <;> rfl
@[simp] theorem setSreg_turn (n : Nat) (v : Word) (s : State) : (setSreg n v s).turn = s.turn := by unfold setSreg; split <;> rfl
@[simp] theorem setSreg_vec (n : Nat) (v : Word) (s : State) : (setSreg n v s).vec = s.vec := by unfold setSreg; split <;> rfl
@[simp] theorem setSreg_ocache (n : Nat) (v : Word) (s : State) : (setSreg n v s).ocache = s.ocache := by unfold setSreg; split <;> rfl
@[simp] theorem setSreg_ocUpset (n : Nat) (v : Word) (s : State) : (setSreg n v s).ocUpset = s.ocUpset := by unfold setSreg; split <;> rfl
@[simp] theorem setSreg_flagUpset (n : Nat) (v : Word) (s : State) : (setSreg n v s).flagUpset = s.flagUpset := by unfold setSreg; split <;> rfl
@[simp] theorem setSreg_descUpset (n : Nat) (v : Word) (s : State) : (setSreg n v s).descUpset = s.descUpset := by unfold setSreg; split <;> rfl
@[simp] theorem setSreg_routeUpset (n : Nat) (v : Word) (s : State) : (setSreg n v s).routeUpset = s.routeUpset := by unfold setSreg; split <;> rfl
@[simp] theorem setSreg_imgUpset (n : Nat) (v : Word) (s : State) : (setSreg n v s).imgUpset = s.imgUpset := by unfold setSreg; split <;> rfl
@[simp] theorem setSreg_rsu (n : Nat) (v : Word) (s : State) : (setSreg n v s).rsu = s.rsu := by unfold setSreg; split <;> rfl
@[simp] theorem setSreg_crs (n : Nat) (v : Word) (s : State) : (setSreg n v s).crs = s.crs := by unfold setSreg; split <;> rfl
@[simp] theorem setSreg_mov (n : Nat) (v : Word) (s : State) : (setSreg n v s).mov = s.mov := by unfold setSreg; split <;> rfl
@[simp] theorem setSreg_syn (n : Nat) (v : Word) (s : State) : (setSreg n v s).syn = s.syn := by unfold setSreg; split <;> rfl
@[simp] theorem setSreg_scl (n : Nat) (v : Word) (s : State) : (setSreg n v s).scl = s.scl := by unfold setSreg; split <;> rfl
@[simp] theorem setSreg_chans (n : Nat) (v : Word) (s : State) : (setSreg n v s).chans = s.chans := by unfold setSreg; split <;> rfl
@[simp] theorem setSreg_pool (n : Nat) (v : Word) (s : State) : (setSreg n v s).pool = s.pool := by unfold setSreg; split <;> rfl
@[simp] theorem setSreg_s63 (n : Nat) (v : Word) (s : State) : (setSreg n v s).s63 = s.s63 := by unfold setSreg; split <;> rfl
@[simp] theorem setSreg_descs (n : Nat) (v : Word) (s : State) : (setSreg n v s).descs = s.descs := by unfold setSreg; split <;> rfl
@[simp] theorem setSreg_scales (n : Nat) (v : Word) (s : State) : (setSreg n v s).scales = s.scales := by unfold setSreg; split <;> rfl
@[simp] theorem setSreg_scaleNow (n : Nat) (v : Word) (s : State) : (setSreg n v s).scaleNow = s.scaleNow := by unfold setSreg; split <;> rfl
@[simp] theorem setSreg_flags (n : Nat) (v : Word) (s : State) : (setSreg n v s).flags = s.flags := by unfold setSreg; split <;> rfl
@[simp] theorem setSreg_flagOld (n : Nat) (v : Word) (s : State) : (setSreg n v s).flagOld = s.flagOld := by unfold setSreg; split <;> rfl
@[simp] theorem setSreg_fab (n : Nat) (v : Word) (s : State) : (setSreg n v s).fab = s.fab := by unfold setSreg; split <;> rfl
@[simp] theorem setSreg_job (n : Nat) (v : Word) (s : State) : (setSreg n v s).job = s.job := by unfold setSreg; split <;> rfl
@[simp] theorem setSreg_own (n : Nat) (v : Word) (s : State) : (setSreg n v s).own = s.own := by unfold setSreg; split <;> rfl
@[simp] theorem setSreg_sb (n : Nat) (v : Word) (s : State) : (setSreg n v s).sb = s.sb := by unfold setSreg; split <;> rfl
@[simp] theorem setSreg_dbg (n : Nat) (v : Word) (s : State) : (setSreg n v s).dbg = s.dbg := by unfold setSreg; split <;> rfl
@[simp] theorem setSreg_img (n : Nat) (v : Word) (s : State) : (setSreg n v s).img = s.img := by unfold setSreg; split <;> rfl
@[simp] theorem setSreg_cnt (n : Nat) (v : Word) (s : State) : (setSreg n v s).cnt = s.cnt := by unfold setSreg; split <;> rfl
@[simp] theorem setSreg_err (n : Nat) (v : Word) (s : State) : (setSreg n v s).err = s.err := by unfold setSreg; split <;> rfl
@[simp] theorem setSreg_sync (n : Nat) (v : Word) (s : State) : (setSreg n v s).sync = s.sync := by unfold setSreg; split <;> rfl
@[simp] theorem setSreg_ckpt (n : Nat) (v : Word) (s : State) : (setSreg n v s).ckpt = s.ckpt := by unfold setSreg; split <;> rfl
@[simp] theorem setSreg_st (n : Nat) (v : Word) (s : State) : (setSreg n v s).st = s.st := by unfold setSreg; split <;> rfl
@[simp] theorem setSreg_rst (n : Nat) (v : Word) (s : State) : (setSreg n v s).rst = s.rst := by unfold setSreg; split <;> rfl
@[simp] theorem setSreg_trim (n : Nat) (v : Word) (s : State) : (setSreg n v s).trim = s.trim := by unfold setSreg; split <;> rfl
@[simp] theorem setSreg_pwr (n : Nat) (v : Word) (s : State) : (setSreg n v s).pwr = s.pwr := by unfold setSreg; split <;> rfl
@[simp] theorem setSreg_tap (n : Nat) (v : Word) (s : State) : (setSreg n v s).tap = s.tap := by unfold setSreg; split <;> rfl
@[simp] theorem setSreg_undo (n : Nat) (v : Word) (s : State) : (setSreg n v s).undo = s.undo := by unfold setSreg; split <;> rfl
@[simp] theorem setSreg_free (n : Nat) (v : Word) (s : State) : (setSreg n v s).free = s.free := by unfold setSreg; split <;> rfl
@[simp] theorem setSreg_pending (n : Nat) (v : Word) (s : State) : (setSreg n v s).pending = s.pending := by unfold setSreg; split <;> rfl

/-! ## setFlag -/

@[simp] theorem setFlag_cfg (f : Nat) (v : BitVec 16) (s : State) : (setFlag f v s).cfg = s.cfg := rfl
@[simp] theorem setFlag_straps (f : Nat) (v : BitVec 16) (s : State) : (setFlag f v s).straps = s.straps := rfl
@[simp] theorem setFlag_strapPins (f : Nat) (v : BitVec 16) (s : State) : (setFlag f v s).strapPins = s.strapPins := rfl
@[simp] theorem setFlag_pins (f : Nat) (v : BitVec 16) (s : State) : (setFlag f v s).pins = s.pins := rfl
@[simp] theorem setFlag_out (f : Nat) (v : BitVec 16) (s : State) : (setFlag f v s).out = s.out := rfl
@[simp] theorem setFlag_clock (f : Nat) (v : BitVec 16) (s : State) : (setFlag f v s).clock = s.clock := rfl
@[simp] theorem setFlag_rcv (f : Nat) (v : BitVec 16) (s : State) : (setFlag f v s).rcv = s.rcv := rfl
@[simp] theorem setFlag_issue (f : Nat) (v : BitVec 16) (s : State) : (setFlag f v s).issue = s.issue := rfl
@[simp] theorem setFlag_q (f : Nat) (v : BitVec 16) (s : State) : (setFlag f v s).q = s.q := rfl
@[simp] theorem setFlag_live (f : Nat) (v : BitVec 16) (s : State) : (setFlag f v s).live = s.live := rfl
@[simp] theorem setFlag_gates (f : Nat) (v : BitVec 16) (s : State) : (setFlag f v s).gates = s.gates := rfl
@[simp] theorem setFlag_started (f : Nat) (v : BitVec 16) (s : State) : (setFlag f v s).started = s.started := rfl
@[simp] theorem setFlag_mxa (f : Nat) (v : BitVec 16) (s : State) : (setFlag f v s).mxa = s.mxa := rfl
@[simp] theorem setFlag_mxb (f : Nat) (v : BitVec 16) (s : State) : (setFlag f v s).mxb = s.mxb := rfl
@[simp] theorem setFlag_turn (f : Nat) (v : BitVec 16) (s : State) : (setFlag f v s).turn = s.turn := rfl
@[simp] theorem setFlag_vec (f : Nat) (v : BitVec 16) (s : State) : (setFlag f v s).vec = s.vec := rfl
@[simp] theorem setFlag_ocache (f : Nat) (v : BitVec 16) (s : State) : (setFlag f v s).ocache = s.ocache := rfl
@[simp] theorem setFlag_ocUpset (f : Nat) (v : BitVec 16) (s : State) : (setFlag f v s).ocUpset = s.ocUpset := rfl
@[simp] theorem setFlag_descUpset (f : Nat) (v : BitVec 16) (s : State) : (setFlag f v s).descUpset = s.descUpset := rfl
@[simp] theorem setFlag_routeUpset (f : Nat) (v : BitVec 16) (s : State) : (setFlag f v s).routeUpset = s.routeUpset := rfl
@[simp] theorem setFlag_imgUpset (f : Nat) (v : BitVec 16) (s : State) : (setFlag f v s).imgUpset = s.imgUpset := rfl
@[simp] theorem setFlag_rsu (f : Nat) (v : BitVec 16) (s : State) : (setFlag f v s).rsu = s.rsu := rfl
@[simp] theorem setFlag_crs (f : Nat) (v : BitVec 16) (s : State) : (setFlag f v s).crs = s.crs := rfl
@[simp] theorem setFlag_mov (f : Nat) (v : BitVec 16) (s : State) : (setFlag f v s).mov = s.mov := rfl
@[simp] theorem setFlag_syn (f : Nat) (v : BitVec 16) (s : State) : (setFlag f v s).syn = s.syn := rfl
@[simp] theorem setFlag_scl (f : Nat) (v : BitVec 16) (s : State) : (setFlag f v s).scl = s.scl := rfl
@[simp] theorem setFlag_chans (f : Nat) (v : BitVec 16) (s : State) : (setFlag f v s).chans = s.chans := rfl
@[simp] theorem setFlag_pool (f : Nat) (v : BitVec 16) (s : State) : (setFlag f v s).pool = s.pool := rfl
@[simp] theorem setFlag_sregs (f : Nat) (v : BitVec 16) (s : State) : (setFlag f v s).sregs = s.sregs := rfl
@[simp] theorem setFlag_s63 (f : Nat) (v : BitVec 16) (s : State) : (setFlag f v s).s63 = s.s63 := rfl
@[simp] theorem setFlag_descs (f : Nat) (v : BitVec 16) (s : State) : (setFlag f v s).descs = s.descs := rfl
@[simp] theorem setFlag_scales (f : Nat) (v : BitVec 16) (s : State) : (setFlag f v s).scales = s.scales := rfl
@[simp] theorem setFlag_scaleNow (f : Nat) (v : BitVec 16) (s : State) : (setFlag f v s).scaleNow = s.scaleNow := rfl
@[simp] theorem setFlag_fab (f : Nat) (v : BitVec 16) (s : State) : (setFlag f v s).fab = s.fab := rfl
@[simp] theorem setFlag_job (f : Nat) (v : BitVec 16) (s : State) : (setFlag f v s).job = s.job := rfl
@[simp] theorem setFlag_own (f : Nat) (v : BitVec 16) (s : State) : (setFlag f v s).own = s.own := rfl
@[simp] theorem setFlag_sb (f : Nat) (v : BitVec 16) (s : State) : (setFlag f v s).sb = s.sb := rfl
@[simp] theorem setFlag_dbg (f : Nat) (v : BitVec 16) (s : State) : (setFlag f v s).dbg = s.dbg := rfl
@[simp] theorem setFlag_img (f : Nat) (v : BitVec 16) (s : State) : (setFlag f v s).img = s.img := rfl
@[simp] theorem setFlag_cnt (f : Nat) (v : BitVec 16) (s : State) : (setFlag f v s).cnt = s.cnt := rfl
@[simp] theorem setFlag_err (f : Nat) (v : BitVec 16) (s : State) : (setFlag f v s).err = s.err := rfl
@[simp] theorem setFlag_ckpt (f : Nat) (v : BitVec 16) (s : State) : (setFlag f v s).ckpt = s.ckpt := rfl
@[simp] theorem setFlag_st (f : Nat) (v : BitVec 16) (s : State) : (setFlag f v s).st = s.st := rfl
@[simp] theorem setFlag_rst (f : Nat) (v : BitVec 16) (s : State) : (setFlag f v s).rst = s.rst := rfl
@[simp] theorem setFlag_trim (f : Nat) (v : BitVec 16) (s : State) : (setFlag f v s).trim = s.trim := rfl
@[simp] theorem setFlag_pwr (f : Nat) (v : BitVec 16) (s : State) : (setFlag f v s).pwr = s.pwr := rfl
@[simp] theorem setFlag_tap (f : Nat) (v : BitVec 16) (s : State) : (setFlag f v s).tap = s.tap := rfl
@[simp] theorem setFlag_undo (f : Nat) (v : BitVec 16) (s : State) : (setFlag f v s).undo = s.undo := rfl
@[simp] theorem setFlag_free (f : Nat) (v : BitVec 16) (s : State) : (setFlag f v s).free = s.free := rfl
@[simp] theorem setFlag_pending (f : Nat) (v : BitVec 16) (s : State) : (setFlag f v s).pending = s.pending := rfl

/-! ## chLeave -/

@[simp] theorem chLeave_cfg (c n : Nat) (s : State) : (chLeave c n s).cfg = s.cfg := rfl
@[simp] theorem chLeave_straps (c n : Nat) (s : State) : (chLeave c n s).straps = s.straps := rfl
@[simp] theorem chLeave_strapPins (c n : Nat) (s : State) : (chLeave c n s).strapPins = s.strapPins := rfl
@[simp] theorem chLeave_pins (c n : Nat) (s : State) : (chLeave c n s).pins = s.pins := rfl
@[simp] theorem chLeave_out (c n : Nat) (s : State) : (chLeave c n s).out = s.out := rfl
@[simp] theorem chLeave_rcv (c n : Nat) (s : State) : (chLeave c n s).rcv = s.rcv := rfl
@[simp] theorem chLeave_issue (c n : Nat) (s : State) : (chLeave c n s).issue = s.issue := rfl
@[simp] theorem chLeave_q (c n : Nat) (s : State) : (chLeave c n s).q = s.q := rfl
@[simp] theorem chLeave_live (c n : Nat) (s : State) : (chLeave c n s).live = s.live := rfl
@[simp] theorem chLeave_gates (c n : Nat) (s : State) : (chLeave c n s).gates = s.gates := rfl
@[simp] theorem chLeave_started (c n : Nat) (s : State) : (chLeave c n s).started = s.started := rfl
@[simp] theorem chLeave_mxa (c n : Nat) (s : State) : (chLeave c n s).mxa = s.mxa := rfl
@[simp] theorem chLeave_mxb (c n : Nat) (s : State) : (chLeave c n s).mxb = s.mxb := rfl
@[simp] theorem chLeave_turn (c n : Nat) (s : State) : (chLeave c n s).turn = s.turn := rfl
@[simp] theorem chLeave_vec (c n : Nat) (s : State) : (chLeave c n s).vec = s.vec := rfl
@[simp] theorem chLeave_ocache (c n : Nat) (s : State) : (chLeave c n s).ocache = s.ocache := rfl
@[simp] theorem chLeave_ocUpset (c n : Nat) (s : State) : (chLeave c n s).ocUpset = s.ocUpset := rfl
@[simp] theorem chLeave_flagUpset (c n : Nat) (s : State) : (chLeave c n s).flagUpset = s.flagUpset := rfl
@[simp] theorem chLeave_descUpset (c n : Nat) (s : State) : (chLeave c n s).descUpset = s.descUpset := rfl
@[simp] theorem chLeave_routeUpset (c n : Nat) (s : State) : (chLeave c n s).routeUpset = s.routeUpset := rfl
@[simp] theorem chLeave_imgUpset (c n : Nat) (s : State) : (chLeave c n s).imgUpset = s.imgUpset := rfl
@[simp] theorem chLeave_rsu (c n : Nat) (s : State) : (chLeave c n s).rsu = s.rsu := rfl
@[simp] theorem chLeave_crs (c n : Nat) (s : State) : (chLeave c n s).crs = s.crs := rfl
@[simp] theorem chLeave_mov (c n : Nat) (s : State) : (chLeave c n s).mov = s.mov := rfl
@[simp] theorem chLeave_syn (c n : Nat) (s : State) : (chLeave c n s).syn = s.syn := rfl
@[simp] theorem chLeave_scl (c n : Nat) (s : State) : (chLeave c n s).scl = s.scl := rfl
@[simp] theorem chLeave_pool (c n : Nat) (s : State) : (chLeave c n s).pool = s.pool := rfl
@[simp] theorem chLeave_sregs (c n : Nat) (s : State) : (chLeave c n s).sregs = s.sregs := rfl
@[simp] theorem chLeave_s63 (c n : Nat) (s : State) : (chLeave c n s).s63 = s.s63 := rfl
@[simp] theorem chLeave_descs (c n : Nat) (s : State) : (chLeave c n s).descs = s.descs := rfl
@[simp] theorem chLeave_scales (c n : Nat) (s : State) : (chLeave c n s).scales = s.scales := rfl
@[simp] theorem chLeave_scaleNow (c n : Nat) (s : State) : (chLeave c n s).scaleNow = s.scaleNow := rfl
@[simp] theorem chLeave_flags (c n : Nat) (s : State) : (chLeave c n s).flags = s.flags := rfl
@[simp] theorem chLeave_flagOld (c n : Nat) (s : State) : (chLeave c n s).flagOld = s.flagOld := rfl
@[simp] theorem chLeave_fab (c n : Nat) (s : State) : (chLeave c n s).fab = s.fab := rfl
@[simp] theorem chLeave_job (c n : Nat) (s : State) : (chLeave c n s).job = s.job := rfl
@[simp] theorem chLeave_own (c n : Nat) (s : State) : (chLeave c n s).own = s.own := rfl
@[simp] theorem chLeave_sb (c n : Nat) (s : State) : (chLeave c n s).sb = s.sb := rfl
@[simp] theorem chLeave_dbg (c n : Nat) (s : State) : (chLeave c n s).dbg = s.dbg := rfl
@[simp] theorem chLeave_img (c n : Nat) (s : State) : (chLeave c n s).img = s.img := rfl
@[simp] theorem chLeave_cnt (c n : Nat) (s : State) : (chLeave c n s).cnt = s.cnt := rfl
@[simp] theorem chLeave_err (c n : Nat) (s : State) : (chLeave c n s).err = s.err := rfl
@[simp] theorem chLeave_ckpt (c n : Nat) (s : State) : (chLeave c n s).ckpt = s.ckpt := rfl
@[simp] theorem chLeave_st (c n : Nat) (s : State) : (chLeave c n s).st = s.st := rfl
@[simp] theorem chLeave_rst (c n : Nat) (s : State) : (chLeave c n s).rst = s.rst := rfl
@[simp] theorem chLeave_trim (c n : Nat) (s : State) : (chLeave c n s).trim = s.trim := rfl
@[simp] theorem chLeave_pwr (c n : Nat) (s : State) : (chLeave c n s).pwr = s.pwr := rfl
@[simp] theorem chLeave_tap (c n : Nat) (s : State) : (chLeave c n s).tap = s.tap := rfl
@[simp] theorem chLeave_undo (c n : Nat) (s : State) : (chLeave c n s).undo = s.undo := rfl
@[simp] theorem chLeave_free (c n : Nat) (s : State) : (chLeave c n s).free = s.free := rfl
@[simp] theorem chLeave_pending (c n : Nat) (s : State) : (chLeave c n s).pending = s.pending := rfl

/-! ## chPop -/

@[simp] theorem chPop_cfg (c ep n : Nat) (s : State) : (chPop c ep n s).cfg = s.cfg := by unfold chPop; dsimp only; repeat (first | rfl | split)
@[simp] theorem chPop_straps (c ep n : Nat) (s : State) : (chPop c ep n s).straps = s.straps := by unfold chPop; dsimp only; repeat (first | rfl | split)
@[simp] theorem chPop_strapPins (c ep n : Nat) (s : State) : (chPop c ep n s).strapPins = s.strapPins := by unfold chPop; dsimp only; repeat (first | rfl | split)
@[simp] theorem chPop_pins (c ep n : Nat) (s : State) : (chPop c ep n s).pins = s.pins := by unfold chPop; dsimp only; repeat (first | rfl | split)
@[simp] theorem chPop_out (c ep n : Nat) (s : State) : (chPop c ep n s).out = s.out := by unfold chPop; dsimp only; repeat (first | rfl | split)
@[simp] theorem chPop_rcv (c ep n : Nat) (s : State) : (chPop c ep n s).rcv = s.rcv := by unfold chPop; dsimp only; repeat (first | rfl | split)
@[simp] theorem chPop_issue (c ep n : Nat) (s : State) : (chPop c ep n s).issue = s.issue := by unfold chPop; dsimp only; repeat (first | rfl | split)
@[simp] theorem chPop_q (c ep n : Nat) (s : State) : (chPop c ep n s).q = s.q := by unfold chPop; dsimp only; repeat (first | rfl | split)
@[simp] theorem chPop_live (c ep n : Nat) (s : State) : (chPop c ep n s).live = s.live := by unfold chPop; dsimp only; repeat (first | rfl | split)
@[simp] theorem chPop_gates (c ep n : Nat) (s : State) : (chPop c ep n s).gates = s.gates := by unfold chPop; dsimp only; repeat (first | rfl | split)
@[simp] theorem chPop_started (c ep n : Nat) (s : State) : (chPop c ep n s).started = s.started := by unfold chPop; dsimp only; repeat (first | rfl | split)
@[simp] theorem chPop_mxa (c ep n : Nat) (s : State) : (chPop c ep n s).mxa = s.mxa := by unfold chPop; dsimp only; repeat (first | rfl | split)
@[simp] theorem chPop_mxb (c ep n : Nat) (s : State) : (chPop c ep n s).mxb = s.mxb := by unfold chPop; dsimp only; repeat (first | rfl | split)
@[simp] theorem chPop_turn (c ep n : Nat) (s : State) : (chPop c ep n s).turn = s.turn := by unfold chPop; dsimp only; repeat (first | rfl | split)
@[simp] theorem chPop_vec (c ep n : Nat) (s : State) : (chPop c ep n s).vec = s.vec := by unfold chPop; dsimp only; repeat (first | rfl | split)
@[simp] theorem chPop_ocache (c ep n : Nat) (s : State) : (chPop c ep n s).ocache = s.ocache := by unfold chPop; dsimp only; repeat (first | rfl | split)
@[simp] theorem chPop_ocUpset (c ep n : Nat) (s : State) : (chPop c ep n s).ocUpset = s.ocUpset := by unfold chPop; dsimp only; repeat (first | rfl | split)
@[simp] theorem chPop_flagUpset (c ep n : Nat) (s : State) : (chPop c ep n s).flagUpset = s.flagUpset := by unfold chPop; dsimp only; repeat (first | rfl | split)
@[simp] theorem chPop_descUpset (c ep n : Nat) (s : State) : (chPop c ep n s).descUpset = s.descUpset := by unfold chPop; dsimp only; repeat (first | rfl | split)
@[simp] theorem chPop_routeUpset (c ep n : Nat) (s : State) : (chPop c ep n s).routeUpset = s.routeUpset := by unfold chPop; dsimp only; repeat (first | rfl | split)
@[simp] theorem chPop_imgUpset (c ep n : Nat) (s : State) : (chPop c ep n s).imgUpset = s.imgUpset := by unfold chPop; dsimp only; repeat (first | rfl | split)
@[simp] theorem chPop_rsu (c ep n : Nat) (s : State) : (chPop c ep n s).rsu = s.rsu := by unfold chPop; dsimp only; repeat (first | rfl | split)
@[simp] theorem chPop_crs (c ep n : Nat) (s : State) : (chPop c ep n s).crs = s.crs := by unfold chPop; dsimp only; repeat (first | rfl | split)
@[simp] theorem chPop_mov (c ep n : Nat) (s : State) : (chPop c ep n s).mov = s.mov := by unfold chPop; dsimp only; repeat (first | rfl | split)
@[simp] theorem chPop_syn (c ep n : Nat) (s : State) : (chPop c ep n s).syn = s.syn := by unfold chPop; dsimp only; repeat (first | rfl | split)
@[simp] theorem chPop_scl (c ep n : Nat) (s : State) : (chPop c ep n s).scl = s.scl := by unfold chPop; dsimp only; repeat (first | rfl | split)
@[simp] theorem chPop_pool (c ep n : Nat) (s : State) : (chPop c ep n s).pool = s.pool := by unfold chPop; dsimp only; repeat (first | rfl | split)
@[simp] theorem chPop_sregs (c ep n : Nat) (s : State) : (chPop c ep n s).sregs = s.sregs := by unfold chPop; dsimp only; repeat (first | rfl | split)
@[simp] theorem chPop_s63 (c ep n : Nat) (s : State) : (chPop c ep n s).s63 = s.s63 := by unfold chPop; dsimp only; repeat (first | rfl | split)
@[simp] theorem chPop_descs (c ep n : Nat) (s : State) : (chPop c ep n s).descs = s.descs := by unfold chPop; dsimp only; repeat (first | rfl | split)
@[simp] theorem chPop_scales (c ep n : Nat) (s : State) : (chPop c ep n s).scales = s.scales := by unfold chPop; dsimp only; repeat (first | rfl | split)
@[simp] theorem chPop_scaleNow (c ep n : Nat) (s : State) : (chPop c ep n s).scaleNow = s.scaleNow := by unfold chPop; dsimp only; repeat (first | rfl | split)
@[simp] theorem chPop_flags (c ep n : Nat) (s : State) : (chPop c ep n s).flags = s.flags := by unfold chPop; dsimp only; repeat (first | rfl | split)
@[simp] theorem chPop_flagOld (c ep n : Nat) (s : State) : (chPop c ep n s).flagOld = s.flagOld := by unfold chPop; dsimp only; repeat (first | rfl | split)
@[simp] theorem chPop_fab (c ep n : Nat) (s : State) : (chPop c ep n s).fab = s.fab := by unfold chPop; dsimp only; repeat (first | rfl | split)
@[simp] theorem chPop_job (c ep n : Nat) (s : State) : (chPop c ep n s).job = s.job := by unfold chPop; dsimp only; repeat (first | rfl | split)
@[simp] theorem chPop_own (c ep n : Nat) (s : State) : (chPop c ep n s).own = s.own := by unfold chPop; dsimp only; repeat (first | rfl | split)
@[simp] theorem chPop_sb (c ep n : Nat) (s : State) : (chPop c ep n s).sb = s.sb := by unfold chPop; dsimp only; repeat (first | rfl | split)
@[simp] theorem chPop_dbg (c ep n : Nat) (s : State) : (chPop c ep n s).dbg = s.dbg := by unfold chPop; dsimp only; repeat (first | rfl | split)
@[simp] theorem chPop_img (c ep n : Nat) (s : State) : (chPop c ep n s).img = s.img := by unfold chPop; dsimp only; repeat (first | rfl | split)
@[simp] theorem chPop_cnt (c ep n : Nat) (s : State) : (chPop c ep n s).cnt = s.cnt := by unfold chPop; dsimp only; repeat (first | rfl | split)
@[simp] theorem chPop_err (c ep n : Nat) (s : State) : (chPop c ep n s).err = s.err := by unfold chPop; dsimp only; repeat (first | rfl | split)
@[simp] theorem chPop_ckpt (c ep n : Nat) (s : State) : (chPop c ep n s).ckpt = s.ckpt := by unfold chPop; dsimp only; repeat (first | rfl | split)
@[simp] theorem chPop_st (c ep n : Nat) (s : State) : (chPop c ep n s).st = s.st := by unfold chPop; dsimp only; repeat (first | rfl | split)
@[simp] theorem chPop_rst (c ep n : Nat) (s : State) : (chPop c ep n s).rst = s.rst := by unfold chPop; dsimp only; repeat (first | rfl | split)
@[simp] theorem chPop_trim (c ep n : Nat) (s : State) : (chPop c ep n s).trim = s.trim := by unfold chPop; dsimp only; repeat (first | rfl | split)
@[simp] theorem chPop_pwr (c ep n : Nat) (s : State) : (chPop c ep n s).pwr = s.pwr := by unfold chPop; dsimp only; repeat (first | rfl | split)
@[simp] theorem chPop_tap (c ep n : Nat) (s : State) : (chPop c ep n s).tap = s.tap := by unfold chPop; dsimp only; repeat (first | rfl | split)
@[simp] theorem chPop_undo (c ep n : Nat) (s : State) : (chPop c ep n s).undo = s.undo := by unfold chPop; dsimp only; repeat (first | rfl | split)
@[simp] theorem chPop_free (c ep n : Nat) (s : State) : (chPop c ep n s).free = s.free := by unfold chPop; dsimp only; repeat (first | rfl | split)
@[simp] theorem chPop_pending (c ep n : Nat) (s : State) : (chPop c ep n s).pending = s.pending := by unfold chPop; dsimp only; repeat (first | rfl | split)

/-! ## chPush -/

@[simp] theorem chPush_cfg (c : Nat) (ls : List (Nat × Bool × Bool)) (s : State) : (chPush c ls s).cfg = s.cfg := by unfold chPush; split <;> rfl
@[simp] theorem chPush_straps (c : Nat) (ls : List (Nat × Bool × Bool)) (s : State) : (chPush c ls s).straps = s.straps := by unfold chPush; split <;> rfl
@[simp] theorem chPush_strapPins (c : Nat) (ls : List (Nat × Bool × Bool)) (s : State) : (chPush c ls s).strapPins = s.strapPins := by unfold chPush; split <;> rfl
@[simp] theorem chPush_pins (c : Nat) (ls : List (Nat × Bool × Bool)) (s : State) : (chPush c ls s).pins = s.pins := by unfold chPush; split <;> rfl
@[simp] theorem chPush_out (c : Nat) (ls : List (Nat × Bool × Bool)) (s : State) : (chPush c ls s).out = s.out := by unfold chPush; split <;> rfl
@[simp] theorem chPush_rcv (c : Nat) (ls : List (Nat × Bool × Bool)) (s : State) : (chPush c ls s).rcv = s.rcv := by unfold chPush; split <;> rfl
@[simp] theorem chPush_issue (c : Nat) (ls : List (Nat × Bool × Bool)) (s : State) : (chPush c ls s).issue = s.issue := by unfold chPush; split <;> rfl
@[simp] theorem chPush_q (c : Nat) (ls : List (Nat × Bool × Bool)) (s : State) : (chPush c ls s).q = s.q := by unfold chPush; split <;> rfl
@[simp] theorem chPush_live (c : Nat) (ls : List (Nat × Bool × Bool)) (s : State) : (chPush c ls s).live = s.live := by unfold chPush; split <;> rfl
@[simp] theorem chPush_gates (c : Nat) (ls : List (Nat × Bool × Bool)) (s : State) : (chPush c ls s).gates = s.gates := by unfold chPush; split <;> rfl
@[simp] theorem chPush_started (c : Nat) (ls : List (Nat × Bool × Bool)) (s : State) : (chPush c ls s).started = s.started := by unfold chPush; split <;> rfl
@[simp] theorem chPush_mxa (c : Nat) (ls : List (Nat × Bool × Bool)) (s : State) : (chPush c ls s).mxa = s.mxa := by unfold chPush; split <;> rfl
@[simp] theorem chPush_mxb (c : Nat) (ls : List (Nat × Bool × Bool)) (s : State) : (chPush c ls s).mxb = s.mxb := by unfold chPush; split <;> rfl
@[simp] theorem chPush_turn (c : Nat) (ls : List (Nat × Bool × Bool)) (s : State) : (chPush c ls s).turn = s.turn := by unfold chPush; split <;> rfl
@[simp] theorem chPush_vec (c : Nat) (ls : List (Nat × Bool × Bool)) (s : State) : (chPush c ls s).vec = s.vec := by unfold chPush; split <;> rfl
@[simp] theorem chPush_ocache (c : Nat) (ls : List (Nat × Bool × Bool)) (s : State) : (chPush c ls s).ocache = s.ocache := by unfold chPush; split <;> rfl
@[simp] theorem chPush_ocUpset (c : Nat) (ls : List (Nat × Bool × Bool)) (s : State) : (chPush c ls s).ocUpset = s.ocUpset := by unfold chPush; split <;> rfl
@[simp] theorem chPush_flagUpset (c : Nat) (ls : List (Nat × Bool × Bool)) (s : State) : (chPush c ls s).flagUpset = s.flagUpset := by unfold chPush; split <;> rfl
@[simp] theorem chPush_descUpset (c : Nat) (ls : List (Nat × Bool × Bool)) (s : State) : (chPush c ls s).descUpset = s.descUpset := by unfold chPush; split <;> rfl
@[simp] theorem chPush_routeUpset (c : Nat) (ls : List (Nat × Bool × Bool)) (s : State) : (chPush c ls s).routeUpset = s.routeUpset := by unfold chPush; split <;> rfl
@[simp] theorem chPush_imgUpset (c : Nat) (ls : List (Nat × Bool × Bool)) (s : State) : (chPush c ls s).imgUpset = s.imgUpset := by unfold chPush; split <;> rfl
@[simp] theorem chPush_rsu (c : Nat) (ls : List (Nat × Bool × Bool)) (s : State) : (chPush c ls s).rsu = s.rsu := by unfold chPush; split <;> rfl
@[simp] theorem chPush_crs (c : Nat) (ls : List (Nat × Bool × Bool)) (s : State) : (chPush c ls s).crs = s.crs := by unfold chPush; split <;> rfl
@[simp] theorem chPush_mov (c : Nat) (ls : List (Nat × Bool × Bool)) (s : State) : (chPush c ls s).mov = s.mov := by unfold chPush; split <;> rfl
@[simp] theorem chPush_syn (c : Nat) (ls : List (Nat × Bool × Bool)) (s : State) : (chPush c ls s).syn = s.syn := by unfold chPush; split <;> rfl
@[simp] theorem chPush_scl (c : Nat) (ls : List (Nat × Bool × Bool)) (s : State) : (chPush c ls s).scl = s.scl := by unfold chPush; split <;> rfl
@[simp] theorem chPush_pool (c : Nat) (ls : List (Nat × Bool × Bool)) (s : State) : (chPush c ls s).pool = s.pool := by unfold chPush; split <;> rfl
@[simp] theorem chPush_sregs (c : Nat) (ls : List (Nat × Bool × Bool)) (s : State) : (chPush c ls s).sregs = s.sregs := by unfold chPush; split <;> rfl
@[simp] theorem chPush_s63 (c : Nat) (ls : List (Nat × Bool × Bool)) (s : State) : (chPush c ls s).s63 = s.s63 := by unfold chPush; split <;> rfl
@[simp] theorem chPush_descs (c : Nat) (ls : List (Nat × Bool × Bool)) (s : State) : (chPush c ls s).descs = s.descs := by unfold chPush; split <;> rfl
@[simp] theorem chPush_scales (c : Nat) (ls : List (Nat × Bool × Bool)) (s : State) : (chPush c ls s).scales = s.scales := by unfold chPush; split <;> rfl
@[simp] theorem chPush_scaleNow (c : Nat) (ls : List (Nat × Bool × Bool)) (s : State) : (chPush c ls s).scaleNow = s.scaleNow := by unfold chPush; split <;> rfl
@[simp] theorem chPush_flags (c : Nat) (ls : List (Nat × Bool × Bool)) (s : State) : (chPush c ls s).flags = s.flags := by unfold chPush; split <;> rfl
@[simp] theorem chPush_flagOld (c : Nat) (ls : List (Nat × Bool × Bool)) (s : State) : (chPush c ls s).flagOld = s.flagOld := by unfold chPush; split <;> rfl
@[simp] theorem chPush_fab (c : Nat) (ls : List (Nat × Bool × Bool)) (s : State) : (chPush c ls s).fab = s.fab := by unfold chPush; split <;> rfl
@[simp] theorem chPush_job (c : Nat) (ls : List (Nat × Bool × Bool)) (s : State) : (chPush c ls s).job = s.job := by unfold chPush; split <;> rfl
@[simp] theorem chPush_own (c : Nat) (ls : List (Nat × Bool × Bool)) (s : State) : (chPush c ls s).own = s.own := by unfold chPush; split <;> rfl
@[simp] theorem chPush_sb (c : Nat) (ls : List (Nat × Bool × Bool)) (s : State) : (chPush c ls s).sb = s.sb := by unfold chPush; split <;> rfl
@[simp] theorem chPush_dbg (c : Nat) (ls : List (Nat × Bool × Bool)) (s : State) : (chPush c ls s).dbg = s.dbg := by unfold chPush; split <;> rfl
@[simp] theorem chPush_img (c : Nat) (ls : List (Nat × Bool × Bool)) (s : State) : (chPush c ls s).img = s.img := by unfold chPush; split <;> rfl
@[simp] theorem chPush_cnt (c : Nat) (ls : List (Nat × Bool × Bool)) (s : State) : (chPush c ls s).cnt = s.cnt := by unfold chPush; split <;> rfl
@[simp] theorem chPush_err (c : Nat) (ls : List (Nat × Bool × Bool)) (s : State) : (chPush c ls s).err = s.err := by unfold chPush; split <;> rfl
@[simp] theorem chPush_ckpt (c : Nat) (ls : List (Nat × Bool × Bool)) (s : State) : (chPush c ls s).ckpt = s.ckpt := by unfold chPush; split <;> rfl
@[simp] theorem chPush_st (c : Nat) (ls : List (Nat × Bool × Bool)) (s : State) : (chPush c ls s).st = s.st := by unfold chPush; split <;> rfl
@[simp] theorem chPush_rst (c : Nat) (ls : List (Nat × Bool × Bool)) (s : State) : (chPush c ls s).rst = s.rst := by unfold chPush; split <;> rfl
@[simp] theorem chPush_trim (c : Nat) (ls : List (Nat × Bool × Bool)) (s : State) : (chPush c ls s).trim = s.trim := by unfold chPush; split <;> rfl
@[simp] theorem chPush_pwr (c : Nat) (ls : List (Nat × Bool × Bool)) (s : State) : (chPush c ls s).pwr = s.pwr := by unfold chPush; split <;> rfl
@[simp] theorem chPush_tap (c : Nat) (ls : List (Nat × Bool × Bool)) (s : State) : (chPush c ls s).tap = s.tap := by unfold chPush; split <;> rfl
@[simp] theorem chPush_undo (c : Nat) (ls : List (Nat × Bool × Bool)) (s : State) : (chPush c ls s).undo = s.undo := by unfold chPush; split <;> rfl
@[simp] theorem chPush_free (c : Nat) (ls : List (Nat × Bool × Bool)) (s : State) : (chPush c ls s).free = s.free := by unfold chPush; split <;> rfl
@[simp] theorem chPush_pending (c : Nat) (ls : List (Nat × Bool × Bool)) (s : State) : (chPush c ls s).pending = s.pending := by unfold chPush; split <;> rfl

/-! ## lowerLate -/

@[simp] theorem lowerLate_cfg (s : State) : (lowerLate s).cfg = s.cfg := by unfold lowerLate; split <;> rfl
@[simp] theorem lowerLate_straps (s : State) : (lowerLate s).straps = s.straps := by unfold lowerLate; split <;> rfl
@[simp] theorem lowerLate_strapPins (s : State) : (lowerLate s).strapPins = s.strapPins := by unfold lowerLate; split <;> rfl
@[simp] theorem lowerLate_pins (s : State) : (lowerLate s).pins = s.pins := by unfold lowerLate; split <;> rfl
@[simp] theorem lowerLate_clock (s : State) : (lowerLate s).clock = s.clock := by unfold lowerLate; split <;> rfl
@[simp] theorem lowerLate_rcv (s : State) : (lowerLate s).rcv = s.rcv := by unfold lowerLate; split <;> rfl
@[simp] theorem lowerLate_q (s : State) : (lowerLate s).q = s.q := by unfold lowerLate; split <;> rfl
@[simp] theorem lowerLate_live (s : State) : (lowerLate s).live = s.live := by unfold lowerLate; split <;> rfl
@[simp] theorem lowerLate_gates (s : State) : (lowerLate s).gates = s.gates := by unfold lowerLate; split <;> rfl
@[simp] theorem lowerLate_started (s : State) : (lowerLate s).started = s.started := by unfold lowerLate; split <;> rfl
@[simp] theorem lowerLate_mxa (s : State) : (lowerLate s).mxa = s.mxa := by unfold lowerLate; split <;> rfl
@[simp] theorem lowerLate_mxb (s : State) : (lowerLate s).mxb = s.mxb := by unfold lowerLate; split <;> rfl
@[simp] theorem lowerLate_turn (s : State) : (lowerLate s).turn = s.turn := by unfold lowerLate; split <;> rfl
@[simp] theorem lowerLate_vec (s : State) : (lowerLate s).vec = s.vec := by unfold lowerLate; split <;> rfl
@[simp] theorem lowerLate_ocache (s : State) : (lowerLate s).ocache = s.ocache := by unfold lowerLate; split <;> rfl
@[simp] theorem lowerLate_ocUpset (s : State) : (lowerLate s).ocUpset = s.ocUpset := by unfold lowerLate; split <;> rfl
@[simp] theorem lowerLate_flagUpset (s : State) : (lowerLate s).flagUpset = s.flagUpset := by unfold lowerLate; split <;> rfl
@[simp] theorem lowerLate_descUpset (s : State) : (lowerLate s).descUpset = s.descUpset := by unfold lowerLate; split <;> rfl
@[simp] theorem lowerLate_routeUpset (s : State) : (lowerLate s).routeUpset = s.routeUpset := by unfold lowerLate; split <;> rfl
@[simp] theorem lowerLate_imgUpset (s : State) : (lowerLate s).imgUpset = s.imgUpset := by unfold lowerLate; split <;> rfl
@[simp] theorem lowerLate_rsu (s : State) : (lowerLate s).rsu = s.rsu := by unfold lowerLate; split <;> rfl
@[simp] theorem lowerLate_crs (s : State) : (lowerLate s).crs = s.crs := by unfold lowerLate; split <;> rfl
@[simp] theorem lowerLate_mov (s : State) : (lowerLate s).mov = s.mov := by unfold lowerLate; split <;> rfl
@[simp] theorem lowerLate_syn (s : State) : (lowerLate s).syn = s.syn := by unfold lowerLate; split <;> rfl
@[simp] theorem lowerLate_scl (s : State) : (lowerLate s).scl = s.scl := by unfold lowerLate; split <;> rfl
@[simp] theorem lowerLate_chans (s : State) : (lowerLate s).chans = s.chans := by unfold lowerLate; split <;> rfl
@[simp] theorem lowerLate_pool (s : State) : (lowerLate s).pool = s.pool := by unfold lowerLate; split <;> rfl
@[simp] theorem lowerLate_sregs (s : State) : (lowerLate s).sregs = s.sregs := by unfold lowerLate; split <;> rfl
@[simp] theorem lowerLate_s63 (s : State) : (lowerLate s).s63 = s.s63 := by unfold lowerLate; split <;> rfl
@[simp] theorem lowerLate_descs (s : State) : (lowerLate s).descs = s.descs := by unfold lowerLate; split <;> rfl
@[simp] theorem lowerLate_scales (s : State) : (lowerLate s).scales = s.scales := by unfold lowerLate; split <;> rfl
@[simp] theorem lowerLate_scaleNow (s : State) : (lowerLate s).scaleNow = s.scaleNow := by unfold lowerLate; split <;> rfl
@[simp] theorem lowerLate_flags (s : State) : (lowerLate s).flags = s.flags := by unfold lowerLate; split <;> rfl
@[simp] theorem lowerLate_flagOld (s : State) : (lowerLate s).flagOld = s.flagOld := by unfold lowerLate; split <;> rfl
@[simp] theorem lowerLate_fab (s : State) : (lowerLate s).fab = s.fab := by unfold lowerLate; split <;> rfl
@[simp] theorem lowerLate_job (s : State) : (lowerLate s).job = s.job := by unfold lowerLate; split <;> rfl
@[simp] theorem lowerLate_own (s : State) : (lowerLate s).own = s.own := by unfold lowerLate; split <;> rfl
@[simp] theorem lowerLate_sb (s : State) : (lowerLate s).sb = s.sb := by unfold lowerLate; split <;> rfl
@[simp] theorem lowerLate_dbg (s : State) : (lowerLate s).dbg = s.dbg := by unfold lowerLate; split <;> rfl
@[simp] theorem lowerLate_img (s : State) : (lowerLate s).img = s.img := by unfold lowerLate; split <;> rfl
@[simp] theorem lowerLate_cnt (s : State) : (lowerLate s).cnt = s.cnt := by unfold lowerLate; split <;> rfl
@[simp] theorem lowerLate_err (s : State) : (lowerLate s).err = s.err := by unfold lowerLate; split <;> rfl
@[simp] theorem lowerLate_ckpt (s : State) : (lowerLate s).ckpt = s.ckpt := by unfold lowerLate; split <;> rfl
@[simp] theorem lowerLate_st (s : State) : (lowerLate s).st = s.st := by unfold lowerLate; split <;> rfl
@[simp] theorem lowerLate_rst (s : State) : (lowerLate s).rst = s.rst := by unfold lowerLate; split <;> rfl
@[simp] theorem lowerLate_trim (s : State) : (lowerLate s).trim = s.trim := by unfold lowerLate; split <;> rfl
@[simp] theorem lowerLate_pwr (s : State) : (lowerLate s).pwr = s.pwr := by unfold lowerLate; split <;> rfl
@[simp] theorem lowerLate_tap (s : State) : (lowerLate s).tap = s.tap := by unfold lowerLate; split <;> rfl
@[simp] theorem lowerLate_undo (s : State) : (lowerLate s).undo = s.undo := by unfold lowerLate; split <;> rfl
@[simp] theorem lowerLate_free (s : State) : (lowerLate s).free = s.free := by unfold lowerLate; split <;> rfl
@[simp] theorem lowerLate_pending (s : State) : (lowerLate s).pending = s.pending := by unfold lowerLate; split <;> rfl

/-! ## dequeue -/

@[simp] theorem dequeue_cfg (i : Nat) (s : State) : (dequeue i s).cfg = s.cfg := by simp [dequeue]
@[simp] theorem dequeue_straps (i : Nat) (s : State) : (dequeue i s).straps = s.straps := by simp [dequeue]
@[simp] theorem dequeue_strapPins (i : Nat) (s : State) : (dequeue i s).strapPins = s.strapPins := by simp [dequeue]
@[simp] theorem dequeue_pins (i : Nat) (s : State) : (dequeue i s).pins = s.pins := by simp [dequeue]
@[simp] theorem dequeue_out (i : Nat) (s : State) : (dequeue i s).out = s.out := by simp [dequeue]
@[simp] theorem dequeue_clock (i : Nat) (s : State) : (dequeue i s).clock = s.clock := by simp [dequeue]
@[simp] theorem dequeue_rcv (i : Nat) (s : State) : (dequeue i s).rcv = s.rcv := by simp [dequeue]
@[simp] theorem dequeue_issue (i : Nat) (s : State) : (dequeue i s).issue = s.issue := by simp [dequeue]
@[simp] theorem dequeue_live (i : Nat) (s : State) : (dequeue i s).live = s.live := by simp [dequeue]
@[simp] theorem dequeue_gates (i : Nat) (s : State) : (dequeue i s).gates = s.gates := by simp [dequeue]
@[simp] theorem dequeue_mxa (i : Nat) (s : State) : (dequeue i s).mxa = s.mxa := by simp [dequeue]
@[simp] theorem dequeue_mxb (i : Nat) (s : State) : (dequeue i s).mxb = s.mxb := by simp [dequeue]
@[simp] theorem dequeue_turn (i : Nat) (s : State) : (dequeue i s).turn = s.turn := by simp [dequeue]
@[simp] theorem dequeue_vec (i : Nat) (s : State) : (dequeue i s).vec = s.vec := by simp [dequeue]
@[simp] theorem dequeue_ocache (i : Nat) (s : State) : (dequeue i s).ocache = s.ocache := by simp [dequeue]
@[simp] theorem dequeue_ocUpset (i : Nat) (s : State) : (dequeue i s).ocUpset = s.ocUpset := by simp [dequeue]
@[simp] theorem dequeue_flagUpset (i : Nat) (s : State) : (dequeue i s).flagUpset = s.flagUpset := by simp [dequeue]
@[simp] theorem dequeue_descUpset (i : Nat) (s : State) : (dequeue i s).descUpset = s.descUpset := by simp [dequeue]
@[simp] theorem dequeue_routeUpset (i : Nat) (s : State) : (dequeue i s).routeUpset = s.routeUpset := by simp [dequeue]
@[simp] theorem dequeue_imgUpset (i : Nat) (s : State) : (dequeue i s).imgUpset = s.imgUpset := by simp [dequeue]
@[simp] theorem dequeue_rsu (i : Nat) (s : State) : (dequeue i s).rsu = s.rsu := by simp [dequeue]
@[simp] theorem dequeue_crs (i : Nat) (s : State) : (dequeue i s).crs = s.crs := by simp [dequeue]
@[simp] theorem dequeue_mov (i : Nat) (s : State) : (dequeue i s).mov = s.mov := by simp [dequeue]
@[simp] theorem dequeue_syn (i : Nat) (s : State) : (dequeue i s).syn = s.syn := by simp [dequeue]
@[simp] theorem dequeue_scl (i : Nat) (s : State) : (dequeue i s).scl = s.scl := by simp [dequeue]
@[simp] theorem dequeue_chans (i : Nat) (s : State) : (dequeue i s).chans = s.chans := by simp [dequeue]
@[simp] theorem dequeue_pool (i : Nat) (s : State) : (dequeue i s).pool = s.pool := by simp [dequeue]
@[simp] theorem dequeue_sregs (i : Nat) (s : State) : (dequeue i s).sregs = s.sregs := by simp [dequeue]
@[simp] theorem dequeue_s63 (i : Nat) (s : State) : (dequeue i s).s63 = s.s63 := by simp [dequeue]
@[simp] theorem dequeue_descs (i : Nat) (s : State) : (dequeue i s).descs = s.descs := by simp [dequeue]
@[simp] theorem dequeue_scales (i : Nat) (s : State) : (dequeue i s).scales = s.scales := by simp [dequeue]
@[simp] theorem dequeue_scaleNow (i : Nat) (s : State) : (dequeue i s).scaleNow = s.scaleNow := by simp [dequeue]
@[simp] theorem dequeue_flags (i : Nat) (s : State) : (dequeue i s).flags = s.flags := by simp [dequeue]
@[simp] theorem dequeue_flagOld (i : Nat) (s : State) : (dequeue i s).flagOld = s.flagOld := by simp [dequeue]
@[simp] theorem dequeue_fab (i : Nat) (s : State) : (dequeue i s).fab = s.fab := by simp [dequeue]
@[simp] theorem dequeue_job (i : Nat) (s : State) : (dequeue i s).job = s.job := by simp [dequeue]
@[simp] theorem dequeue_own (i : Nat) (s : State) : (dequeue i s).own = s.own := by simp [dequeue]
@[simp] theorem dequeue_sb (i : Nat) (s : State) : (dequeue i s).sb = s.sb := by simp [dequeue]
@[simp] theorem dequeue_dbg (i : Nat) (s : State) : (dequeue i s).dbg = s.dbg := by simp [dequeue]
@[simp] theorem dequeue_img (i : Nat) (s : State) : (dequeue i s).img = s.img := by simp [dequeue]
@[simp] theorem dequeue_err (i : Nat) (s : State) : (dequeue i s).err = s.err := by simp [dequeue]
@[simp] theorem dequeue_sync (i : Nat) (s : State) : (dequeue i s).sync = s.sync := by simp [dequeue]
@[simp] theorem dequeue_ckpt (i : Nat) (s : State) : (dequeue i s).ckpt = s.ckpt := by simp [dequeue]
@[simp] theorem dequeue_st (i : Nat) (s : State) : (dequeue i s).st = s.st := by simp [dequeue]
@[simp] theorem dequeue_rst (i : Nat) (s : State) : (dequeue i s).rst = s.rst := by simp [dequeue]
@[simp] theorem dequeue_trim (i : Nat) (s : State) : (dequeue i s).trim = s.trim := by simp [dequeue]
@[simp] theorem dequeue_pwr (i : Nat) (s : State) : (dequeue i s).pwr = s.pwr := by simp [dequeue]
@[simp] theorem dequeue_tap (i : Nat) (s : State) : (dequeue i s).tap = s.tap := by simp [dequeue]
@[simp] theorem dequeue_undo (i : Nat) (s : State) : (dequeue i s).undo = s.undo := by simp [dequeue]
@[simp] theorem dequeue_free (i : Nat) (s : State) : (dequeue i s).free = s.free := by simp [dequeue]
@[simp] theorem dequeue_pending (i : Nat) (s : State) : (dequeue i s).pending = s.pending := by simp [dequeue]

/-! ## What an update writes -/

@[simp] theorem setQ_same (i : Nat) (l : List Entry) (s : State) : getQ (setQ i l s) i = l := by
  unfold setQ
  split <;> simp [getQ]

@[simp] theorem chan_setChan_same (c : Nat) (x : Chan) (s : State) (h : c < s.chans.length) : chan (setChan c x s) c = x := by
  simp [chan, setChan, h]

@[simp] theorem chan_setChan_other (c d : Nat) (x : Chan) (s : State) (h : d ≠ c) : chan (setChan c x s) d = chan s d := by
  simp [chan, setChan, List.getD, h.symm]

theorem descGet_descSet_same (c n : Nat) (d : W8) (s : State) (h : mwf W8.zero s.descs = true) :
    descGet (descSet c n d s) c n = d := mget_mset_same _ h

theorem descGet_descSet_other (c n c' n' : Nat) (d : W8) (s : State)
    (hne : c' * 64 + n' ≠ c * 64 + n) : descGet (descSet c n d s) c' n' = descGet s c' n' := mget_mset_other hne _

theorem scaleBase_scaleSet_same (n : Nat) (r : ScaleRec) (s : State) (h : mwf ScaleRec.init s.scales = true) :
    scaleBase (scaleSet n r s) n = r := mget_mset_same _ h

theorem scaleBase_scaleSet_other (n m : Nat) (r : ScaleRec) (s : State) (hne : m ≠ n) :
    scaleBase (scaleSet n r s) m = scaleBase s m := mget_mset_other hne _

/-- A slot that nothing has reached in this clk reads what is stored. -/
theorem scaleGet_quiet {s : State} (h : s.scaleNow = []) (n : Nat) : scaleGet s n = scaleBase s n := by
  simp [scaleGet, scaleEvs, h, ScaleRec.applyAll]

theorem flagGet_setFlag_same (f : Nat) (v : BitVec 16) (s : State) (h : mwf (0 : BitVec 16) s.flags = true) :
    flagGet (setFlag f v s) f = v := mget_mset_same _ h

theorem flagGet_setFlag_other (f g : Nat) (v : BitVec 16) (s : State) (hne : g ≠ f) :
    flagGet (setFlag f v s) g = flagGet s g := mget_mset_other hne _

theorem sreg_setSreg_same (n : Nat) (v : Word) (s : State) (h : mwf (0 : Word) s.sregs = true) (h1 : 1 ≤ n) (h2 : n ≤ 59) :
    sreg (setSreg n v s) n = v := by
  unfold sreg setSreg
  rw [if_neg (by omega), if_neg (by omega), if_neg (by omega), if_neg (by omega), if_neg (by omega), if_pos ⟨h1, h2⟩]
  exact mget_mset_same _ h

theorem sreg_setSreg_zero (v : Word) (s : State) : setSreg 0 v s = s := by
  simp [setSreg]

/-! ## Updates as record updates -/

theorem bump_eq (src n : Nat) (s : State) : bump src n s = { s with cnt := (bump src n s).cnt } := by
  unfold bump; split <;> rfl

theorem raise_eq (c : Byte) (x : FaultCtx) (s : State) : raise c x s = { s with err := (raise c x s).err } := by
  unfold raise noteError; dsimp only; split <;> rfl

theorem setQ_eq (i : Nat) (l : List Entry) (s : State) : setQ i l s = { s with q := (setQ i l s).q } := by
  unfold setQ; split <;> rfl

/-- The head of a slot's queue, where it may start: what headFor answers, in the words of R100 and R328. -/
theorem headFor_eq {s : State} {slot op : Nat} {e : Entry} {es : List Entry} (hq : getQ s slot = e :: es)
    (hk : engOk s slot = true) (hs : s.started.contains slot = false) (ho : e.op = op) (hc : e.clk < s.clock.clk)
    (hg : gated s slot e = false) : headFor s slot op = some e := by
  unfold headFor
  rw [hq]
  dsimp only
  rw [hk, hs, hg, ho]
  simp [hc]

theorem dequeue_eq {s : State} {slot : Nat} {e : Entry} {es : List Entry} (hq : getQ s slot = e :: es) :
    dequeue slot s = { bump (0x010 + slot) 1 (setQ slot es s) with started := s.started ++ [slot] } := by
  simp [dequeue, hq]

end Sys2Proof.Machine
end

