-- ==== Sys2Proof/Laws/Pool.lean ====
section
/-! SUPPORT. What the pool accesses do (R275 to R278): a write by a client writes its bytes and no others, a read changes only
counters and the words that wait for a write-back. -/

namespace Sys2Proof.Machine

/-! ## Reads -/

/-- A state that differs only in counters, the error block and the words that wait for a write-back. -/
structure ReadOnly (s t : State) : Prop where
  eq : t = { s with cnt := t.cnt, err := t.err, sync := t.sync, pool := { s.pool with writeback := t.pool.writeback } }

theorem ReadOnly.refl (s : State) : ReadOnly s s := ⟨rfl⟩

theorem ReadOnly.trans {s t u : State} (h : ReadOnly s t) (k : ReadOnly t u) : ReadOnly s u := ⟨by
  rw [k.eq, h.eq]⟩

theorem readOnly_bump (n k : Nat) (s : State) : ReadOnly s (bump n k s) := ⟨by
  unfold bump; split <;> rfl⟩

theorem readOnly_touch (s : State) : ReadOnly s (touch s) := ⟨rfl⟩

theorem readOnly_eccTouch (w : Nat) (s : State) : ReadOnly s (eccTouch w s) := by
  unfold eccTouch eccCount
  split
  · exact ReadOnly.trans ⟨rfl⟩ (readOnly_bump _ _ _)
  · split <;> exact ⟨rfl⟩

theorem readOnly_bumpBank (a : Nat) (s : State) : ReadOnly s (bumpBank a s) := by
  unfold bumpBank
  split
  · exact readOnly_bump _ _ _
  · exact .refl s

theorem readOnly_foldl {α : Type} {f : State → α → State} (hf : ∀ s a, ReadOnly s (f s a)) :
    ∀ (l : List α) (s : State), ReadOnly s (l.foldl f s)
  | [], s => .refl s
  | a :: t, s => (hf s a).trans (readOnly_foldl hf t (f s a))

theorem readOnly_bumpRows (a n : Nat) (s : State) : ReadOnly s (bumpRows a n s) := by
  unfold bumpRows
  split
  · exact .refl s
  · exact readOnly_foldl (fun _ _ => readOnly_bumpBank _ _) _ s

/-- A word that reads well or is corrected is not taken for another word. -/
theorem eccFinds_of_good {s : State} {w : Nat} (h : eccState s w < 2) : eccFinds s w ≠ 3 := by
  unfold eccState at h
  split at h <;> omega

/-- Where no word is taken for another, nothing is replaced. -/
theorem eccMistakes_none : ∀ {ws : List Nat} {s : State}, (∀ w ∈ ws, eccFinds s w ≠ 3) → eccMistakes ws s = s := by
  intro ws s h
  unfold eccMistakes
  split
  · rfl
  · induction ws with
    | nil => rfl
    | cons w ws ih =>
      simp only [List.foldl_cons, eccMistake, if_neg (h w (by simp))]
      exact ih fun v hv => h v (by simp [hv])

theorem readOnly_poolRead {a n : Nat} {s : State} (h : ∀ w ∈ eccWords a n, eccFinds s w ≠ 3) : ReadOnly s (poolRead a n s).1 := by
  unfold poolRead
  dsimp only
  rw [eccMistakes_none h]
  exact (readOnly_foldl (fun s w => readOnly_eccTouch w s) _ s).trans ((readOnly_bumpRows _ _ _).trans (readOnly_touch _))

/-- A read answers the bytes that the pool holds. -/
theorem poolRead_bytes {a n : Nat} {s : State} (h : ∀ w ∈ eccWords a n, eccFinds s w ≠ 3) :
    (poolRead a n s).2.1 = readBytes s.pool.mem a n := by
  unfold poolRead
  dsimp only
  rw [eccMistakes_none h]

/-- It reports the first word that was uncorrectable or poisoned. -/
theorem poolRead_bad {a n : Nat} {s : State} (h : ∀ w ∈ eccWords a n, eccFinds s w ≠ 3) :
    (poolRead a n s).2.2 = ((eccWords a n).find? fun w => eccState s w == 2).map (· * 8) := by
  unfold poolRead
  dsimp only
  rw [eccMistakes_none h]

theorem poolRead_good {a n : Nat} {s : State} (h : ∀ w ∈ eccWords a n, eccState s w < 2) : (poolRead a n s).2.2 = none := by
  have : (eccWords a n).find? (fun w => eccState s w == 2) = none := by
    simpa using fun w hw => Nat.ne_of_lt (h w hw)
  rw [poolRead_bad fun w hw => eccFinds_of_good (h w hw), this]
  rfl

theorem readBytes_length (m : List Host.Cell) : ∀ (n a : Nat), (readBytes m a n).length = n
  | 0, _ => rfl
  | n + 1, a => by simp [readBytes, readBytes_length m n (a + 1)]

theorem readBytes_getD (m : List Host.Cell) : ∀ (n a j : Nat), j < n → (readBytes m a n).getD j 0 = mget (0 : Byte) m (a + j)
  | 0, _, _, h => absurd h (Nat.not_lt_zero _)
  | n + 1, a, 0, _ => by simp [readBytes]
  | n + 1, a, j + 1, h => by
    have := readBytes_getD m n (a + 1) j (by omega)
    simp only [readBytes, List.getD_cons_succ, this]
    congr 1
    omega

/-! ## Writes -/

/-- A state that differs only in counters, the error block and the pool. -/
structure PoolOnly (s t : State) : Prop where
  eq : t = { s with cnt := t.cnt, err := t.err, sync := t.sync, pool := t.pool }

theorem PoolOnly.refl (s : State) : PoolOnly s s := ⟨rfl⟩

theorem PoolOnly.trans {s t u : State} (h : PoolOnly s t) (k : PoolOnly t u) : PoolOnly s u := ⟨by rw [k.eq, h.eq]⟩

theorem ReadOnly.poolOnly {s t : State} (h : ReadOnly s t) : PoolOnly s t := ⟨by rw [h.eq]⟩

theorem ReadOnly.mem {s t : State} (h : ReadOnly s t) : t.pool.mem = s.pool.mem := by rw [h.eq]

theorem ReadOnly.eccState {s t : State} (h : ReadOnly s t) (w : Nat) : eccState t w = eccState s w := by
  rw [h.eq]; rfl

/-- Word w may take its part of a write of n bytes at a: it is covered whole, or it reads well or is corrected (R278). -/
def WordTakes (s : State) (a n w : Nat) : Prop := (a ≤ 8 * w ∧ 8 * w + 8 ≤ a + n) ∨ eccState s w < 2

/-- The bytes of a write that fall in ECC word w: from address lo on, hi − lo of them. -/
theorem poolWriteWord_spec {p : Bool} {a : Nat} {bs : List Byte} {w : Nat} {s : State} (hw : Memory.wf s.pool.mem = true)
    (hlt : max a (8 * w) ≤ min (a + bs.length) (8 * w + 8)) (hok : WordTakes s a bs.length w) :
    let r := poolWriteWord p a bs w s
    r.2 = none ∧ PoolOnly s r.1 ∧ Memory.wf r.1.pool.mem = true ∧ (∀ v, v ≠ w → eccState r.1 v = eccState s v) ∧
      (mwf false s.pool.poison = true → mwf false r.1.pool.poison = true ∧
        ∀ v, mget false r.1.pool.poison v = if v = w then p else mget false s.pool.poison v) ∧
      (∀ j, mget (0 : Byte) r.1.pool.mem j =
        if j / 8 = w ∧ a ≤ j ∧ j < a + bs.length then bs.getD (j - a) 0 else mget 0 s.pool.mem j) := by
  have key : ∀ t : State, ReadOnly s t → ∀ u : State, u = { t with pool := { t.pool with
        mem := writeBytes t.pool.mem (max a (8 * w)) ((bs.drop (max a (8 * w) - a)).take (min (a + bs.length) (8 * w + 8) - max a (8 * w)))
        poison := mset false t.pool.poison w p
        upset := mset 0 t.pool.upset w 0
        writeback := t.pool.writeback.filter (· != w) } } →
      PoolOnly s u ∧ Memory.wf u.pool.mem = true ∧ (∀ v, v ≠ w → eccState u v = eccState s v) ∧
      (mwf false s.pool.poison = true → mwf false u.pool.poison = true ∧
        ∀ v, mget false u.pool.poison v = if v = w then p else mget false s.pool.poison v) ∧
      (∀ j, mget (0 : Byte) u.pool.mem j =
        if j / 8 = w ∧ a ≤ j ∧ j < a + bs.length then bs.getD (j - a) 0 else mget 0 s.pool.mem j) := by
    intro t ht u hu'
    have hm : t.pool.mem = s.pool.mem := ht.mem
    have hpo : t.pool.poison = s.pool.poison := by rw [ht.eq]
    have hup : t.pool.upset = s.pool.upset := by rw [ht.eq]
    have hfr : t.free = s.free := by rw [ht.eq]
    subst hu'
    refine ⟨⟨by rw [ht.eq]⟩, wf_writeBytes _ _ _ (hm ▸ hw), fun v hv => ?_, fun hpw => ⟨?_, fun v => ?_⟩, fun j => ?_⟩
    · simp only [Machine.eccState, eccFinds, eccWild, hpo, hup, hfr, mget_mset_other hv]
      rfl
    · dsimp only
      rw [hpo]
      exact mwf_mset _ hpw
    · dsimp only
      rw [hpo]
      by_cases e : v = w
      · subst e; rw [mget_mset_same _ hpw, if_pos rfl]
      · rw [mget_mset_other e, if_neg e]
    · dsimp only
      rw [hm]
      have hl : ((bs.drop (max a (8 * w) - a)).take (min (a + bs.length) (8 * w + 8) - max a (8 * w))).length =
          min (a + bs.length) (8 * w + 8) - max a (8 * w) := by simp; omega
      split
      next hc =>
        obtain ⟨k, rfl⟩ : ∃ k, j = max a (8 * w) + k := ⟨j - max a (8 * w), by omega⟩
        rw [mget_writeBytes_inside _ _ _ hw (by rw [hl]; omega)]
        rw [List.getD_eq_getElem?_getD, List.getD_eq_getElem?_getD, List.getElem?_take, if_pos (by omega), List.getElem?_drop]
        congr 2
        omega
      next hc =>
        refine mget_writeBytes_outside _ _ _ ?_
        rw [hl]
        omega
  intro r
  have hr : r = poolWriteWord p a bs w s := rfl
  unfold poolWriteWord at hr
  dsimp only at hr
  by_cases c : min (a + bs.length) (8 * w + 8) - max a (8 * w) = 8
  · simp only [c, decide_true, if_true, Bool.not_true, Bool.false_and, Bool.false_eq_true, if_false] at hr
    exact ⟨by rw [hr], key s (.refl s) r.1 (by rw [hr, c])⟩
  · have hg : eccState s w < 2 := by rcases hok with h | h <;> [omega; exact h]
    rw [eccMistakes_none (fun v hv => by simp only [List.mem_singleton] at hv; subst hv; exact eccFinds_of_good hg)] at hr
    have ho2 : (eccState (eccTouch w s) w == 2) = false := by
      rw [(readOnly_eccTouch w s).eccState]; simpa using Nat.ne_of_lt hg
    simp only [c, decide_false, Bool.not_false, Bool.false_eq_true, if_false, ho2, Bool.and_false] at hr
    exact ⟨by rw [hr], key _ (readOnly_eccTouch w s) r.1 (by rw [hr])⟩

theorem poolWrite_fold {p : Bool} {a : Nat} {bs : List Byte} : ∀ (ws : List Nat) (s : State) (o : Option Nat),
    ws.Nodup → Memory.wf s.pool.mem = true →
    (∀ w ∈ ws, max a (8 * w) ≤ min (a + bs.length) (8 * w + 8) ∧ WordTakes s a bs.length w) →
    let r := ws.foldl (fun (acc : State × Option Nat) w =>
      let (t, b) := poolWriteWord p a bs w acc.1
      (t, acc.2.orElse fun _ => b)) (s, o)
    r.2 = o ∧ PoolOnly s r.1 ∧ Memory.wf r.1.pool.mem = true ∧
      (mwf false s.pool.poison = true → ∀ v, mget false r.1.pool.poison v = if v ∈ ws then p else mget false s.pool.poison v) ∧
      (∀ j, mget (0 : Byte) r.1.pool.mem j =
        if j / 8 ∈ ws ∧ a ≤ j ∧ j < a + bs.length then bs.getD (j - a) 0 else mget 0 s.pool.mem j)
  | [], s, o, _, hw, _ => ⟨rfl, .refl s, hw, fun _ v => by simp, fun j => by simp⟩
  | w :: ws, s, o, hn, hw, hok => by
    simp only [List.nodup_cons] at hn
    obtain ⟨h1, h2, h3, h6, h8, h7⟩ := poolWriteWord_spec (p := p) hw (hok w (by simp)).1 (hok w (by simp)).2
    have ih := poolWrite_fold (p := p) ws (poolWriteWord p a bs w s).1 (o.orElse fun _ => (poolWriteWord p a bs w s).2) hn.2 h3
      (fun v hv => ⟨(hok v (by simp [hv])).1, by
        unfold WordTakes; rw [h6 v (fun e => hn.1 (e ▸ hv))]; exact (hok v (by simp [hv])).2⟩)
    obtain ⟨k1, k2, k3, k5, k4⟩ := ih
    simp only [List.foldl_cons]
    refine ⟨?_, h2.trans k2, k3, fun hp v => ?_, fun j => ?_⟩
    · rw [k1, h1]; cases o <;> rfl
    · rw [k5 (h8 hp).1 v, (h8 hp).2 v]
      by_cases c1 : v = w <;> by_cases c2 : v ∈ ws <;> simp [c1, c2]
    · rw [k4 j, h7 j]
      by_cases c1 : j / 8 = w
      · by_cases c2 : a ≤ j ∧ j < a + bs.length
        · simp [c1, c2, hn.1]
        · simp [c2]
      · by_cases c3 : j / 8 ∈ ws
        · simp [c1, c3]
        · simp [c1, c3]

theorem eccWords_mem {a n w : Nat} (hn : 0 < n) : w ∈ eccWords a n ↔ a / 8 ≤ w ∧ w ≤ (a + n - 1) / 8 := by
  simp only [eccWords, show n ≠ 0 by omega, if_false, List.mem_map, List.mem_range]
  constructor
  · rintro ⟨k, hk, rfl⟩; omega
  · rintro ⟨h1, h2⟩; exact ⟨w - a / 8, by omega, by omega⟩

theorem eccWords_nodup (a n : Nat) : (eccWords a n).Nodup := by
  unfold eccWords
  split
  · exact List.nodup_nil
  · exact (List.nodup_range).map (fun x y h => by simpa using h)

/-- A write of bytes, none of them part of an uncorrectable or poisoned word that it does not cover whole: those bytes hold what was
written, their words take the write's poison, every other byte reads as before, and only counters change besides. -/
theorem poolWrite_spec {p : Bool} {a : Nat} {bs : List Byte} {s : State} (hw : Memory.wf s.pool.mem = true)
    (hok : ∀ w ∈ eccWords a bs.length, WordTakes s a bs.length w) :
    (poolWrite p a bs s).2 = none ∧ PoolOnly s (poolWrite p a bs s).1 ∧ Memory.wf (poolWrite p a bs s).1.pool.mem = true ∧
      (mwf false s.pool.poison = true → ∀ v, mget false (poolWrite p a bs s).1.pool.poison v =
        if v ∈ eccWords a bs.length then p else mget false s.pool.poison v) ∧
      (∀ j, mget (0 : Byte) (poolWrite p a bs s).1.pool.mem j =
        if a ≤ j ∧ j < a + bs.length then bs.getD (j - a) 0 else mget 0 s.pool.mem j) := by
  have h := poolWrite_fold (p := p) (a := a) (bs := bs) (eccWords a bs.length) s none (eccWords_nodup _ _) hw
    (fun w hm => ⟨by
      by_cases hn : bs.length = 0
      · simp [eccWords, hn] at hm
      · have := (eccWords_mem (by omega)).1 hm
        omega, hok w hm⟩)
  obtain ⟨h1, h2, h3, h5, h4⟩ := h
  unfold poolWrite
  dsimp only
  have hb := (readOnly_bumpRows a bs.length ((eccWords a bs.length).foldl (fun (acc : State × Option Nat) w =>
      let (t, b) := poolWriteWord p a bs w acc.1
      (t, acc.2.orElse fun _ => b)) (s, none)).1)
  refine ⟨h1, h2.trans (hb.poolOnly.trans (readOnly_touch _).poolOnly), ?_, fun hp v => ?_, fun j => ?_⟩
  · rw [(readOnly_touch _).mem, hb.mem]; exact h3
  · rw [← h5 hp v, (readOnly_touch _).eq, hb.eq]
  · rw [(readOnly_touch _).mem, hb.mem, h4 j]
    by_cases c : a ≤ j ∧ j < a + bs.length
    · have : j / 8 ∈ eccWords a bs.length := (eccWords_mem (by omega)).2 (by omega)
      simp [this, c]
    · simp [c]

end Sys2Proof.Machine
end

