-- ==== Sys2Proof/Laws/Pop.lean ====
section
/-! SUPPORT. What the operations that take lines from channels do to the rest of the state (R108, R109): an engine that takes
the operands of one clk changes the channels, the count of lines that the buffer has given, and the mark of an active clk; a
vector member that reads a link changes the link queues as well. -/

namespace Sys2Proof.Machine

/-! ## Lines taken from channels -/

/-- A state that differs only in the channels, in the count of lines they gave in this clk, and in the mark of an active clk. -/
structure Popped (s u : State) : Prop where
  eq : u = { s with chans := u.chans, clock := { s.clock with pops := u.clock.pops }, sync := { s.sync with active := u.sync.active } }

theorem Popped.refl (s : State) : Popped s s := ⟨rfl⟩

theorem Popped.trans {s t u : State} (h : Popped s t) (k : Popped t u) : Popped s u := ⟨by rw [k.eq, h.eq]⟩

theorem popped_chLeave (c n : Nat) (s : State) : Popped s (chLeave c n s) := ⟨rfl⟩

theorem popped_chPop (c ep n : Nat) (s : State) : Popped s (chPop c ep n s) := by
  unfold chPop
  dsimp only
  split
  · exact popped_chLeave c n s
  · split <;> exact ⟨rfl⟩

/-- Lines taken: as many as were asked for, and nothing else differs. -/
theorem chTake_spec {c ep n : Nat} {s u : State} {ls : List Line} (h : chTake c ep n s = some (ls, u)) : Popped s u := by
  unfold chTake at h
  split at h
  · cases h; exact .refl s
  · split at h
    · cases h; exact popped_chPop c ep n s
    · cases h

theorem fetchElems_spec {ep c w n : Nat} {st st' : InStream} {s u : State} (h : fetchElems ep c w n st s = some (st', u)) :
    Popped s u := by
  unfold fetchElems at h
  dsimp only at h
  split at h
  · cases h; exact .refl s
  · split at h
    · cases h
    · rename_i k; cases h; exact chTake_spec k

theorem fetchAhead_spec (ep c w n : Nat) (st : InStream) (s : State) : Popped s (fetchAhead ep c w n st s).2 := by
  unfold fetchAhead
  dsimp only
  split
  · exact .refl s
  · split
    · exact .refl s
    · rename_i k; exact chTake_spec k

theorem pullBlocks_spec (ep c f rowlen len n : Nat) :
    ∀ (k : Nat) (st : InStream) (s : State), Popped s (pullBlocks ep c f rowlen len n k st s).2
  | 0, _, s => .refl s
  | k + 1, st, s => by
    unfold pullBlocks
    dsimp only
    split
    · exact .refl s
    · split
      · exact .refl s
      · rename_i h
        split
        · exact (chTake_spec h).trans (pullBlocks_spec ep c f rowlen len n k _ _)
        · exact chTake_spec h

/-! ## The operands of a clk of an array and of the RSU -/

theorem fetchGroups_spec {ep c f h n k : Nat} {buf scales : List Nat} {s u : State} {x : List (List Nat)} {y z : List Nat}
    (e : fetchGroups ep c f h n k buf scales s = some (x, y, z, u)) : Popped s u := by
  unfold fetchGroups at e
  dsimp only at e
  split at e
  · cases e
  · rename_i k; cases e; exact chTake_spec k

/-- The operands of one clk of an array: the run keeps its entry and its place, and only the channels differ. -/
theorem fetchClk_spec {a : Arr} {r : ArrRun} {f : ArrFetch} {s u : State} (h : fetchClk a r s = some (f, u)) :
    Popped s u ∧ f.run.e = r.e ∧ f.run.k = r.k := by
  unfold fetchClk at h
  dsimp only at h
  split at h
  · cases h
  · rename_i ha
    split at h
    · split at h
      · cases h
      · cases h; exact ⟨fetchGroups_spec ha, rfl, rfl⟩
    · split at h
      · cases h
      · split at h
        · cases h
        · rename_i hb
          cases h; exact ⟨(fetchGroups_spec ha).trans (fetchGroups_spec hb), rfl, rfl⟩

/-- The elements of one clk of the RSU: the run moves on by them, and only the channels differ. -/
theorem rsuPull_spec {r r1 : RsuRun} {n : Nat} {s u : State} {els : List (Word × Word × Bool)}
    (h : rsuPull r n s = some (els, r1, u)) :
    Popped s u ∧ els.length = n ∧ r1 = { r with x := r1.x, y := r1.y, m := r1.m, pos := r.pos + n } := by
  by_cases c : r.e.op = 0x1C <;> by_cases d : r.e.rMask = true <;>
    simp only [rsuPull, c, d, if_true, if_false, Bool.false_eq_true, Option.bind_eq_bind, Option.bind_eq_some_iff, Option.bind_some,
      Option.some.injEq, Prod.mk.injEq, Prod.exists] at h
  · obtain ⟨x, s1, hx, y, s2, hy, m, s3, hm, rfl, rfl, rfl⟩ := h
    exact ⟨((fetchElems_spec hx).trans (fetchElems_spec hy)).trans (fetchElems_spec hm), by simp, rfl⟩
  · obtain ⟨x, s1, hx, y, s2, hy, rfl, rfl, rfl⟩ := h
    exact ⟨(fetchElems_spec hx).trans (fetchElems_spec hy), by simp, rfl⟩
  · obtain ⟨x, s1, hx, m, s3, hm, rfl, rfl, rfl⟩ := h
    exact ⟨(fetchElems_spec hx).trans (fetchElems_spec hm), by simp, rfl⟩
  · obtain ⟨x, s1, hx, rfl, rfl, rfl⟩ := h
    exact ⟨fetchElems_spec hx, by simp, rfl⟩

/-! ## The operands of a vector member -/

/-- The same, but for the link queues (R107). -/
structure Fed (s u : State) : Prop where
  eq : u = { s with chans := u.chans, clock := { s.clock with pops := u.clock.pops }, sync := { s.sync with active := u.sync.active },
                    vec := { s.vec with links := u.vec.links } }

theorem Popped.fed {s u : State} (h : Popped s u) : Fed s u := ⟨by rw [h.eq]⟩

theorem Fed.refl (s : State) : Fed s s := (Popped.refl s).fed

theorem Fed.trans {s t u : State} (h : Fed s t) (k : Fed t u) : Fed s u := ⟨by rw [k.eq, h.eq]⟩

theorem linkPop_spec (c : Nat) (t : InStream) (s : State) : Fed s (linkPop c t s).2 := by
  unfold linkPop
  split <;> exact ⟨rfl⟩

theorem feed_spec {c w n : Nat} {t t' : InStream} {s u : State} (h : feed c w n t s = some (t', u)) : Fed s u := by
  unfold feed at h
  split at h
  · have e : (linkPop c t s).2 = u := by rw [Option.some.inj h]
    exact e ▸ linkPop_spec c t s
  · exact (fetchElems_spec h).fed

theorem setStr_e (m : Member) (o : Nat) (t : InStream) : (m.setStr o t).e = m.e := by
  unfold Member.setStr; split <;> [rfl; split <;> rfl]

theorem readyOperand_spec {hi o : Nat} {m m' : Member} {s u : State} (h : readyOperand hi o m s = some (m', u)) :
    Fed s u ∧ m'.e = m.e := by
  unfold readyOperand at h
  dsimp only at h
  split at h
  · cases h; exact ⟨.refl s, rfl⟩
  · split at h
    · split at h
      · cases h; exact ⟨.refl s, rfl⟩
      · cases h
    · obtain ⟨p, hp, e⟩ := Option.map_eq_some_iff.mp h
      cases e
      exact ⟨feed_spec (t' := p.1) hp, setStr_e ..⟩

theorem readyMasks_spec {n : Nat} {m m' : Member} {s u : State} (h : readyMasks n m s = some (m', u)) : Fed s u ∧ m'.e = m.e := by
  unfold readyMasks at h
  dsimp only at h
  split at h
  · split at h
    · cases h
    · rename_i hx
      split at h
      · obtain ⟨p, hp, e⟩ := Option.map_eq_some_iff.mp h
        cases e
        exact ⟨(feed_spec hx).trans (feed_spec (t' := p.1) hp), rfl⟩
      · cases h; exact ⟨feed_spec hx, rfl⟩
  · split at h
    · obtain ⟨p, hp, e⟩ := Option.map_eq_some_iff.mp h
      cases e
      exact ⟨feed_spec (t' := p.1) hp, rfl⟩
    · cases h; exact ⟨.refl s, rfl⟩

/-- The inputs of a member's step: it stays the instruction it is, and only channels and links differ. -/
theorem readyMember_spec {lo hi : Nat} {m m' : Member} {s u : State} (h : readyMember lo hi m s = some (m', u)) :
    Fed s u ∧ m'.e = m.e := by
  by_cases c : m.e.op = 0x29
  all_goals
    simp only [readyMember, Option.bind_eq_bind, Option.bind_eq_some_iff, Prod.exists] at h
    obtain ⟨m0, s0, h0, h⟩ := h
    obtain ⟨f0, e0⟩ := readyMasks_spec h0
    simp only [e0, c, if_true, if_false, Option.bind_eq_some_iff, Prod.exists] at h
    obtain ⟨m1, s1, h1, m2, s2, h2, h3⟩ := h
    obtain ⟨f2, e2⟩ := readyOperand_spec h2
    obtain ⟨f3, e3⟩ := readyOperand_spec h3
  · obtain ⟨p, hp, e⟩ := Option.map_eq_some_iff.mp h1
    cases e
    exact ⟨((f0.trans (fetchElems_spec (st' := p.1) hp).fed).trans f2).trans f3, e3.trans (e2.trans e0)⟩
  · obtain ⟨f1, e1⟩ := readyOperand_spec h1
    exact ⟨((f0.trans f1).trans f2).trans f3, e3.trans (e2.trans (e1.trans e0))⟩

/-- What is popped ahead of a step: the member stays the instruction it is, and only channels differ. -/
theorem prefetch_spec (hi : Nat) (m : Member) (s : State) : Popped s (prefetch hi m s).2 ∧ (prefetch hi m s).1.e = m.e := by
  have ahead : ∀ (o : Nat) (p : Member × State), p.1.e = m.e → Popped s p.2 →
      Popped s (if m.e.vUses o && decide (m.e.vSrc o ≤ 1) && !fmtBlock (m.e.vFmt o) && decide (m.e.vCh o < 56) && m.e.op != 0x29
        then (p.1.setStr o (fetchAhead 3 (m.e.vCh o) (fmtBits (m.e.vFmt o)) (upto (p.1.str o) (srcIndex m.e o (hi - 1) + 1)) (p.1.str o) p.2).1,
          (fetchAhead 3 (m.e.vCh o) (fmtBits (m.e.vFmt o)) (upto (p.1.str o) (srcIndex m.e o (hi - 1) + 1)) (p.1.str o) p.2).2)
        else p).2 ∧
      (if m.e.vUses o && decide (m.e.vSrc o ≤ 1) && !fmtBlock (m.e.vFmt o) && decide (m.e.vCh o < 56) && m.e.op != 0x29
        then (p.1.setStr o (fetchAhead 3 (m.e.vCh o) (fmtBits (m.e.vFmt o)) (upto (p.1.str o) (srcIndex m.e o (hi - 1) + 1)) (p.1.str o) p.2).1,
          (fetchAhead 3 (m.e.vCh o) (fmtBits (m.e.vFmt o)) (upto (p.1.str o) (srcIndex m.e o (hi - 1) + 1)) (p.1.str o) p.2).2)
        else p).1.e = m.e := by
    intro o p he hp
    split
    · exact ⟨hp.trans (fetchAhead_spec ..), (setStr_e ..).trans he⟩
    · exact ⟨hp, he⟩
  unfold prefetch
  dsimp only
  have h0 : ∀ p : Member × State, p = (if m.e.vUses 0 && decide (m.e.vSrc 0 ≤ 1) && fmtBlock (m.e.vFmt 0) && decide (m.e.chX < 56)
      then ({ m with x := (pullBlocks 3 m.e.chX (m.e.vFmt 0) m.e.rowLen (srcLen m.e 0 m.len) (upto m.x (srcIndex m.e 0 (hi - 1) + 1))
          (upto m.x (srcIndex m.e 0 (hi - 1) + 1) / 32 + 1) m.x s).1 },
        (pullBlocks 3 m.e.chX (m.e.vFmt 0) m.e.rowLen (srcLen m.e 0 m.len) (upto m.x (srcIndex m.e 0 (hi - 1) + 1))
          (upto m.x (srcIndex m.e 0 (hi - 1) + 1) / 32 + 1) m.x s).2)
      else (m, s)) → p.1.e = m.e ∧ Popped s p.2 := by
    intro p hp
    subst hp
    split
    · exact ⟨rfl, pullBlocks_spec ..⟩
    · exact ⟨rfl, .refl s⟩
  obtain ⟨he, hp⟩ := h0 _ rfl
  have k0 := ahead 0 _ he hp
  have k1 := ahead 1 _ k0.2 k0.1
  exact ahead 2 _ k1.2 k1.1

end Sys2Proof.Machine
end

