-- ==== Sys2Proof/Tests/Slice0.lean ====
section
/-! SUPPORT. Tests and witnesses: each operand check refuses an ill-formed command, small steps on small states with results
from the spec, and states that meet the hypotheses of each statement. -/

set_option Elab.async false

namespace Sys2Proof.Tests

open Sys2Proof Sys2Proof.Machine Sys2Proof.Claims

/-! ## Small states -/

/-- Right after reset, at clk 10. -/
def at10 : State := { State.reset with clock := { State.reset.clock with clk := 10, ek := 10, refc := 10 } }

/-- An entry that issued in clk 1, with an opcode, a descriptor and other slot word bits. -/
def ent (op : Nat) (d : W8 := W8.zero) (low : Nat := 0) : Entry :=
  ⟨word (op * 2 ^ 26 + low), 7, d, W8.zero, 0, 0, 0, 0, 0, [], false, 0, 0, 1, 1, 5⟩

/-- A state with one entry at the head of a slot's queue. -/
def queued (slot : Nat) (e : Entry) (s : State := at10) : State :=
  setQ slot [e] { s with live := [⟨slot, e.bseq, e.id, false⟩] }

/-- A state with one replay of bundle n of half 0, with pc patches, at the head of the command queue. -/
def replaying (n : Nat) (b : W8) (pc : Nat := 0) (p : W8 := W8.zero) : State :=
  { at10 with rcv := { Rcv.init with
      cmdq := [.replay false n n 1 0 pc 0x02000001 0], half0 := ⟨true, false, true, 2, 1, [(n, b)], [(0, p)]⟩ } }

/-- A mark bundle: OP, CHK and BEAT_NO (R128). -/
def markBundle (op : Nat) (chk : Bool) (no : Word) : W8 :=
  ⟨word (2 * 2 ^ 30 + op * 2 ^ 24), no, if chk then 0x80000000 else 0, 0, 0, 0, 0, 0⟩

/-! ## Spring and issue -/

theorem witness_spring : at10.out.sprRdy = true ∧ at10.pins.pondHalt = false ∧ at10.rcv.load = none ∧
    halfBusy at10 false = false ∧ at10.rcv.cmdq.length < 8 := by decide

theorem witness_replay_command :
    let s := { at10 with rcv := { Rcv.init with half0 := ⟨true, false, true, 512, 64, [], []⟩ } }
    s.out.sprRdy = true ∧ s.pins.pondHalt = false ∧ s.rcv.cmdq.length < 8 ∧ 511 < (getHalf s false).nbund ∧
      0 + 64 ≤ (getHalf s false).npatch ∧ (getHalf s false).loaded = true ∧
      (1 < 2 → (getHalf s false).valid = true → rangeHasChk (getHalf s false) 511 511 = false) := by decide

theorem witness_resume :
    let s := { at10 with issue := { at10.issue with holdMark := true } }
    s.out.sprRdy = true ∧ s.pins.pondHalt = false ∧ s.issue.holdMark = true ∧ at10.issue.holdMark = false := by decide

/-- The data flit of descriptor words 4 to 7, all zero, after words 0 to 3, all zero. -/
def descLoading : State :=
  { at10 with rcv := { Rcv.init with
      load := some ⟨false, false, 1, 3, 0, 0, crc32cEnd (crc32cRun 5 (leBytes 16 0)), 0, 0, 1, 0, 0, [0, 0, 0, 0], 5⟩
      cmdq := [.descLoad 1 3 none] } }

theorem witness_desc_flit : descLoading.out.sprRdy = true ∧ descLoading.pins.pondHalt = false ∧
    ∀ l ∈ descLoading.rcv.load, l.isBlock = false ∧ l.left = 1 ∧ l.words.length = 4 ∧
      crc32cEnd (crc32cRun l.crcRun (leBytes 16 (0 : BitVec 128).toNat)) = l.crc := by decide +kernel

theorem witness_cmd_bytes : (List.range 5).map (fun k => wfld ((flitWords (BitVec.ofNat 128 ((k + 1) * 2 ^ 120))).getD 3 0) 31 24) =
    [1, 2, 3, 4, 5] := by decide

theorem witness_stray_flit : at10.out.sprRdy = true ∧ at10.pins.pondHalt = false ∧ at10.rcv.load = none := by
  decide

theorem witness_desc_execute :
    let s := { at10 with rcv := { Rcv.init with cmdq := [.descLoad 6 63 (some W8.zero)] } }
    s.rcv.cmdq = [.descLoad 6 63 (some W8.zero)] ∧ s.rcv.doneAt = none ∧ issuePointFree s = true ∧ sclQuiet s = true := by decide

/-- A command that completes in this clk, before a clk that no ref_clk edge ends. -/
theorem witness_command_leaves :
    let s := { at10 with rcv := { Rcv.init with cmdq := [.beatNo 9], doneAt := some 10 } }
    s.rcv.cmdq = .beatNo 9 :: [] ∧ s.rcv.doneAt = some 10 ∧ 10 ≤ s.clock.clk ∧ s.clock.refFrac + 1 < clkPerRef s := by decide

theorem witness_beat_no_execute :
    let s := { at10 with rcv := { Rcv.init with cmdq := [.beatNo 9] } }
    s.rcv.cmdq = [.beatNo 9] ∧ s.rcv.doneAt = none ∧ s.pins.pondHalt = false ∧ awake s = true ∧ stepDone s 8 = true ∧
      ∀ c, s.issue.lastIssue = some c → c < s.clock.clk := ⟨rfl, rfl, rfl, rfl, rfl, fun _ h => nomatch h⟩

/-- A patch list of one SET of word 1, bits 7 to 0, of descriptor 1.3, to 5. -/
def patching : State :=
  let s := replaying 0 W8.zero 1 ⟨word (1 * 2 ^ 28 + 1 * 2 ^ 26 + 1 * 2 ^ 23 + 3 * 2 ^ 17 + 1 * 2 ^ 14 + 7 * 2 ^ 4), 5, 0, 255, 0, 0,
    0, 0⟩
  { s with issue := { s.issue with phase := some .pre } }

theorem witness_patch :
    let e := halfPatch (getHalf patching false) 0
    patching.rcv.cmdq = [.replay false 0 0 1 0 1 0x02000001 0] ∧ patching.rcv.doneAt = none ∧ patching.descUpset = [] ∧
    (getHalf patching false).valid = true ∧
      patching.issue.phase = some .pre ∧ patchesAt (getHalf patching false) 0 1 1 = [0] ∧
      issuePointFree patching = true ∧ sclQuiet patching = true ∧ faulting patching = false ∧ patching.out.sprRdy = true ∧
      patching.rcv.badParity.contains (false, true, 0) = false ∧
      patchValue e ((descGet patching 1 3).fld 1 7 0) (sreg patching 0) = .ok 5 :=
  ⟨rfl, rfl, rfl, rfl, rfl, rfl, rfl, rfl, rfl, rfl, rfl, rfl⟩

/-- A bundle whose VEC slot is empty and whose SCL slot holds LI S1, 5 (PRESENT bit of slot 6). -/
def liBundle : W8 := ⟨word (2 ^ 23), 0, 0, 0, 0, 0, 0, word (0x18 * 2 ^ 26 + 1 * 2 ^ 20 + 5)⟩

theorem witness_bundle :
    let s := replaying 1 liBundle
    nextPos s = some (false, 0, 1) ∧ mayIssue s = true ∧ hdrKind (halfBundle (getHalf s false) 1).w0 = 0 ∧
      roomFor s (halfBundle (getHalf s false) 1) = true ∧ sclClear s (halfBundle (getHalf s false) 1) = true ∧
      s.rcv.badParity.contains (false, false, 1) = false ∧ s.descUpset = [] ∧ hdrPresent (halfBundle (getHalf s false) 1).w0 6 = true ∧
      bundleFaults s (bundleEntries s (halfBundle (getHalf s false) 1) false 0 1) = [] := by decide

theorem witness_mark : ∀ op ∈ [1, 2, 3, 4],
    let s := replaying 1 (markBundle op false 0)
    nextPos s = some (false, 0, 1) ∧ mayIssue s = true ∧ hdrKind (halfBundle (getHalf s false) 1).w0 = 2 ∧
      markOp (halfBundle (getHalf s false) 1) = op ∧ s.rcv.badParity.contains (false, false, 1) = false ∧ s.issue.chain = [] ∧
      wbit (halfBundle (getHalf s false) 1).w2 31 = false := by
  decide

theorem witness_wrong_mark : ∀ op ∈ [1, 2, 3, 4],
    let s := replaying 1 (markBundle op true 9)
    nextPos s = some (false, 0, 1) ∧ mayIssue s = true ∧ hdrKind (halfBundle (getHalf s false) 1).w0 = 2 ∧
      markOp (halfBundle (getHalf s false) 1) = op ∧ s.rcv.badParity.contains (false, false, 1) = false ∧ s.issue.chain = [] ∧
      wbit (halfBundle (getHalf s false) 1).w2 31 = true ∧
      (halfBundle (getHalf s false) 1).w1 ≠ s.s63 := by decide

/-! ## Beat, level, halt, droop -/

theorem witness_beat_edge : ∀ snap ∈ [false, true],
    let s := { at10 with cnt := { at10.cnt with snap := snap }, issue := { at10.issue with mark := snap, act := some .beat } }
    s.pins.pondHalt = false ∧ rcvUp s = true ∧ stepDone s 9 = true ∧ s.issue.s63Set ≠ some s.clock.clk ∧ s.issue.stop = .none ∧
      (s.issue.mark = true → s.issue.act = some .beat) ∧ s.out.coreFault = false ∧ s.cnt.snap = snap := by decide

/-- A core that hears no edge: pond_halt is 1, or the core is in Shallows. -/
theorem witness_no_edge :
    let h := { at10 with pins := { at10.pins with pondHalt := true } }
    let s := { at10 with pwr := { at10.pwr with state := 3 } }
    h.pins.pondHalt = true ∧ rcvUp s = false ∧ h.undo = none ∧ at10.undo = none ∧ at10.pins.pondHalt = false ∧
      ∀ f ∈ at10.err.fresh, f.code ≠ 0x86 := by decide

theorem witness_beat_due :
    let s := { at10 with issue := { at10.issue with service := true } }
    let m := { at10 with issue := { at10.issue with mark := true } }
    s.pins.pondHalt = false ∧ rcvUp s = true ∧ halted s = false ∧ s.issue.stop = .none ∧ s.issue.service = true ∧
      s.issue.mark = false ∧ s.out.coreLate = false ∧ rcvUp m = true ∧ m.pins.pondHalt = false ∧ m.issue.stop = .none ∧
      m.issue.mark = true := by decide

theorem witness_late : ∀ n ∈ [1024, 1025],
    let s := { at10 with out := { at10.out with coreLate := true }, issue := { at10.issue with lateRun := n }
                         sync := { at10.sync with holdMax := 1024 } }
    s.out.coreLate = true ∧ (s.sync.holdMax < s.issue.lateRun ∨ s.issue.lateRun ≤ s.sync.holdMax) ∧ s.issue.lateRun = n := by decide

/-- Levels at their boundaries: a target within the limit with the voltage reached; one beyond the limit; a raise of the level
before pl_ready, and one after it; a lowering. -/
theorem witness_level :
    let s := { at10 with pins := { at10.pins with plTarget := 1 }
                         pwr := { at10.pwr with ready := true, vout := levelVolt 1, slewFrom := 50 * levelVolt 1, mode := false } }
    let t := { s with pwr := { s.pwr with ready := false, level := 0 } }
    let u := { t with pins := { t.pins with plTarget := 3 } }
    let v := { t with pins := { t.pins with plTarget := 0 }, pwr := { t.pwr with level := 1 } }
    rcvUp s = true ∧ s.pins.pondHalt = false ∧ plLimit s = 1 ∧ s.pins.plTarget.toNat ≤ plLimit s ∧ s.pwr.mode = false ∧
      voltNow s = 50 * s.pwr.vout ∧ s.pwr.ready = true ∧ t.pwr.ready = false ∧
      t.pwr.level.toNat < min t.pins.plTarget.toNat (plLimit t) ∧ plLimit u < u.pins.plTarget.toNat ∧
      u.pwr.level.toNat < min u.pins.plTarget.toNat (plLimit u) ∧ v.pwr.ready = false ∧
      min v.pins.plTarget.toNat (plLimit v) ≤ v.pwr.level.toNat ∧ rcvUp v = true ∧
      voltNow { s with pwr := { s.pwr with vout := levelVolt 3, slewFrom := 50 * levelVolt 1, slewAt := 10 } } ≠ 50 * levelVolt 3 := by
  decide

/-- droop_alert low with no window, with one whose last clk is 9, and with one whose last clk is the present clk 10. -/
theorem witness_droop :
    let s := { at10 with pins := { at10.pins with droopAlert := true }, clock := { at10.clock with winFirst := some 7 } }
    let t := { at10 with clock := { at10.clock with winFirst := some 7, winLast := some 9 } }
    let u := { at10 with clock := { at10.clock with winFirst := some 7, winLast := some 10 } }
    awake at10 = true ∧ at10.pins.droopAlert = false ∧ at10.clock.winFirst = none ∧ s.pins.droopAlert = true ∧
      s.clock.winFirst = some 7 ∧ t.clock.winLast = some 9 ∧ 9 < t.clock.clk ∧ u.clock.winFirst = some 7 ∧
      ∀ l, u.clock.winLast = some l → u.clock.clk ≤ l := by
  refine ⟨rfl, rfl, rfl, rfl, rfl, rfl, by decide, rfl, fun l h => ?_⟩
  cases h; decide

theorem witness_hold :
    let s := { at10 with issue := { at10.issue with stop := .holdWait 3, idleRun := 32 }, pwr := { at10.pwr with state := 0 } }
    let t := { queued 6 (ent 1) s with issue := { s.issue with idleRun := 31 } }
    s.issue.stop = .holdWait 3 ∧ workDone s = true ∧ halted s = false ∧ s.pwr.state = 0 ∧ 32 ≤ s.issue.idleRun ∧
      t.issue.stop = .holdWait 3 ∧ workDone t = false ∧ t.issue.idleRun < 32 := by decide

/-! ## Packets -/

/-- A packet from core 1 of chip 0 to this core: TYPE, SPACE, OFFSET, words 4 to 6 and its payload, with its CRC. -/
def pkt (typ space off : Nat) (w4 w5 w6 : Word) (data : List Byte) : Pkt :=
  let p : Pkt := ⟨0, flitsOf data.length, true, word (typ * 2 ^ 27 + data.length * 2 ^ 8 + 9), word off, word (space * 2 ^ 16),
    0x100, w4, w5, w6, 0, data⟩
  { p with w7 := packetCrc p.hdr p.data }

/-- Bank 0 in area 0, banks 1 to 3 in areas 2, 3 and 4; 8 outstanding requests of core 1. -/
def pooled : State :=
  { at10 with img := { at10.img with cur := { Image.null with
      areas := [⟨0, 1, false⟩, ⟨1, 0, false⟩, ⟨1, 1, false⟩, ⟨2, 1, false⟩, ⟨3, 1, false⟩], formats := 0xFFF } } }

/-- What Accepted asks of a packet of pkt and a state besides the CRC, as one decidable test. -/
def taken (p : Pkt) (s : State) : Bool :=
  awake s && stepDone s 7 && !s.clock.skip && !installing s && s.fab.parked.isEmpty && decide (p.flits ≤ rxCredit s p.ch.toNat) &&
    p.flits == flitsOf p.plen && p.contig && formOk p && p.core == s.straps.core.toNat && jobOk s p && !stopped s p

theorem pkt_crc (typ space off : Nat) (w4 w5 w6 : Word) (data : List Byte) :
    packetCrc (pkt typ space off w4 w5 w6 data).hdr (pkt typ space off w4 w5 w6 data).data = (pkt typ space off w4 w5 w6 data).w7 := by
  simp only [pkt, Pkt.hdr, Pkt.data, packetCrc, Pkt.plen]

theorem taken_accepted {typ space off : Nat} {w4 w5 w6 : Word} {data : List Byte} {s : State}
    (h : taken (pkt typ space off w4 w5 w6 data) s = true) : Accepted (pkt typ space off w4 w5 w6 data) s := by
  simp only [taken, Bool.and_eq_true, Bool.not_eq_true', List.isEmpty_iff, decide_eq_true_eq, beq_iff_eq] at h
  obtain ⟨⟨⟨⟨⟨⟨⟨⟨⟨⟨⟨h1, h2⟩, h3⟩, h4⟩, h5⟩, h6⟩, h7⟩, h8⟩, h10⟩, h11⟩, h12⟩, h13⟩ := h
  exact { awake := h1, port := h2, clk := h3, installing := h4, parked := h5, credit := h6, flits := h7, contig := h8,
          crc := pkt_crc typ space off w4 w5 w6 data, form := h10, core := h11, job := h12, going := h13 }

theorem witness_put :
    let p := pkt 1 1 256 0 0 0 [1, 2, 3, 4]
    let q := pkt 1 1 (2 ^ 24 - 256) 0 0 0 [1, 2, 3, 4]
    p.typ = 1 ∧ taken p pooled = true ∧ toReplica pooled p = false ∧ pooled.canonical = true ∧
      fabStore pooled p.off (p.off + p.plen - 1) = true ∧ Writable pooled p.off p.plen ∧ taken q pooled = true ∧
      toReplica pooled q = false ∧ fabStore pooled q.off (q.off + q.plen - 1) = false := by decide

theorem witness_get :
    let p := pkt 2 1 256 0 256 0 []
    let q := pkt 2 1 (2 ^ 24 - 256) 0 256 0 []
    p.typ = 2 ∧ taken p pooled = true ∧ toReplica pooled p = false ∧
      fabStore pooled p.off (p.off + wfld p.w5 8 0 - 1) = true ∧ NotMistaken pooled p.off (wfld p.w5 8 0) ∧
      taken q pooled = true ∧ toReplica pooled q = false ∧ fabStore pooled q.off (q.off + wfld q.w5 8 0 - 1) = false := by decide

/-- Adds to flags at both ends of their range, one that leaves it, and two of one clk, of which the second waits for the first. -/
theorem witness_fadd_carry :
    let f := pkt 8 2 4095 1 0 0 []
    let c := pkt 9 5 0 (word (2 ^ 21 + 4095 * 2 ^ 9 + 62 * 8)) 0 0 (List.replicate 16 1)
    let a : FlagAdd := ⟨4095, 1, none, 9, true, 1⟩
    let b : FlagAdd := ⟨4095, -1, none, 9, true, 2⟩
    let one := { pooled with fab := { pooled.fab with adds := [a] } }
    let low := { pooled with fab := { pooled.fab with adds := [b] } }
    let copying := { pooled with ckpt := { pooled.ckpt with copy := some ⟨false, [], 0, 0, false, false, 0, 0⟩ } }
    f.typ = 8 ∧ taken f pooled = true ∧ c.typ = 9 ∧ taken c pooled = true ∧ taken f copying = true ∧ copying.ckpt.copy ≠ none ∧
      pooled.canonical = true ∧ pooled.ckpt.copy = none ∧ pooled.fab.carries = [] ∧ one.canonical = true ∧
      mget 0 one.flagUpset (a.flag / 4) = 0 ∧ a.rank < b.rank ∧ b.rank ≤ 2 ∧ a.inst = none ∧
      (0 : Int) ≤ ((flagGet one a.flag).toNat : Int) + a.amount ∧ ((flagGet one a.flag).toNat : Int) + a.amount ≤ 65535 ∧
      ¬((0 : Int) ≤ ((flagGet low b.flag).toNat : Int) + b.amount) ∧
      (0 : Int) ≤ ((flagGet one a.flag).toNat : Int) + a.amount + b.amount := by decide

theorem witness_racc : ∀ f ∈ [0, 1],
    let p := pkt 6 1 256 (BitVec.ofNat 32 f) 0 0 [0, 0, 0x80, 0x3F]
    p.typ = 6 ∧ taken p pooled = true ∧ pooled.canonical = true ∧ fabStore pooled p.off (p.off + p.plen - 1) = true ∧
      Readable pooled p.off p.plen := by decide

/-- A posted receive of step 3, tile 2: SUM in BF16 to byte 1024, or MAX for scale slot 4. -/
def awaiting (op elems : Nat) : State :=
  { pooled with fab := { pooled.fab with recv := [⟨3, 2, op, 1, 1024, 0, 6, elems, 4, 1, 2, []⟩] } }

theorem witness_sum_result :
    let p := pkt 11 1 0 (word 2) (word (3 * 2 ^ 16)) (word (2 * 2 ^ 8)) (List.replicate 256 0)
    let s := awaiting 0 1024
    let key := fun (r : Recv) => r.step == wfld p.w5 31 16 && r.tile == wfld p.w6 31 8 && r.op == wfld p.w4 21 20
    p.typ = 11 ∧ taken p s = true ∧ s.canonical = true ∧ wfld p.w4 21 20 ≠ 1 ∧
      s.fab.recv.find? key = some ⟨3, 2, 0, 1, 1024, 0, 6, 1024, 4, 1, 2, []⟩ ∧ wfld p.w6 4 0 ∉ ([] : List Nat) ∧
      wfld p.w6 4 0 < max 1 (1024 / 128) ∧ Writable s (1024 + 128 * wfld p.w6 4 0 * 2) (128 * 2) ∧ portOk s = true := by
  decide +kernel

/-- The receive of a MAX; a piece that its receive has; a piece that no receive waits for. -/
theorem witness_max_result :
    let p := pkt 11 1 0 (word (2 ^ 20 + 2)) (word (3 * 2 ^ 16)) (word (2 * 2 ^ 8)) [0, 0, 0x80, 0x3F]
    let s := awaiting 1 128
    let key := fun (r : Recv) => r.step == wfld p.w5 31 16 && r.tile == wfld p.w6 31 8 && r.op == wfld p.w4 21 20
    let had := { s with fab := { s.fab with recv := s.fab.recv.map fun r => { r with got := [0] } } }
    p.typ = 11 ∧ taken p s = true ∧ s.canonical = true ∧ wfld p.w4 21 20 = 1 ∧ wfld p.w6 4 0 < max 1 (128 / 128) ∧
      s.fab.recv.find? key = some ⟨3, 2, 1, 1, 1024, 0, 6, 128, 4, 1, 2, []⟩ ∧ (∀ x ∈ s.scaleNow, x.1 ≠ 4) ∧
      taken p had = true ∧ had.fab.recv.find? key = some ⟨3, 2, 1, 1, 1024, 0, 6, 128, 4, 1, 2, [0]⟩ ∧
      pooled.fab.recv.find? key = none ∧ taken p pooled = true := by decide +kernel

/-- A GETP of entry 5 with 8 packets of which packet 1 is outstanding, a PUT with 8 packets, and a flag add. -/
def requesting : State :=
  let w : W8 := ⟨0, 0, 0, 0, 0, 512, 0, 0⟩
  { pooled with
    fab := { pooled.fab with outst := [⟨9, 2, 0, 5, 1, 4⟩, ⟨9, 1, 0, 6, 0, 0⟩] }
    mov := { pooled.mov with fab := [mkFabOp (ent 0x2A w) 2048 1,
      mkFabOp { ent 0x28 with id := 6 } 2048 1] } }

/-- Replies to a request in the middle of an operation; a second operation that its last reply ends; and a poisoned GETR of a GET. -/
theorem witness_replies :
    let g := pkt 3 1 0 0 0 0 [1, 2, 3, 4]
    let a := pkt 4 1 0 0 0 0 []
    let s := requesting
    let last := { s with mov := { s.mov with fab := s.mov.fab.map fun f => { f with acked := 7 } } }
    let get := { s with mov := { s.mov with fab := [mkFabOp (ent 0x29) 2048 1] } }
    g.typ = 3 ∧ taken g s = true ∧ a.typ = 4 ∧ taken a s = true ∧ s.canonical = true ∧
      (s.fab.outst.find? fun o => o.tagx == g.tagx && (o.typ == 2)) = some ⟨9, 2, 0, 5, 1, 4⟩ ∧ g.plen = 4 ∧
      (s.mov.fab.find? fun f => f.e.id == 5).isSome = true ∧
      (∀ x ∈ s.mov.fab, x.e.id = 5 → x.e.op = 0x2A ∧ x.acked + 1 < x.packets) ∧
      (∀ x ∈ last.mov.fab, x.packets ≤ x.acked + 1) ∧ taken g last = true ∧ taken a last = true ∧
      Writable s (512 + 256) 4 ∧ taken g get = true ∧ (∀ x ∈ get.mov.fab, x.e.id = 5 ∧ x.e.op = 0x29) ∧
      (s.fab.outst.find? fun o => o.tagx == a.tagx && (o.typ != 2)) = some ⟨9, 1, 0, 6, 0, 0⟩ ∧
      (s.mov.fab.find? fun f => f.e.id == 6).isSome = true ∧
      (∀ x ∈ s.mov.fab, x.e.id = 6 → x.pops = true ∧ x.acked + 1 < x.packets) := by decide

theorem witness_nack : ∀ code ∈ [3, 7, 8, 9],
    let p := pkt 5 1 0 (word (code * 2 ^ 8)) 0 0 []
    let s := { pooled with fab := { pooled.fab with outst := [⟨9, 8, 3, 7, 0, 0⟩] } }
    p.typ = 5 ∧ taken p s = true ∧ taken p pooled = true ∧ wfld p.w4 12 8 = code ∧
      (s.fab.outst.find? fun o => o.tagx == p.tagx) = some ⟨9, 8, 3, 7, 0, 0⟩ ∧
      (pooled.fab.outst.find? fun o => o.tagx == p.tagx) = none := by decide

theorem witness_unmatched :
    let g := pkt 3 1 0 0 0 0 [1, 2, 3, 4]
    let a := pkt 4 1 0 0 0 0 []
    let s := { pooled with fab := { pooled.fab with outst := [⟨9, 2, 0, 5, 1, 8⟩] } }
    taken g pooled = true ∧ taken a pooled = true ∧ taken g s = true ∧
      (∀ o, (s.fab.outst.find? fun o => o.tagx == g.tagx && (o.typ == 2)) = some o → o.len ≠ g.plen) ∧
      (pooled.fab.outst.find? fun o => o.tagx == g.tagx && (o.typ == 2)) = none ∧
      (pooled.fab.outst.find? fun o => o.tagx == a.tagx && (o.typ != 2)) = none := by
  refine ⟨by decide, by decide, by decide, fun o h => ?_, by decide, by decide⟩
  cases h; decide

theorem witness_bad_packets :
    let p := pkt 1 1 256 0 0 0 [1, 2, 3, 4]
    let q := pkt 1 3 256 0 0 0 [1, 2, 3, 4]
    let far := pkt 1 1 (2 ^ 24 + 256) 0 0 0 [1, 2, 3, 4]
    let job := pkt 1 1 256 (word (3 * 2 ^ 22)) 0 0 [1, 2, 3, 4]
    let probe := pkt 12 3 0 0 0 0 []
    let rcon := pkt 10 1 0 0 0 0 []
    Arrives { p with flits := 2 } pooled ∧ Arrives p pooled ∧ Arrives q pooled ∧ Arrives far pooled ∧ Arrives job pooled ∧
      Arrives probe pooled ∧ Arrives rcon pooled ∧ rcon.typ = 10 ∧ packetCrc probe.hdr probe.data ≠ probe.w7 + 1 ∧
      ¬((2 : Nat) = flitsOf p.plen) ∧ packetCrc p.hdr p.data ≠ p.w7 + 1 ∧ formOk q = false ∧ formOk p = true ∧ formOk far = true ∧
      far.core ≠ pooled.straps.core.toNat ∧ job.core = pooled.straps.core.toNat ∧ formOk job = true ∧
      job.job ≠ pooled.job.id.toNat ∧ toReplica pooled job = false := by
  refine ⟨⟨rfl, rfl, rfl, rfl, rfl, by decide⟩, ⟨rfl, rfl, rfl, rfl, rfl, by decide⟩, ⟨rfl, rfl, rfl, rfl, rfl, by decide⟩,
    ⟨rfl, rfl, rfl, rfl, rfl, by decide⟩, ⟨rfl, rfl, rfl, rfl, rfl, by decide⟩, ⟨rfl, rfl, rfl, rfl, rfl, by decide⟩,
    ⟨rfl, rfl, rfl, rfl, rfl, by decide⟩, ?_⟩
  decide +kernel

/-- The arm check waits for the PROBER of core 1 of chip 0. -/
def arming (sameAck : Bool) : State :=
  { pooled with ckpt := { pooled.ckpt with state := 1, probe := some 3, partner := 0x100, sameAck := sameAck } }

theorem witness_prober :
    let p := pkt 13 1 0 0 0 0 (List.replicate 32 0)
    let s := arming
    taken (pkt 12 3 0 0 0 0 []) pooled = true ∧ p.typ = 13 ∧ taken p (s false) = true ∧ (s false).ckpt.state = 1 ∧
      (s false).ckpt.probe.isSome = true ∧ p.srcChip = chipOf (s false).ckpt.partner ∧
      p.srcCore = coreOf (s false).ckpt.partner ∧ hdrField p.data 4 1 = structId (s false).cfg ∧
      hdrField p.data 15 1 = (s false).straps.feed.toNat ∧ (s false).ckpt.sameAck = false ∧ taken p (s true) = true ∧
      (s true).ckpt.sameAck = true ∧
      hdrField (pkt 13 1 0 0 0 0 (List.replicate 32 1)).data 4 1 ≠ structId (s true).cfg ∧ pooled.ckpt.probe = none ∧
      (let other := { s false with ckpt := { (s false).ckpt with partner := 0x200 } }
       taken p other = true ∧ p.srcCore ≠ coreOf other.ckpt.partner) := by
  decide

theorem witness_reset_packet : ∀ reach ∈ [0, 1, 2, 3],
    let p := pkt 14 3 0 (word reach) 0 0 []
    let q := pkt 14 3 0 (word (2 ^ 22 + reach)) 0 0 []
    p.typ = 14 ∧ taken p pooled = true ∧ wfld p.w4 1 0 = reach ∧ formOk q = true ∧ q.core = pooled.straps.core.toNat ∧
      q.job ≠ pooled.job.id.toNat ∧ toReplica pooled q = false := by decide

theorem witness_handoff : ∀ ch ∈ [0, 1],
    let p : TxPkt := ⟨W8.zero, [], ch, 0, none, none⟩
    let s := { pooled with fab := { pooled.fab with txq := [p], txCred0 := 1, txCred1 := 1 } }
    (s.fab.txq.find? fun q => q.ch == ch) = some p ∧ portOk s = true ∧ p.due ≤ s.clock.ek ∧
      (if ch = 0 then s.fab.busy0 else s.fab.busy1) ≤ s.clock.clk ∧
      flitsOf p.payload.length ≤ (if ch = 0 then s.fab.txCred0 else s.fab.txCred1) ∧ stepDone s 7 = true ∧ awake s = true ∧
      awake { s with pwr := { s.pwr with state := 4 } } = false := by decide

/-! ## Resets, trim, thermal, watch, test access -/

/-- A source that has not asserted, one that has, a trim load that a warm reset cuts, a core that sleeps, and the watchdog's bound. -/
theorem witness_reset_source :
    let s := { pooled with rst := { pooled.rst with wdog := 4, srcs := [⟨5, 3, 0, 7, 8⟩] } }
    let again := { s with rst := { s.rst with srcs := [⟨2, 2, 0, 7, 4⟩] } }
    let cut := { s with trim := { s.trim with state := 1 }, rst := { s.rst with steps := s.rst.steps.set 3 ⟨1, 0, 0, 5⟩ } }
    let idle := { s with rst := { s.rst with wdog := 3 } }
    awake s = true ∧ mgcUp s = true ∧ 4 ≤ s.rst.wdog ∧ s.dbg.lock = false ∧ (∀ x ∈ s.rst.srcs, x.bit ≠ 2 ∧ x.bit ≠ 4 ∧ x.bit ≠ 8) ∧
      (∃ x ∈ again.rst.srcs, x.bit = 2) ∧ cut.trim.state = 1 ∧ (∃ x, cut.rst.steps[3]? = some x ∧ x.st = 1) ∧ idle.rst.wdog < 4 ∧
      awake { s with pwr := { s.pwr with state := 3 } } = false := by
  refine ⟨by decide, by decide, by decide, by decide, by decide, ⟨_, List.mem_singleton_self _, rfl⟩, by decide, ⟨_, rfl, rfl⟩,
    by decide, by decide⟩

/-- An ordinary release with both pins at 1: a source that has been asserted for its 16 cycles, and one that has not. -/
theorem witness_release :
    let s := { at10 with rst := { at10.rst with srcs := [⟨7, 3, 1, 7, 8⟩, ⟨8, 1, 2, 7, 1⟩], steps := List.replicate 7 (⟨2, 0, 0, 0⟩ : RstStep) ++ List.replicate 2 (⟨0, 0, 0, 0⟩ : RstStep) }
                         clock := { at10.clock with refc := 17 } }
    s.dbg.lock = false ∧ s.pins.chipRstN = true ∧ s.pins.porN = true ∧ s.tap.debugRst = false ∧ 1 + 16 ≤ s.clock.refc ∧
      ¬(2 + 16 ≤ s.clock.refc) ∧ (s.rst.steps.getD 7 ⟨0, 0, 0, 0⟩).st = 0 ∧ (∃ x ∈ s.rst.srcs, x.reach = 1) := by
  exact ⟨rfl, rfl, rfl, rfl, by decide, by decide, rfl, ⟨8, 1, 2, 7, 1⟩, List.mem_cons_of_mem _ (List.mem_singleton_self _), rfl⟩

/-- The release of a pin, which stands at 0, whose source is the last cold one. -/
theorem witness_pin_release :
    let s := { at10 with pins := { at10.pins with chipRstN := false, porN := false }, rst := { at10.rst with srcs := [⟨2, 1, 1, 7, 1⟩] } }
    s.pins.chipRstN = false ∧ s.pins.porN = false ∧ (∃ x ∈ s.rst.srcs, x.reach = 1) ∧
      ∀ b ∈ ([2, 9, 15] : List (BitVec 4)), b.toNat < 3 ∨ 8 < b.toNat := by
  exact ⟨rfl, rfl, ⟨_, List.mem_singleton_self _, rfl⟩, by decide⟩

theorem witness_step_start : ∀ k ∈ [1, 2, 3, 4, 5, 6, 7, 8, 9],
    let s := { at10 with rst := { at10.rst with steps := List.replicate (k - 1) (⟨2, 0, 0, 0⟩ : RstStep) ++ List.replicate (10 - k) ⟨0, 0, 0, 0⟩ }
                         clock := { at10.clock with refc := 16 } }
    let b := BitVec.ofNat 4 k
    let may := fun (s : State) => (s.rst.steps.getD (b.toNat - 1) ⟨0, 0, 0, 0⟩).st = 0 ∧ (∀ y ∈ s.rst.srcs, b.toNat < y.first) ∧
      (b.toNat = 1 ∨ stepDone s (b.toNat - 1) = true) ∧
      max (if b.toNat = 1 then 0 else (s.rst.steps.getD (b.toNat - 2) ⟨0, 0, 0, 0⟩).tDone) (s.rst.steps.getD (b.toNat - 1) ⟨0, 0, 0, 0⟩).tFree +
        [0, 16, 16, 16, 8, 8, 8, 4, 4].getD (b.toNat - 1) 0 ≤ s.clock.refc
    s.rst.steps.length = 9 ∧ may s ∧ (k = 1 ∨ ¬may { s with clock := { s.clock with refc := 3 } }) ∧ s.rst.fromSleep = false ∧
      s.trim.fails ≠ 3 := by decide

theorem witness_step_complete : ∀ k ∈ [1, 2, 3, 4, 5, 6, 7, 8, 9],
    let s := { at10 with rst := { at10.rst with steps := List.replicate 9 ⟨1, 0, 0, 0⟩, cold := true }
                         clock := { at10.clock with refc := 2000 } }
    s.rst.steps.length = 9 ∧ (s.rst.steps.getD (k - 1) ⟨0, 0, 0, 0⟩).st = 1 ∧ voltSettled s = true ∧ s.trim.state ≠ 1 ∧
      (s.rst.steps.getD (k - 1) ⟨0, 0, 0, 0⟩).tRun + [64, 13, 2000, 0, 256, 205, 1, 1, 1].getD (k - 1) 0 ≤ s.clock.refc ∧
      s.cfg.wide = false ∧ (s.rst.fromSleep = false) ∧ s.pwr.lostLink = false := by decide

/-- A trim load that waits for its frame, with n failures so far. -/
def trimming (n : Nat) : State :=
  { at10 with trim := { at10.trim with fuseReq := true, state := 1, fails := n, reqSince := 0 }, clock := { at10.clock with refc := 100000 } }

/-- A fuse frame of zeros but for word 0, with its CRC. -/
def fuseFrame : List Word :=
  let ws := (0x01180000 : Word) :: List.replicate 24 0
  ws ++ [crc32c (wordsBytes ws)]

theorem witness_trim : ∀ n ∈ [0, 2], (trimming n).trim.fuseReq = true ∧ (trimming n).trim.state = 1 ∧ fuseFrame.length = 26 ∧
    wfld (fuseFrame.getD 0 0) 31 16 = 0x0118 ∧ (trimming n).trim.reqSince + 100000 = (trimming n).clock.refc ∧
    ((trimming n).trim.fails + 1 < 3 ∨ (trimming n).trim.fails + 1 = 3) := by decide +kernel

theorem witness_trim_crc : crc32c (wordsBytes (fuseFrame.take 25)) = fuseFrame.getD 25 0 := by decide +kernel

theorem witness_trim_bad : crc32c (wordsBytes ((List.replicate 26 (0 : Word)).take 25)) ≠ (List.replicate 26 (0 : Word)).getD 25 0 := by
  decide +kernel

theorem witness_trim_retry : ∀ r ∈ [100000, 100001],
    let s := { trimming 1 with trim := { (trimming 1).trim with retryAt := some r } }
    s.trim.retryAt = some r ∧ s.trim.state = 1 ∧ (r ≤ s.clock.refc ∨ s.clock.refc < r) := by decide

/-- Temperatures at each threshold and just below it, of a core with safe defaults and of one whose trim load has committed. -/
theorem witness_temperature :
    let t := { at10 with trim := { at10.trim with state := 2, committed := true } }
    at10.trim.committed = false ∧ t.trim.committed = true ∧ t.trim.state ≠ 3 ∧
      (∀ x ∈ ([(1680, 1599), (1679, 1600), (1680, 1600), (1679, 1599)] : List (Int × Int)),
        (1680 ≤ x.1 ∨ x.1 < 1680) ∧ (1600 ≤ x.2 ∨ x.2 < 1600)) := by decide

theorem witness_watch :
    let s := { at10 with pwr := { at10.pwr with state := 3, sproutUse := 0x2D4B9A73 } }
    s.pwr.state = 3 ∧ s.pwr.watchAt ≤ s.clock.refc ∧ sproutMatch s.pwr.sproutUse (List.replicate 64 false) = false ∧
      (some (0 : Byte)) = some (BitVec.zeroExtend 8 s.straps.slot) ∧ at10.pwr.state ≠ 3 := by decide

theorem witness_test_access :
    let s := { at10 with dbg := { at10.dbg with lock := true } }
    s.dbg.lock = true ∧ at10.dbg.lock = false ∧ mgcUp at10 = true := by decide

/-! ## Engines -/

/-- Channels whose consumer is an endpoint, each 8 lines deep. -/
def wired (l : List (Nat × Nat)) (s : State := pooled) : State :=
  { s with img := { s.img with cur := { s.img.cur with
      chans := l.foldl (fun cs p => cs.set p.1 ⟨1, p.2, 15, 0, 0, 7, 0⟩) (List.replicate 56 ChanEntry.unused) } } }

/-- A channel that holds lines pushed in clk 1. -/
def holding (c : Nat) (ls : List Nat) (s : State) : State :=
  setChan c ⟨ls.map fun d => ⟨d, false, false, 1⟩, [], [], 0, 0, 0⟩ s

/-- Slot word fields: channels X, Y and OUT and the bits below (R94). -/
def chans (x y out : Nat) (bits : Nat := 0) : Nat := x * 2 ^ 20 + y * 2 ^ 14 + out * 2 ^ 8 + bits

/-- A descriptor of BF16 operands and depth 2, class H. -/
def mmaDesc : W8 := ⟨0, word (1 * 2 ^ 28 + 1 * 2 ^ 24 + 2 * 2 ^ 13), 0, 0, 0, 0, 0, 0⟩

/-- An MXA at level 8 with an instruction of that descriptor queued, and one line of ones on channels 0 and 1. -/
def multiplying (op : Nat) : State :=
  let s := holding 0 [0x3F80] (holding 1 [0x4000] (wired [(0, 1), (1, 1)]))
  queued 0 (ent op mmaDesc (chans 0 1 2 1)) { s with mxa := { s.mxa with level := 8 } }

theorem startable_multiplying (op : Nat) :
    Startable (multiplying op) 0 (ent op mmaDesc (chans 0 1 2 1)) [] := ⟨rfl, rfl, rfl, (by decide : (1 : Nat) < 10), rfl⟩

theorem witness_product : ∀ op ∈ [0x01, 0x02, 0x08, 0x09, 0x0A, 0x0B, 0x0C, 0x10, 0x12],
    let s := multiplying op
    let e := ent op mmaDesc (chans 0 1 2 1)
    e.op = op ∧ (getArr s .mxa).run = none ∧ (getArr s .mxa).lastStep ≠ some s.clock.clk ∧ mayBroadcast s .mxa = true ∧
      (fetchClk .mxa ⟨e, 0, [], [], [], [], [], []⟩ s).isSome = true := by decide +kernel

/-- The same on MXB, whose pair turn holds a block that is complete. -/
def multiplyingB (op : Nat) : State :=
  let s := holding 0 [0x3F80] (holding 1 [0x4000] (wired [(0, 2), (1, 2)]))
  queued 1 (ent op mmaDesc (chans 0 1 2 1)) { s with
    mxb := { s.mxb with level := 8 }, turn := { Turn.init with slot0 := List.replicate 1024 0x4000, full0 := some 9 } }

theorem startable_multiplyingB (op : Nat) :
    Startable (multiplyingB op) 1 (ent op mmaDesc (chans 0 1 2 1)) [] := ⟨rfl, rfl, rfl, (by decide : (1 : Nat) < 10), rfl⟩

theorem witness_product_b : ∀ op ∈ [0x01, 0x11, 0x13],
    let s := multiplyingB op
    let e := ent op mmaDesc (chans 0 1 2 1)
    e.op = op ∧ (getArr s .mxb).run = none ∧ (getArr s .mxb).lastStep ≠ some s.clock.clk ∧ mayBroadcast s .mxb = true ∧
      (fetchClk .mxb ⟨e, 0, [], [], [], [], [], []⟩ s).isSome = true := by decide +kernel

/-- The same, with its first k-step under way. -/
def stepping (op : Nat) : State :=
  let s := multiplying op
  setArr .mxa { s.mxa with run := some ⟨ent op mmaDesc (chans 0 1 2 1), 0, [], [], [], [], [], []⟩ } (setQ 0 [] s)

/-- One k-step of two of a product, a comparison or the first of a pair. -/
theorem witness_kstep : ∀ op ∈ [0x01, 0x02, 0x0A, 0x0C, 0x10],
    let s := stepping op
    let r : ArrRun := ⟨ent op mmaDesc (chans 0 1 2 1), 0, [], [], [], [], [], []⟩
    (getArr s .mxa).run = some r ∧ mayBroadcast s .mxa = true ∧ r.e.d.fld 0 22 20 = 0 ∧ r.e.op ∉ [0x12, 0x13] ∧
      ((fetchClk .mxa r s).map fun p => p.1.a.length == 1 && p.1.b.length == 1 && decide (0 + p.1.a.length < r.e.kTotal)) = some true := by
  decide +kernel

/-- The closing k-step of an instruction that closes its tile. -/
theorem witness_last_kstep :
    let e := ent 1 { mmaDesc with w1 := word (1 * 2 ^ 28 + 1 * 2 ^ 24 + 1 * 2 ^ 13) } (chans 0 1 2 1)
    let s := setArr .mxa { (stepping 1).mxa with run := some ⟨e, 0, [], [], [], [], [], []⟩ } (stepping 1)
    let r : ArrRun := ⟨e, 0, [], [], [], [], [], []⟩
    (getArr s .mxa).run = some r ∧ mayBroadcast s .mxa = true ∧ e.kTotal = 1 ∧ e.b0 = true ∧
      ((fetchClk .mxa r s).map fun p => p.1.a.length) = some 1 := by decide +kernel

/-- A frozen-weight pair of bundle 1 at its first k-step, on both arrays. -/
def pairing : State :=
  let s := holding 4 [0x3F80] (holding 5 [0x4000] (wired [(4, 2), (5, 2)] (stepping 0x12)))
  let s := { s with img := { s.img with cur := { s.img.cur with
      chans := ((s.img.cur.chans.set 0 ⟨1, 1, 15, 0, 0, 7, 0⟩).set 1 ⟨1, 1, 15, 0, 0, 7, 0⟩) } } }
  { s with mxb := { s.mxb with level := 8, run := some ⟨ent 0x13 mmaDesc (chans 4 5 6 1), 0, [], [], [], [], [], []⟩ } }

theorem witness_pair :
    let r : ArrRun := ⟨ent 0x12 mmaDesc (chans 0 1 2 1), 0, [], [], [], [], [], []⟩
    let q : ArrRun := ⟨ent 0x13 mmaDesc (chans 4 5 6 1), 0, [], [], [], [], [], []⟩
    (getArr pairing .mxa).run = some r ∧ mayBroadcast pairing .mxa = true ∧ adzPartner pairing .mxa r = some q ∧
      ((fetchClk .mxa r pairing).bind fun p => (fetchClk .mxb q p.2).map fun _ => true) = some true ∧
      adzPartner (stepping 0x12) .mxa r = none ∧ (getArr (stepping 0x12) .mxa).run = some r ∧ mayBroadcast at10 .mxa = false := by
  decide +kernel

theorem startable_mxa (op : Nat) : Startable (queued 0 (ent op)) 0 (ent op) [] := ⟨rfl, rfl, rfl, (by decide : (1 : Nat) < 10), rfl⟩

theorem witness_array_controls : ∀ op ∈ [0x18, 0x19, 0x1A, 0x1B],
    let s := queued 0 (ent op)
    let w := { s with mxa := { s.mxa with swap := some (9, ent 1) } }
    (getArr s .mxa).run = none ∧ (getArr s .mxa).lastStep ≠ some s.clock.clk ∧ (ent op).op = op ∧
      (getArr s .mxa).swap = none ∧ (getArr s .mxa).shadow = none ∧ (getArr w .mxa).swap ≠ none := by decide

theorem witness_activity : ∀ p ∈ [(8, 0, 4), (0, 8, 4), (8, 8, 4), (8, 0, 3)],
    let s : State := { at10 with mxa := { at10.mxa with target := p.1, level := p.2.1, cnt := p.2.2 } }
    (s.mxa.cnt = 4 ∧ s.clock.skip = false ∧ s.mxa.level < s.mxa.target) ∨
      (s.mxa.cnt = 4 ∧ s.clock.skip = false ∧ s.mxa.target < s.mxa.level) ∨ s.mxa.cnt ≠ 4 ∨ s.mxa.level = s.mxa.target := by decide

theorem witness_swap : ∀ c ∈ [9, 10],
    let s := { at10 with mxa := { at10.mxa with swap := some (c, ent 1) } }
    (getArr s .mxa).swap = some (c, ent 1) ∧ engOk s (Arr.slot .mxa) = true ∧ (getArr s .mxa).shadow = none ∧
      (c < s.clock.clk ∨ s.clock.clk ≤ c) := by decide

/-- A tile of ones with its first rows pushed, in the corner turn of MXA, for channel 2. -/
def draining (row : Nat) : State :=
  let s := wired [(2, 3)]
  { s with mxa := { s.mxa with corner := [⟨ent 1 W8.zero (chans 0 0 2), List.replicate 1024 0x3F800000, 32, row,
      LineOut.ofFmt 0 32 1024, false⟩] } }

theorem witness_drain : ∀ row ∈ [0, 31],
    let s := draining row
    let k : Tile := ⟨ent 1 W8.zero (chans 0 0 2), List.replicate 1024 0x3F800000, 32, row, LineOut.ofFmt 0 32 1024, false⟩
    (getArr s .mxa).corner = [k] ∧ engOk s (Arr.slot .mxa) = true ∧ (getArr s .mxa).lastRow ≠ some s.clock.clk ∧
      k.e.foldSlot = none ∧ k.row < tileM s ∧
      (drainRow s.job.seed (tileN s) k).1.out.lineq.length ≤ chRoom s k.e.chOut ∧
      chRoom (holding 2 (List.replicate 7 0) s) k.e.chOut < (drainRow s.job.seed (tileN s) k).1.out.lineq.length ∧
      0 < (drainRow s.job.seed (tileN s) k).1.out.lineq.length ∧
      ((drainRow s.job.seed (tileN s) k).1.row < tileM s ∨ (drainRow s.job.seed (tileN s) k).1.row = tileM s) := by decide +kernel

/-- A descriptor of length n. -/
def lenDesc (n : Nat) : W8 := ⟨0, word n, 0, 0, 0, 0, 0, 0⟩

theorem startable_vec (op n : Nat) : Startable (queued 2 (ent op (lenDesc n))) 2 (ent op (lenDesc n)) [] :=
  ⟨rfl, rfl, rfl, (by decide : (1 : Nat) < 10), rfl⟩

theorem witness_vec_start : ∀ op ∈ [0x01, 0x13, 0x2A, 0x38], ∀ n ∈ [0, 1],
    let e := ent op (lenDesc n)
    let s := queued 2 e
    e.op = op ∧ chainIssued s = true ∧ wbit e.d.w1 31 = false ∧ (vecStartOk (left 2 [] s) e (e.d.fld 1 24 0) = decide (n = 1)) := by
  decide +kernel

/-- LSRC 1 with its count on channel 4. -/
def countDesc (w : Nat) : W8 :=
  let x := word (2 ^ 31 + 4 * 2 ^ 25 + 8)
  if w = 1 then ⟨0, x, 0, 0, 0, 0, 0, 0⟩ else ⟨0, word 8, 0, x, 0, 0, 0, 0⟩

/-- An entry of a slot that takes its length from channel 4, whose consumer is ep, with a count of 1. -/
def counting (slot ep : Nat) (e : Entry) : State := queued slot e (holding 4 [1] (wired [(4, ep)]))

theorem startable_counting (slot ep op : Nat) (d : W8) (h : slot < 7) :
    Startable (counting slot ep (ent op d)) slot (ent op d) [] := by
  have : slot = 0 ∨ slot = 1 ∨ slot = 2 ∨ slot = 3 ∨ slot = 4 ∨ slot = 5 ∨ slot = 6 := by omega
  rcases this with rfl | rfl | rfl | rfl | rfl | rfl | rfl <;> exact ⟨rfl, rfl, rfl, (by decide : (1 : Nat) < 10), rfl⟩

theorem witness_vec_count :
    let e := ent 1 (countDesc 1)
    let s := counting 2 3 e
    wbit e.d.w1 31 = true ∧ chainIssued s = true ∧
      ((chTake (e.d.fld 1 30 25) 3 1 s).map fun p => (p.1.map (·.data)).headD 0 % 2 ^ 32 == 1 && vecStartOk (left 2 [] p.2) e 1) = some true := by decide +kernel

/-- A VEC instruction of length 1 from channels 4 and 5 to channel 6, FP32. -/
def vecEnt (op : Nat) : Entry := ent op ⟨word (1 * 2 ^ 5), word 1, 0, 0, 0, 0, 0, 0⟩ (chans 4 5 6)

theorem witness_flow_start :
    let m : Member := ⟨vecEnt 1, 1, .init, .init, .init, .init, 0, 3⟩
    let s := { at10 with vec := { at10.vec with started := [m] } }
    startedChain s.vec.started = some ([m], []) ∧ 0 < m.len ∧ engOk s 2 = true ∧ s.vec.flow = none ∧ m.clk < s.clock.ek ∧
      (s.vec.lastFlow < s.clock.ek ∨ s.vec.lastFlow = 0) ∧ cacheBusy s [m] = false := by decide

/-- Chains of two members: of length 0, and of lengths 1 and 2. -/
theorem witness_flow_lengths : ∀ n ∈ [(0, 0), (1, 2)],
    let e1 := { vecEnt 1 with w := word (1 * 2 ^ 26 + chans 4 5 56 + 1) }
    let a : Member := ⟨e1, n.1, .init, .init, .init, .init, 0, 3⟩
    let b : Member := ⟨vecEnt 1, n.2, .init, .init, .init, .init, 0, 3⟩
    let s := { at10 with vec := { at10.vec with started := [a, b] } }
    startedChain s.vec.started = some ([a, b], []) ∧ engOk s 2 = true ∧ s.vec.flow = none ∧ (∀ m ∈ [a, b], m.clk < s.clock.ek) ∧
      cacheBusy s [a, b] = false ∧ (n.1 = 0 ∨ a.len ≠ b.len) := by decide

/-- That instruction in the flow, with 2.0 and 3.0 on its channels. -/
def flowing (op : Nat) : State :=
  let m : Member := ⟨vecEnt op, 1, .init, .init, .init, .init, 0, 3⟩
  let s := holding 4 [0x40000000] (holding 5 [0x40400000] (wired [(4, 3), (5, 3), (6, 4)]))
  { s with vec := { s.vec with outs := chainOuts [m], flow := some ⟨[m], 0, 1, 9, 0, []⟩ } }

theorem witness_vec_step : ∀ op ∈ [0x01, 0x10, 0x31],
    let s := flowing op
    let m : Member := ⟨vecEnt op, 1, .init, .init, .init, .init, 0, 3⟩
    let f : Flow := ⟨[m], 0, 1, 9, 0, []⟩
    let hi := min f.len (f.elem + max 1 (stepElems s [m.e]))
    s.vec.flow = some f ∧ engOk s 2 = true ∧ f.step ≤ s.clock.ek ∧ s.ocUpset = [] ∧ m.e.chOut < 56 ∧
      ((readyMember f.elem hi (prefetch hi m s).1 { (prefetch hi m s).2 with err := s.err }).map fun p =>
        (memberResult p.2 f.oc f.elem hi p.1).fault.isNone) = some true ∧
      (∀ o ∈ s.vec.outs, o.e.id = m.e.id → o.e = m.e) := by decide +kernel

theorem witness_vec_opcodes : (vecEnt 1).b1 = false ∧ (vecEnt 1).vMask = false ∧ (vecEnt 0x10).b1 = false ∧
    (vecEnt 0x10).vMask = false ∧ (vecEnt 0x13).vMask = true := by decide

/-- A cache word with two wrong bits under an operand of the cache. -/
theorem witness_vec_cache :
    let e := ent 0x18 ⟨word (3 * 2 ^ 8), word 1, 0, 0, 0, 0, 0, 0⟩ (chans 0 0 6)
    let m : Member := ⟨e, 1, .init, .init, .init, .init, 0, 3⟩
    let f : Flow := ⟨[m], 0, 1, 9, 0, []⟩
    let s := { at10 with ocUpset := [(0, 2)], vec := { at10.vec with flow := some f } }
    engOk s 2 = true ∧ f.step ≤ s.clock.ek ∧
      (cacheCheck f 0 (min f.len (f.elem + max 1 (stepElems s (f.members.map (·.e))))) s).2 = some (e, 0) := by decide +kernel

theorem witness_vec_push : ∀ n ∈ [1, 9],
    let o : OutStream := ⟨vecEnt 1, [5], true, { LineOut.ofBits 32 1 with lineq := List.replicate n (7, 16) }, [], [], none, 0, true⟩
    let s := { wired [(6, 4)] with vec := { pooled.vec with outs := [o] } }
    s.vec.outs = [o] ∧ engOk s 2 = true ∧ o.cnt = none ∧ min (chRoom s o.e.chOut) o.out.lineq.length = min n 8 := by decide

/-- An OCW with one step that writes the cache, and a count of CNT that waits for its push. -/
theorem witness_vec_last :
    let st : StepOut := ⟨9, [], [], [(0, 32, 7)], none, true⟩
    let o : OutStream := ⟨vecEnt 0x20, [5], false, LineOut.ofBits 32 1, [st], [], none, 0, true⟩
    let c : OutStream := ⟨vecEnt 0x2A, [5], true, LineOut.ofBits 32 0, [], [], some 3, 9, true⟩
    let s := { wired [(6, 4)] with vec := { pooled.vec with outs := [c] } }
    engOk s 2 = true ∧ st.due ≤ s.clock.ek ∧ o.out.lineq = [] ∧ o.push = false ∧ o.cnt = none ∧ c.lastPush < s.clock.ek ∧
      c.steps = [] ∧ c.out.lineq = [] ∧ 1 ≤ chRoom s c.e.chOut := by decide

theorem startable_rsu (op n : Nat) : Startable (queued 3 (ent op (lenDesc n))) 3 (ent op (lenDesc n)) [] :=
  ⟨rfl, rfl, rfl, (by decide : (1 : Nat) < 10), rfl⟩

theorem witness_rsu_start : ∀ op ∈ [0x01, 0x18, 0x28], ∀ n ∈ [0, 1],
    let e := ent op (lenDesc n)
    e.op = op ∧ wbit e.d.w1 31 = false ∧ (rsuStartOk (left 3 [] (queued 3 e)) e (e.d.fld 1 24 0) = decide (n = 1)) := by decide +kernel

theorem witness_rsu_count :
    let e := ent 1 (countDesc 1)
    let s := counting 3 4 e
    wbit e.d.w1 31 = true ∧
      ((chTake (e.d.fld 1 30 25) 4 1 s).map fun p => (p.1.map (·.data)).headD 0 % 2 ^ 32 == 1 && rsuStartOk (left 3 [] p.2) e 1) = some true := by decide +kernel

/-- A started RSU instruction: RSUM over a row of 2, CRSET of 4, or one of length 0. -/
def reducing (op len row : Nat) : State :=
  let e := ent op ⟨0, word len, word (row * 2 ^ 16), word (8 * 2 ^ 11), 0, 0, 0, 0⟩ (chans 4 0 6)
  { holding 4 [0x3F800000 + 0x40000000 * 2 ^ 32] (wired [(4, 4)]) with
    rsu := { pooled.rsu with started := [(e, len, 3)] } }

theorem witness_rsu_flow : ∀ p ∈ [(1, 2, 1), (2, 2, 1), (3, 2, 1), (4, 2, 1), (0x28, 4, 0), (1, 0, 0)],
    let s := reducing p.1 p.2.1 p.2.2
    ∀ x ∈ s.rsu.started, engOk s 3 = true ∧ s.rsu.run = none ∧ x.2.2 < s.clock.clk ∧
      (s.rsu.lastFlow < s.clock.clk ∨ s.rsu.lastFlow = 0) ∧ s.rsu.push = [] ∧ s.rsu.stats = [] ∧ x.1.op = p.1 ∧ x.2.1 = p.2.1 ∧
      x.1.b0 = false ∧ x.1.rAxis = false ∧ (p.1 = 0x28 ∨ x.2.1 ≤ x.1.rRow) ∧ x.2.1 ≤ rsuRate s x.1.op := by decide

theorem witness_rsu_pull :
    let s := reducing 1 2 1
    ∀ x ∈ s.rsu.started,
      let r0 : RsuRun := ⟨x.1, 2, 0, s.clock.clk, .init, .init, .init, [], 0, (oneW, 0), false, [], []⟩
      let s0 := touch { s with rsu := { s.rsu with started := [], run := some r0, push := [mkPush x.1 2] } }
      (rsuPull r0 2 s0).isSome = true := by decide +kernel

theorem witness_rsu_land :
    let e := ent 0x28 ⟨0, word 1, 0, 0, 0, 0, 0, 0⟩
    let o : RsuOut := ⟨9, 0, [], [], [], [(7, 5)], [], false, true⟩
    let p : RsuPush := { mkPush e 1 with outs := [o], ended := true }
    let s := { pooled with rsu := { pooled.rsu with push := [p] } }
    let t := { pooled with rsu := { pooled.rsu with stats := [(5, 300, [1, 2, 3, 4])] } }
    s.rsu.push = [p] ∧ p.outs = [o] ∧ engOk s 3 = true ∧ o.due ≤ s.clock.ek ∧ p.e.op = 0x28 ∧ p.e.rCout ≠ 2 ∧
      p.e.foldSlot = none ∧ s.rsu.stats = [] ∧ p.main.lineq = [] ∧ p.aux.lineq = [] ∧ p.recs.lineq = [] ∧ p.main.bits.len = 0 ∧
      p.main.scales.len = 0 ∧ p.aux.bits.len = 0 ∧ p.aux.scales.len = 0 ∧ p.recs.bits.len = 0 ∧ p.recs.scales.len = 0 ∧
      engOk t 3 = true ∧ t.canonical = true ∧ Writable t 300 4 := by decide

theorem witness_rsu_lines : ∀ n ∈ [1, 9],
    let e := ent 1 ⟨0, word 16, 0, 0, 0, 0, 0, 0⟩ (chans 4 0 6)
    let p : RsuPush := { mkPush e 16 with outs := [], ended := true, main := { LineOut.ofBits 32 1 with lineq := List.replicate n (7,
      16) } }
    let s := { wired [(6, 15)] with rsu := { pooled.rsu with push := [p] } }
    p.outs = [] ∧ engOk s 3 = true ∧ p.ended = true ∧ s.rsu.stats = [] ∧ p.e.op ≠ 0x2C ∧ p.aux.lineq = [] ∧ p.recs.lineq = [] ∧
      p.e.foldSlot = none ∧ min (chRoom s p.e.chOut) p.main.lineq.length = min n 8 := by decide

/-! ## Scalar engine, flags, movement -/

theorem startable_scl (op low : Nat) : Startable (queued 6 (ent op W8.zero low)) 6 (ent op W8.zero low) [] :=
  ⟨rfl, rfl, rfl, (by decide : (1 : Nat) < 10), rfl⟩

theorem witness_scalar_forms : ∀ op ∈ [0x01, 0x0F, 0x10, 0x16, 0x1A, 0x1B],
    let e := ent op W8.zero (3 * 2 ^ 20 + 1 * 2 ^ 14 + 2 * 2 ^ 8)
    let s := queued 6 e
    e.op = op ∧ sregBusy s (wfld e.w 19 14) = false ∧ sregBusy s (wfld e.w 13 8) = false ∧ divBusy s = false := by decide

theorem witness_scalar_moves : ∀ op ∈ [0x17, 0x18, 0x19, 0x20, 0x21, 0x31, 0x32, 0x38],
    (ent op).op = op ∧ (queued 6 (ent op)).scl.fly = [] ∧ (queued 6 (ent op)).descUpset = [] := by decide

/-- An SCL instruction of channel 4, whose consumer is SCL and which holds one count. -/
def popping : State := queued 6 (ent 0x28 W8.zero (4 * 2 ^ 8)) (holding 4 [9] (wired [(4, 13)]))

theorem startable_popping : Startable popping 6 (ent 0x28 W8.zero (4 * 2 ^ 8)) [] := ⟨rfl, rfl, rfl, (by decide : (1 : Nat) < 10), rfl⟩

theorem witness_cpop :
    let e := ent 0x28 W8.zero (4 * 2 ^ 8)
    popping.scl.fly = [] ∧ e.op = 0x28 ∧
      ((chTake (wfld e.w 13 8) 13 1 popping).map fun p => p.1.map (·.data)) = some [9] := by decide +kernel

theorem witness_cpush_tcfg :
    let p := ent 0x29 W8.zero (4 * 2 ^ 8)
    let s := queued 6 p (wired [(4, 13)])
    let c := ent 0x30 W8.zero (1 * 2 ^ 20)
    let t := queued 6 c
    let b := { t with sregs := [(1, 12 * 2 ^ 9)] }
    p.op = 0x29 ∧ 1 ≤ chRoom s (wfld p.w 13 8) ∧ c.op = 0x30 ∧ tcfgOk (wfld c.w 13 12) (sreg t (wfld c.w 25 20)) = true ∧
      tcfgOk (wfld c.w 13 12) (sreg b (wfld c.w 25 20)) = false ∧ s.scl.fly = [] ∧ b.scl.fly = [] := by decide

theorem witness_scalar_lands : ∀ r ∈ [SclRes.reg 0 5, .reg 1 5, .reg 59 5, .reg 60 5, .desc 1 3 2 7, .scaleCfg 4 0 9, .scaleCfg 4 1 9,
      .scaleCfg 4 2 9, .scaleCommit 4, .none], ∀ due ∈ [10, 11],
    let s := { at10 with scl := { at10.scl with fly := [⟨ent 1, due, r⟩] } }
    s.scl.fly = [⟨ent 1, due, r⟩] ∧ engOk s 6 = true ∧ (due ≤ s.clock.ek ∨ s.clock.ek < due) ∧ s.canonical = true ∧
      s.descUpset = [] ∧ scaleEvs s 4 = [] := by decide

/-- A SYN descriptor: V from word 1, TLIM and TOEN of word 2. -/
def synDesc (v : Nat) (w2 : Word := 0) : W8 := ⟨0, word (2 ^ 19 + v), w2, 0, 0, 0, 0, 0⟩

theorem startable_syn (op v : Nat) (w2 : Word) :
    Startable (queued 5 (ent op (synDesc v w2) (9 * 2 ^ 14)) pooled) 5 (ent op (synDesc v w2) (9 * 2 ^ 14)) [] :=
  ⟨rfl, rfl, rfl, (by decide : (1 : Nat) < 10), rfl⟩

theorem witness_flag_start : ∀ op ∈ [1, 2, 6, 0x18, 3, 5, 0x10, 0x12], ∀ v ∈ [0, 5, 0xFFFF],
    let e := ent op (synDesc v) (9 * 2 ^ 14)
    let s := queued 5 e pooled
    e.op = op ∧ s.syn.cur = none ∧ afterOk s e = true ∧ s.syn.lastDone = none ∧ s.canonical = true ∧
      mget 0 s.flagUpset (wfld e.w 25 14 / 4) = 0 ∧ (activeRoute s (e.d.fld 3 31 20)).isSome = true ∧
      (op < 0x10 ∨ op = 0x18 ∨ e.d.fld 2 16 0 = 0) ∧ (flagGet s (wfld e.w 25 14)).toNat = 0 := by decide

theorem witness_timed_start : ∀ op ∈ [0x10, 0x11, 0x12],
    let e := ent op (synDesc 5 1) (9 * 2 ^ 14)
    let s := queued 5 e pooled
    e.op = op ∧ s.syn.cur = none ∧ afterOk s e = true ∧ s.syn.lastDone = none ∧ e.d.fld 2 16 0 ≠ 0 ∧
      mget 0 s.flagUpset (wfld e.w 25 14 / 4) = 0 := by decide

/-- A pending wait for flag 9 to reach 5, with its count and TLIM, TOEN. -/
def waiting (op count : Nat) (w2 : Word) (flag : BitVec 16) : State :=
  { at10 with flags := mset 0 [] 9 flag
              clock := { at10.clock with skip := false }
              syn := { at10.syn with cur := some (ent op (synDesc 5 w2) (9 * 2 ^ 14)), count := count, startClk := 3 } }

theorem witness_flag_pass : ∀ op ∈ [3, 4, 5, 0x10, 0x11, 0x12],
    let e := ent op (synDesc 5 4) (9 * 2 ^ 14)
    let s := waiting op 4 4 5
    let b := waiting op 4 4 3
    let v := if wbit e.d.w1 19 then e.d.fld 1 15 0 else e.s0.toNat % 65536
    s.syn.cur = some e ∧ e.op = op ∧ engOk s 5 = true ∧ s.syn.expired = false ∧ s.syn.count ≤ e.d.fld 2 16 0 ∧ s.canonical = true ∧
      mget 0 s.flagUpset (wfld e.w 25 14 / 4) = 0 ∧ flagStart s (wfld e.w 25 14) = flagGet s (wfld e.w 25 14) ∧
      (if e.op = 4 ∨ e.op = 0x11 then (flagGet s (wfld e.w 25 14)).toNat = v else v ≤ (flagGet s (wfld e.w 25 14)).toNat) ∧
      (if e.op = 4 ∨ e.op = 0x11 then (flagStart b (wfld e.w 25 14)).toNat ≠ v
        else (flagStart b (wfld e.w 25 14)).toNat < v) := by decide

theorem witness_timed_expiry : ∀ op ∈ [0x10, 0x11, 0x12], ∀ n ∈ [4, 0x20100004],
    let w2 := word n
    let e := ent op (synDesc 5 w2) (9 * 2 ^ 14)
    let s := waiting op 4 w2 3
    let t := waiting op 5 w2 3
    let x := { s with syn := { s.syn with expired := true } }
    s.syn.cur = some e ∧ engOk s 5 = true ∧ s.syn.expired = false ∧ s.syn.count = e.d.fld 2 16 0 ∧ synTest s e = false ∧
      e.d.fld 2 16 0 < t.syn.count ∧ (wbit e.d.w2 29 = decide (n ≠ 4)) ∧ x.syn.cur = some e ∧ engOk x 5 = true ∧
      x.syn.expired = true ∧ x.syn.startClk < x.clock.clk ∧ x.canonical = true ∧ mget 0 x.flagUpset (e.d.fld 2 28 17 / 4) = 0 ∧
      (flagGet x (e.d.fld 2 28 17)).toNat < 65535 ∧ at10.syn.cur = none := by decide

/-! ## Movement -/

/-- 32 BF16 elements of area 0, from byte b, packed. -/
def spanDesc (b : Nat) (n : Nat := 32) : W8 := ⟨word (1 * 2 ^ 19), word b, word ((n - 1) * 2 ^ 20 + 2), 0, 0, 0, 0, 0⟩

theorem startable_mov (op low : Nat) (d : W8) (s : State) (h : engOk (queued 4 (ent op d low) s) 4 = true)
    (h1 : s.started = []) (h2 : s.clock.clk = 10) (h3 : gated (queued 4 (ent op d low) s) 4 (ent op d low) = false) :
    Startable (queued 4 (ent op d low) s) 4 (ent op d low) [] :=
  ⟨rfl, h, (by show s.started.contains 4 = false; rw [h1]; rfl), (by show (1 : Nat) < s.clock.clk; omega), h3⟩

theorem witness_generators : ∀ op ∈ [1, 2, 3, 4, 5, 0x10, 0x11],
    let e := ent op (spanDesc 256) (chans 4 0 6)
    let s := queued 4 e pooled
    e.op = op ∧ idleGen s.mov.rg = some 0 ∧ idleGen s.mov.wg = some 0 ∧ tbBusy s 0 = false ∧ tbBusy s 1 = false ∧
      engOk s 4 = true ∧ gated s 4 e = false ∧ (op ∈ [1, 2, 5] → genOk s e = true) ∧
      (op ∈ [1, 2, 5] → genOk s (ent op (spanDesc 257)) = false) ∧ 1 ≤ e.d.fld 1 24 0 ∧ e.d.fld 1 24 0 ≤ 16777216 ∧
      (ent op).d.fld 1 24 0 = 0 ∧ (e.op - 0x10 = 1 ↔ op = 0x11) := by decide +kernel

theorem witness_mask_generators : ∀ op ∈ [3, 4],
    let d : W8 := ⟨0, 256, word (255 * 2 ^ 20), 0, 0, 0, 0, 0⟩
    genOk pooled (ent op d) = true ∧ genOk pooled (ent op { d with w2 := word (254 * 2 ^ 20) }) = false := by decide +kernel

/-- The movement engine with every generator, both buffers, the gather engine and the compressor at work. -/
def allBusy : State :=
  let e := ent 1 (spanDesc 256)
  { pooled with mov := { pooled.mov with
      rg := List.replicate 16 (some (Gen.begin e)), wg := List.replicate 8 (some (Gen.begin e)), tb0 := some ⟨e, 0, [], [], 0, [], 0, 0⟩
      cp1 := some ⟨e, [], [], 0⟩, gath := some (mkGath e 1), acmp := some ⟨e, true, 0, 0, [], .init, [], 0, 0, 0, 0, 0, [],
      (mkGath e 1).out⟩ } }

theorem witness_all_busy : pooled.mov.rg.length = allBusy.mov.rg.length ∧ pooled.mov.wg.length = allBusy.mov.wg.length ∧
    ∀ op ∈ [1, 2, 5, 0x10, 0x11, 0x12, 0x13, 0x18, 0x20], let s := queued 4 (ent op) allBusy
    idleGen s.mov.rg = none ∧ idleGen s.mov.wg = none ∧ tbBusy s 0 = true ∧ tbBusy s 1 = true ∧ s.mov.gath ≠ none ∧
      s.mov.acmp ≠ none ∧ engOk s 4 = true ∧ gated s 4 (ent op) = false := by decide +kernel

/-- A walk of one 32 by 32 tile of BF16 of area 0 at byte b, rows of 64 bytes. -/
def tileDesc (b : Nat) : W8 := ⟨word (1 * 2 ^ 19), word b, word (31 * 2 ^ 20 + 2), word (31 * 2 ^ 20 + 64), 0, 0, 0, 0⟩

/-- A permuting copy from byte 0 to byte b. -/
def copyEnt (op b : Nat) : Entry := { ent op (tileDesc 0) with d1 := tileDesc b }

theorem witness_transposes : ∀ op ∈ [0x12, 0x13, 0x14, 0x15],
    let e := copyEnt op 4096
    let f := copyEnt op 1024
    let s := queued 4 e pooled
    e.op = op ∧ tbBusy s 0 = false ∧ tbBusy s 1 = false ∧ engOk s 4 = true ∧ gated s 4 e = false ∧ copyOk s e.d = true ∧
      copyOk s e.d1 = true ∧ (copyWalk e.d).ext = (copyWalk e.d1).ext ∧ (walkRange (copyWalk e.d)).2 < (walkRange (copyWalk e.d1)).1 ∧
      copyOk s f.d1 = true ∧ (walkRange (copyWalk f.d)).1 ≤ (walkRange (copyWalk f.d1)).2 ∧
      (walkRange (copyWalk f.d1)).1 ≤ (walkRange (copyWalk f.d)).2 ∧ copyOk s (ent op).d = false ∧
      (copyWalk e.d).ext.getD 2 1 = (copyWalk e.d).ext.getD 3 1 := by decide +kernel

/-- A copy of one tile about to read its first elements, and one about to write its last, with a free buffer beside it. -/
def copying (got put : Nat) : State :=
  let e := copyEnt 0x12 4096
  { pooled with live := [⟨4, e.bseq, e.id, false⟩]
                mov := { pooled.mov with cp0 := some ⟨e, copyUnits e, List.replicate got 9, put⟩ } }

theorem witness_copy_clk : ∀ p ∈ [(0, 0), (1024, 0), (1024, 1023)],
    let e := copyEnt 0x12 4096
    let s := copying p.1 p.2
    let un := ([0, 0, 0, 0], [0, 0, 0, 0])
    let rest := (unitWrites e un (List.replicate p.1 9)).drop p.2
    copyUnits e = [un] ∧ getCopy s 0 = some ⟨e, [un], List.replicate p.1 9, p.2⟩ ∧ engOk s 4 = true ∧ s.canonical = true ∧
      fmtBits (e.d.fld 0 22 19) = 16 ∧ e.d1.fld 0 22 19 = e.d.fld 0 22 19 ∧ (unitReads e un).length = 1024 ∧
      (p.1 = 0 → Clean s ((unitReads e un).take (rowSpan (unitReads e un) [] 8))) ∧
      (p.1 = 1024 → Clean s ((rest.take (rowSpan (rest.map fun x => (x.1, x.2.1)) [] 8)).map fun x => (x.1, x.2.1)) ∧
        (rest.length ≤ rowSpan (rest.map fun x => (x.1, x.2.1)) [] 8 ↔ p.2 = 1023)) := by decide +kernel

theorem witness_copy_pairs :
    let e := { copyEnt 0x14 0 with d := { tileDesc 0 with w4 := word (1 * 2 ^ 20), w5 := word (1 * 2 ^ 20) } }
    copyUnits e = [([0, 0, 0, 0], [0, 0, 0, 0]), ([0, 1, 0, 0], [1, 0, 0, 0]), ([1, 1, 0, 0], [1, 1, 0, 0])] := by decide +kernel

/-- A ZERO of n BF16 elements at work in write generator 2. -/
def zeroing (n : Nat) : State :=
  { pooled with mov := { pooled.mov with wg := pooled.mov.wg.set 2 (some (Gen.begin (ent 5 (spanDesc 256 n)))) } }

theorem witness_zero_ends : ∀ n ∈ [4, 1024],
    let e := ent 5 (spanDesc 256 n)
    let k := (genStream e).k
    let els := ((List.range (walkSize k)).filter fun q => !walkClipped k (walkIdx k.ext q)).map fun q => (walkBit k (walkIdx k.ext q), k.w)
    genOk (queued 4 e pooled) e = true ∧ (zeroing n).mov.wg.getD 2 none = some (Gen.begin e) ∧ walkSize k = n ∧ k.w = 16 ∧
      (zeroing n).canonical = true ∧ Clean (zeroing n) els := by decide +kernel

/-- A gather of two-byte blocks of area 0 whose 4 by 1 by 1 by 1 table begins at byte 256. -/
def gathDesc (oob : Nat := 0) : W8 := ⟨word (1 * 2 ^ 19 + oob * 2 ^ 16), 2, 0, 256, 0, 2, 3, 0⟩

/-- A PUT, GET, GETP or RACC of 256 bytes to core 1. -/
def moveDesc (len : Nat) (w3 : Nat := 0) : W8 := ⟨0, 0, 0, word (w3 + len), 0, 512, 0, 0⟩

theorem witness_gathers : ∀ op ∈ [0x18, 0x19, 0x1A],
    let e := ent op (gathDesc)
    let s := queued 4 e pooled
    e.op = op ∧ s.mov.gath = none ∧ wbit e.d.w1 31 = false ∧ engOk s 4 = true ∧ gated s 4 e = false ∧ gatherOk s e = true ∧
      gatherOk s (ent op) = false := by decide +kernel

/-- A gather that takes its entry count from channel 4, which holds n. -/
theorem witness_counted_gather : ∀ n ∈ [2, 3],
    let d := { gathDesc with w1 := word (2 ^ 31 + 4 * 2 ^ 25 + 2) }
    let e := ent 0x18 d
    let s := queued 4 e (holding 4 [n] (wired [(4, 9)]))
    wbit e.d.w1 31 = true ∧ gatherOk s e = true ∧ (n ≤ e.d.fld 1 24 0 ↔ n = 2) ∧
      ((chTake (e.d.fld 1 30 25) 9 1 s).map fun p => (p.1.map (·.data)).headD 0 % 2 ^ 32) = some n ∧
      chAvail (queued 4 e (wired [(4, 9)])) 4 9 = 0 := by decide +kernel

theorem witness_compressor : ∀ op ∈ [0x20, 0x21],
    let e := ent op (lenDesc 64)
    let s := queued 4 e pooled
    e.op = op ∧ s.mov.acmp = none ∧ engOk s 4 = true ∧ gated s 4 e = false ∧ acmpOk e = true ∧ acmpOk (ent op) = false := by
  decide +kernel

theorem witness_transfers : ∀ op ∈ [0x28, 0x29, 0x2A, 0x2B],
    let e := ent op (moveDesc 256)
    let s := queued 4 e pooled
    e.op = op ∧ engOk s 4 = true ∧ gated s 4 e = false ∧ wbit e.d.w3 31 = false ∧ fabStartOk (left 4 [] s) e (e.d.fld 3 24 0) = true ∧
      fabStartOk (left 4 [] s) (ent op) ((ent op).d.fld 3 24 0) = false := by decide +kernel

theorem witness_counted_transfer : ∀ op ∈ [0x28, 0x29, 0x2A, 0x2B], ∀ n ∈ [0, 8],
    let e := ent op (moveDesc 256 (2 ^ 31 + 4 * 2 ^ 25))
    let s := queued 4 e (holding 4 [n] (wired [(4, 11)]))
    wbit e.d.w3 31 = true ∧ ((chTake (e.d.fld 3 30 25) 11 1 s).map fun p =>
      (p.1.map (·.data)).headD 0 % 2 ^ 32 == n && fabStartOk (left 4 [] p.2) e n) = some true ∧
      fabStartOk s (ent op (moveDesc 0 (2 ^ 31 + 4 * 2 ^ 25))) n = false ∧ faulting s = false ∧
      (activeRoute s (e.d.fld 1 31 20)).isSome = true ∧
      chAvail (queued 4 e (wired [(4, 11)])) 4 11 = 0 := by decide +kernel

/-- A reduce instruction of a job of two ranks. -/
def reduceEnt (op : Nat) (d : W8 := W8.zero) : Entry := { ent op d with job := [0, 0, 2, 1, 0, 0, 0, 0] }

theorem witness_reduces :
    let r := reduceEnt 0x2C ⟨0, 0, 0, 0, 0, 256, 0, 0⟩
    let m := reduceEnt 0x2D
    let s := queued 4 r pooled
    let t := queued 4 m pooled
    let dup := { t with fab := { t.fab with recv := [recvOf m] } }
    let full := { t with fab := { t.fab with recv := List.replicate 64 { recvOf m with step := 9 } } }
    let busy := { s with mov := { s.mov with fab := [mkFabOp { r with id := 9 } 0 1] } }
    let one := { m with job := [0, 0, 1, 1, 0, 0, 0, 0] }
    r.op = 0x2C ∧ m.op = 0x2D ∧ r.job.getD 8 0 ≠ 1 ∧ m.job.getD 8 0 ≠ 1 ∧ s.fab.recv.length < 64 ∧ recvTaken s r = false ∧
      stagingBusy s = false ∧ rsendOk (left 4 [] { s with fab := { s.fab with recv := s.fab.recv ++ [recvOf r] } })
        { r with job := r.job.take 8 ++ [1] } = true ∧ rsendOk s (reduceEnt 0x2C ⟨0, 0, 0, 0, 0, 258, 0, 0⟩) = false ∧
      recvTaken t m = false ∧ m.job.getD 2 1 ≠ 1 ∧ t.mov.fab = [] ∧ one.job.getD 2 1 = 1 ∧
      ({ m with job := m.job ++ [1] }).job.getD 8 0 = 1 ∧ stagingBusy busy = true ∧ recvTaken full m = false ∧
      64 ≤ full.fab.recv.length ∧ recvTaken dup m = true ∧ dup.fab.recv.length < 64 ∧ engOk s 4 = true ∧ gated s 4 r = false := by
  decide +kernel

/-- A read generator with one line due, for channel 6, and a write generator at its first line, from channel 4, of n elements; room:
channel 6 has room. -/
def streaming (n : Nat) (room : Bool := true) : State :=
  let t := holding 4 [9] (wired [(4, 6), (6, 0)])
  let s := if room then t else holding 6 (List.replicate (chRoom t 6) 7) t
  { s with mov := { s.mov with
      rg := s.mov.rg.set 3 (some { Gen.begin (ent 1 (spanDesc 256 n) (chans 0 0 6)) with buf := [(9, 5)] })
      wg := s.mov.wg.set 2 (some (Gen.begin (ent 2 (spanDesc 256 n) (chans 4 0 0)))) } }

theorem witness_generator_lines : ∀ n ∈ [32, 64],
    let s := streaming n
    let e := ent 1 (spanDesc 256 n) (chans 0 0 6)
    let w := ent 2 (spanDesc 256 n) (chans 4 0 0)
    s.mov.rg.getD 3 none = some { Gen.begin e with buf := [(9, 5)] } ∧ (9 : Nat) ≤ s.clock.ek ∧ engOk s 4 = true ∧
      (Gen.begin e).clk ≠ s.clock.ek ∧ 1 ≤ chRoom s e.chOut ∧ chRoom (streaming n false) e.chOut = 0 ∧
      (∀ x ∈ s.mov.rg, ∀ r ∈ x, ¬r.e.id < e.id) ∧
      genLines (genStream e) = n / 32 ∧ s.mov.wg.getD 2 none = some (Gen.begin w) ∧ w.op ≠ 5 ∧ 0 < genLines (genStream w) ∧
      (Gen.begin w).clk ≠ s.clock.ek ∧ (∀ x ∈ s.mov.wg, ∀ r ∈ x, ¬r.e.id < w.id) ∧
      ((chTake w.chX 6 1 s).map fun p => p.1.length) = some 1 := by decide +kernel

/-- Transposing buffer 0 with one held unit, whose last group came in clk c, and n lines of the unit before it to push. -/
def emitting (n c : Nat) : State :=
  let s := wired [(6, 0)]
  let e := ent 0x10 { lenDesc (if n = 0 then 1 else 2) with w0 := word (1 * 2 ^ 19) } (chans 4 0 6)
  { s with mov := { s.mov with tb0 := some ⟨e, 1, [], [(List.replicate 32 3, c)], if n = 0 then 0 else 1, List.replicate n 5, 0, 0⟩ } }

theorem witness_tin_emit : ∀ n ∈ [0, 1, 9], ∀ c ∈ [9, 10],
    let s := emitting n c
    ∃ k, getTb s 0 = some k ∧ engOk s 4 = true ∧ s.clock.ek = 10 ∧ k.outq = List.replicate n 5 ∧
      k.held = [(List.replicate 32 3, c)] ∧ k.emitted < k.e.d.fld 1 24 0 ∧ 0 < chRoom s k.e.chOut := by
  intro n hn c hc
  refine ⟨_, rfl, ?_⟩
  revert n c
  decide +kernel

/-- A gather engine at its first entry of two, of blocks of n elements, with the entry and the elements of its block at hand; ext: its
table is external. -/
def gathering (op oob coord : Nat) (n : Nat := 1) (last : Option (Nat × List Nat) := none) (ext : Bool := false)
    (mask : List Nat := []) : State :=
  let d := gathDesc oob
  let e := ent op { d with
    w0 := word (d.w0.toNat + (if ext then 2 ^ 18 else 0) + (if mask = [] then 0 else 2 ^ 15)), w2 := word ((n - 1) * 2 ^ 20)
    w5 := word (2 * n) } (chans 5 4 6)
  let g : Gath := { mkGath e 2 with
    list := { InStream.init with ready := [(coord, 0)] }
    data := { InStream.init with ready := if op = 0x18 then [] else List.replicate n (7, 0) }
    mask := { InStream.init with ready := mask.map fun m => (m, 0) }, last := last }
  { pooled with mov := { pooled.mov with gath := some g } }

/-- Entries inside the dims and outside them, masked and not, of one element and of 1,024, new and a repeat, of a pool and an
external table. -/
theorem witness_gather_entry : ∀ op ∈ [0x18, 0x19, 0x1A], ∀ oob ∈ [0, 1, 2], ∀ p ∈ [(3, 1), (3, 1024), (4, 1)], ∀ mask ∈ [[], [0], [1]],
    let s := gathering op oob p.1 p.2 none false mask
    ∀ g ∈ s.mov.gath, engOk s 4 = true ∧ s.canonical = true ∧ g.next < g.len ∧ g.out.lineq = [] ∧ g.work = none ∧
      g.workClk ≠ some s.clock.ek ∧ g.list.ready = [(p.1, 0)] ∧ gMask g.e = decide (mask ≠ []) ∧ g.mask.ready = mask.map (·, 0) ∧
      g.e.op = op ∧ gExt g.e = false ∧ g.last = none ∧ g.blocks = [] ∧ (op ≠ 0x18 → g.data.ready.length = gLen g.e) ∧ gLen g.e = p.2 ∧
      gBits g.e = 16 ∧ g.e.d.fld 0 17 16 = oob ∧
      (let cs := (List.range 4).map fun d => sext 32 (p.1 >>> (32 * d))
       let els := (List.range (gLen g.e)).map fun i => (8 * (gBase g.e + g.e.d.w5.toNat * 3) + i * gBits g.e, gBits g.e)
       ((List.zip (gDims g.e) cs).all fun q => decide (0 ≤ q.2 ∧ q.2 < (q.1 : Int))) = decide (p.1 = 3) ∧
       (els.length ≤ rowSpan els [] 16 ↔ p.2 = 1) ∧ Clean s (els.take (rowSpan els [] 16))) := by
  decide +kernel

theorem witness_gather_repeats :
    let s := gathering 0x18 0 3 1 (some (3, [9]))
    let x := gathering 0x18 0 3 1 none true
    (∀ g ∈ s.mov.gath, g.last = some (3, [9]) ∧ gExt g.e = false ∧ g.list.ready = [(3, 0)]) ∧
      ∀ g ∈ x.mov.gath, gExt g.e = true ∧ g.last = none ∧ g.blocks = [] ∧ g.list.ready = [(3, 0)] := by decide +kernel

theorem witness_patrol : ∀ n ∈ [0, 1, 2, 3],
    let s := { pooled with pool := { pooled.pool with upset := mset 0 [] 1 n, writeback := [5] } }
    s.clock.skip = false ∧ awake s = true ∧ stepDone s 6 = true ∧ pdOn s 0 = true ∧
      rowAddr s 0 (mget 0 s.pool.patrolRow 0 % bankRows s) = some 0 ∧ mget 0 s.pool.upset (0 / 8 + 1) = n ∧
      (∀ i < 4, i ≠ 1 → mget 0 s.pool.upset (0 / 8 + i) = 0) ∧ s.pool.writeback.contains 5 = true ∧
      s.pool.writeback.contains 6 = false ∧ awake { s with pwr := { s.pwr with state := 3 } } = false := by decide +kernel

/-! ## Side-band, management, image, checkpoint -/

/-- Station 0x40, enrolled with every right, owns the core. -/
def owned (s : State := at10) : State :=
  { s with own := { s.own with
      state := 1, owner := 0x40, remain := 5
      enrol := s.own.enrol.set 0 ⟨true, true, 0xFF, 0x40, none⟩ } }

/-- A request of that station to slot 0. -/
def req : Req := ⟨0x40, 7, 0⟩

/-- A frame of that station with its CRC. -/
def frame (typ : Byte) (payload : List Byte) : Frame := reqFrame req typ payload

theorem frame_ok (typ : Byte) (payload : List Byte) (h : payload.length ≤ 64) : frameOk (frame typ payload) = true := by
  have e : (BitVec.ofNat 8 payload.length).toNat = payload.length := by
    rw [BitVec.toNat_ofNat]; omega
  simp only [frameOk, frame, reqFrame, frameBytes, e, decide_eq_true h, beq_self_eq_true, Bool.and_true]

/-- A state in which the MGC serves a command of class cls at once. -/
def listening (cls : Nat) (s : State) : Bool :=
  mgcUp s && s.sb.rxq.isEmpty && !edgeWork s && decide (cls ≤ pendingClass s)

theorem listens (cls : Nat) (s : State) (h : listening cls s = true) : Listens cls s := by
  simp only [listening, Bool.and_eq_true, List.isEmpty_iff, Bool.not_eq_true', decide_eq_true_eq] at h
  exact ⟨h.1.1.1, h.1.1.2, h.1.2, h.2⟩

theorem unanswered_owned (s : State) (seq typ : Byte) (known : enrolIdx s 0x40 = some 0)
    (last : (s.own.enrol.getD 0 EnrolEnt.init).last = none) : Unanswered 0x40 seq typ s :=
  ⟨0, s.own.enrol.getD 0 EnrolEnt.init, known, rfl, fun q t g h => by rw [last] at h; cases h⟩

/-- A state whose station 0x40 may ask. -/
theorem asks_owned (s : State) (typ : Byte) (cls : Nat) (h : listening cls s = true) (slot : s.straps.slot = 0)
    (known : enrolIdx s 0x40 = some 0) (last : (s.own.enrol.getD 0 EnrolEnt.init).last = none) :
    Asks req.src req.dst req.seq typ cls s :=
  { listens cls s h with dst := by rw [slot]; rfl, known := unanswered_owned s _ typ known last }

/-- A state in which that station may order. -/
def ordering (cls : Nat) (s : State) : Bool := listening cls s && s.straps.slot == 0 && s.own == owned.own

theorem orders_owned (cls : Nat) (s : State) (h : ordering cls s = true) : Orders req 0x07 cls s := by
  simp only [ordering, Bool.and_eq_true, beq_iff_eq] at h
  obtain ⟨⟨h, slot⟩, own⟩ := h
  exact { asks_owned s 0x07 cls h slot (by show enrolIdx s 0x40 = some 0; simp only [enrolIdx, own]; rfl) (by rw [own]; rfl) with
    owned := by rw [own]; decide, owner := by rw [own]; rfl }

theorem witness_orders : ∀ cls ∈ [2, 3, 4], Orders req 0x07 cls owned := by
  intro cls h
  apply orders_owned
  revert cls
  decide

theorem witness_frames : ∀ p ∈ [(0x01, []), (0x02, []), (0x0F, []), (0x08, []), (0x0D, []), (0x0E, [])],
    (frame (BitVec.ofNat 8 p.1) p.2).payload = [] ∧ (frame (BitVec.ofNat 8 p.1) p.2).typ = BitVec.ofNat 8 p.1 ∧
      (owned).own.state ≠ 0 ∧ (frame (BitVec.ofNat 8 p.1) p.2).src = (owned).own.owner ∧
      listening (frameClass (frame (BitVec.ofNat 8 p.1) p.2)) owned = true := by decide +kernel

theorem witness_read_write :
    let u := heard (owned)
    frameClass (frame 0x07 [8, 1, 1, 0, 0, 0x20, 0, 0]) = 2 ∧ accessForm (frame 0x05 [8, 1, 2, 0]) 0 = true ∧
      frameWords (frame 0x05 [8, 1, 2, 0]) = 2 ∧ (∀ i < 2, (regValue u (wordAddr (frame 0x05 [8, 1, 2, 0]) i)).isSome = true) ∧
      accessForm (frame 0x05 [8, 1, 1]) 0 = false ∧ accessForm (frame 0x05 [0xFC, 0x0F, 1, 0]) 0 = true ∧
      wordAddr (frame 0x05 [0xFC, 0x0F, 1, 0]) 0 = 0x0FFC ∧ regValue u 0x0108 = some 0x1005 ∧ regValue u 0x0FFC = none ∧
      (regWrite 0x0108 0x2000 u).2 = 0 ∧
      enrolIdx (regWrite 0x0108 0x2000 u).1 0x40 = enrolIdx (owned) 0x40 ∧ (regWrite 0x0108 0x2000 u).1.straps = (owned).straps := by
  decide +kernel

/-- A frame of that station, or of another, to every core or to another; with its CRC, or not. -/
def frameTo (src dst typ : Byte) (payload : List Byte) : Frame := reqFrame ⟨src, 7, dst⟩ typ payload

theorem witness_broadcast : ∀ typ ∈ [0x01, 0x02, 0x07],
    let f := frameTo 0x40 0xFF typ (if typ = 0x07 then [8, 1, 1, 0, 0, 0x20, 0, 0] else [])
    frameOk f = true ∧ f.dst = 0xFF ∧ listening (frameClass f) owned = true ∧ (enrolIdx owned f.src).isSome = true ∧
      ((owned).own.enrol.getD 0 EnrolEnt.init).last = none := by decide +kernel

theorem witness_repeated : ∀ typ ∈ [0x01, 0x02, 0x05, 0x07, 0x0A, 0x0D, 0x0E, 0x0F], ∀ g ∈ [none, some (frame 0x08 [])],
    let f := frame (BitVec.ofNat 8 typ) []
    let s := { owned with own := { (owned).own with
      enrol := (owned).own.enrol.set 0 ⟨true, true, 0xFF, 0x40, some (7, BitVec.ofNat 8 typ, g)⟩ } }
    frameOk f = true ∧ listening (frameClass f) s = true ∧ enrolIdx s f.src = some 0 ∧
      (s.own.enrol.getD 0 EnrolEnt.init).last = some (f.seq, f.typ, g) := by decide +kernel

theorem witness_stranger :
    let f := frameTo 0x50 0 0x01 []
    let s := { owned with own := { (owned).own with eopen := true } }
    frameOk f = true ∧ listening (frameClass f) s = true ∧ enrolIdx s f.src = none ∧ isMaster f.src = true ∧ s.own.eopen = true ∧
      s.own.enrol.length = 16 ∧ (s.own.enrol.getD 1 EnrolEnt.init).v = false ∧
      (∀ j < 1, (s.own.enrol.getD j EnrolEnt.init).v = true) := by decide +kernel

theorem witness_bad_frames :
    let f := frame 0x01 []
    let full := { owned with sb := { at10.sb with rxq := List.replicate 8 f } }
    let busy := { owned with err := { at10.err with alert := true } }
    mgcUp owned = true ∧ edgeWork owned = false ∧ frameOk { f with crc := f.crc + 1 } = false ∧ frameOk (frameTo 0x40 3 0x01 []) = true ∧
      (3 : Byte) ≠ BitVec.zeroExtend 8 (owned).straps.slot ∧ frameOk f = true ∧ full.sb.rxq.length = 8 ∧ mgcUp full = true ∧
      edgeWork full = false ∧ pendingClass busy < 2 ∧ mgcUp busy = true ∧ busy.sb.rxq.length < 8 := by decide +kernel

theorem witness_claims :
    let s := owned
    let open_ := { s with own := { s.own with state := 0, owner := 0xFF } }
    let elect := { open_ with own := { open_.own with window := some ([⟨0x41, 1, 2, 3⟩], 1) } }
    let hand := { s with own := { s.own with state := 2, owner := 0x41, succ := 0x40, win := 1 } }
    let other := { s with own := { s.own with owner := 0x41 } }
    let low := { s with own := { s.own with enrol := s.own.enrol.set 0 ⟨true, true, 3, 0x40, none⟩ } }
    let f := frame 0x0A [5, 1, 2, 3]
    (∀ x ∈ [s, open_, elect, hand, other, low], listening 2 x = true ∧ x.straps.slot = 0 ∧ enrolIdx x f.src = some 0 ∧
      (x.own.enrol.getD 0 EnrolEnt.init).last = none ∧ (x.own.enrol.getD 0 EnrolEnt.init).claim = true) ∧
      frameClass f = 2 ∧ open_.own.state = 0 ∧ open_.own.window = none ∧ elect.own.window = some ([⟨0x41, 1, 2, 3⟩], 1) ∧
      hand.own.state = 2 ∧ f.src = hand.own.succ ∧ other.own.state = 1 ∧ f.src ≠ other.own.owner ∧
      (low.own.enrol.getD 0 EnrolEnt.init).maxpri < f.payload.getD 0 0 ∧ f.payload.length = 4 ∧
      ¬((s.own.enrol.getD 0 EnrolEnt.init).maxpri < f.payload.getD 0 0) := by
  decide +kernel

theorem witness_ownership_ends : ∀ r ∈ [0, 1],
    let s := { at10 with own := { at10.own with state := 1, remain := BitVec.ofNat 8 r } }
    let h := { at10 with own := { at10.own with state := 2, win := BitVec.ofNat 8 r } }
    let w := { at10 with own := { at10.own with window := some ([⟨0x40, 1, 2, 3⟩, ⟨0x41, 1, 2, 3⟩], r) } }
    s.own.state ≠ 0 ∧ (s.own.remain = 0 ↔ r = 0) ∧ h.own.state = 2 ∧ (h.own.win = 0 ↔ r = 0) ∧
      w.own.window = some ([⟨0x40, 1, 2, 3⟩, ⟨0x41, 1, 2, 3⟩], r) := by decide

/-- A frame in its attempt after n that failed. -/
def retrying (n : Nat) (f : Frame) : State :=
  { at10 with sb := { at10.sb with out := [f], retry := [⟨f, n, 0, 0⟩] } }

theorem witness_bus :
    let f := frame 0x08 []
    let s := { at10 with sb := { at10.sb with out := [f], retry := [] } }
    let t := { at10 with sb := { at10.sb with retry := [⟨f, 1, 2, 3⟩] }, clock := { at10.clock with refc := 241 } }
    let a := { owned with err := { at10.err with alert := true } }
    mgcUp s = true ∧ s.sb.out = [f] ∧ s.sb.retry = [] ∧ mgcUp t = true ∧ 3 + 38 + 200 * (2 - 1) = t.clock.refc ∧
      t.sb.retry.find? (fun r => r.slots != 0 && decide (r.since + 38 + 200 * (r.slots - 1) ≤ t.clock.refc)) = some ⟨f, 1, 2, 3⟩ ∧
      mgcUp a = true ∧ a.err.alert = true ∧ a.own.state ≠ 0 ∧
      (∀ n ∈ [14, 15], ∀ g ∈ [f, frame 0x10 []], mgcUp (retrying n g) = true ∧ (retrying n g).sb.out = [g] ∧
        (retrying n g).sb.retry.find? (fun r => r.slots == 0 && r.f == g) = some ⟨g, n, 0, 0⟩) ∧
      (∀ b ∈ [false, true],
        let e := { at10 with err := { at10.err with alert := b }, cnt := { at10.cnt with stream := true, sinceStream := 300 } }
        mgcUp e = true ∧ e.cnt.stream = true ∧ e.cnt.sper.toNat ≤ e.cnt.sinceStream ∧ mgcBusy e = b) := by decide +kernel

/-- The owned core with an image slot A in a status. -/
def loaded (st : Nat) : State := { owned with img := { at10.img with a := { ImgSlot.empty with status := st } } }

theorem witness_image_commands : ∀ st ∈ [0, 1, 3],
    let s := loaded st
    ordering 3 s = true ∧ slotInUse s false = false ∧ slotInUse s true = false ∧
      (imgSlot s !false).status ≠ 1 ∧ (imgSlot s !false).status ≠ 2 ∧ (imgSlot s false).status = st ∧ (imgSlot s true).status ≠ 1 ∧
      (s.pwr.state = 1 ∨ s.pwr.state = 2) ∧ queuesEmpty s = true ∧ firstBusyChan s = none ∧ s.img.pend = false ∧
      stepDone s 9 = true ∧ s.issue.stop = .none ∧ s.img.bytes + 4 ≤ 65536 ∧ s.img.a.bytes.length < 12 ∧ s.img.b.status ≠ 3 := by
  decide

theorem witness_image_refusals :
    let s := { owned with img := { at10.img with infV := true, inf := false } }
    let run := { loaded 3 with pwr := { at10.pwr with state := 0 } }
    let hold := { loaded 3 with pwr := { at10.pwr with state := 2 }, issue := { at10.issue with stop := .hold 7 } }
    let long := { loaded 1 with img := { (loaded 1).img with bytes := 65536 } }
    ordering 3 s = true ∧ slotInUse s false = true ∧ (s.img.hashA.getD 0 0 = 0) ∧ ordering 3 run = true ∧ run.pwr.state ≠ 1 ∧
      run.pwr.state ≠ 2 ∧ (imgSlot run false).status = 3 ∧ ordering 3 hold = true ∧ hold.issue.stop = .hold 7 ∧
      (imgSlot hold false).status = 3 ∧ queuesEmpty hold = true ∧ firstBusyChan hold = none ∧ ordering 3 long = true ∧
      65536 < long.img.bytes + 4 ∧ (imgSlot long false).status = 1 ∧
      leNat (wordsBytes (List.replicate 8 (0 : Word))) = (loaded 3).img.a.body := by decide

theorem witness_patch_commands : ∀ st ∈ [0, 1, 3],
    let s := { owned with dbg := { at10.dbg with status := st } }
    let full := { s with dbg := { s.dbg with bytes := List.replicate 8192 0 } }
    ordering 4 s = true ∧ s.dbg.status = st ∧ s.dbg.bytes.length + 4 ≤ 8192 ∧ s.pwr.state ≠ 0 ∧ 8192 < full.dbg.bytes.length + 4 ∧
      full.dbg.status = st ∧ ordering 4 full = true := by
  decide +kernel

theorem witness_owner_commands :
    let s := owned
    (∃ i, enrolIdx s 0x40 = some i ∧ (s.own.enrol.getD i EnrolEnt.init).claim = true) ∧ enrolIdx s 0x41 = none ∧
      (0x80000041 : Word) &&& 0x3F00FF00 = 0 ∧ wbit 0x80000041 31 = true ∧ wfld 0x80000041 7 0 = 0x41 ∧ s.own.enrol.length = 16 ∧
      (s.own.enrol.getD 3 EnrolEnt.init).v = false ∧ s.own.lock = false ∧ (0x1FFFFFF : Word).toNat < 2 ^ 25 ∧
      2 ^ 25 ≤ (0x2000000 : Word).toNat ∧ (0x20000000 : Word) &&& 0x1F000000 = 0 ∧ (0x01000000 : Word) &&& 0x1F000000 ≠ 0 ∧
      s.fab.copying = false ∧ installing s = false ∧ s.fab.active = false ∧ s.fab.waiting = [] ∧ s.cnt.sper ≠ 0 ∧
      (let old := s.own.enrol.getD 0 EnrolEnt.init; old.v = true ∧ old.station = s.own.owner ∧ 0xC0FF0041 ≠ old.word) ∧
      (cntValue (heard s) 0x2080).isSome = true := ⟨⟨0, rfl, rfl⟩, by decide +kernel⟩

theorem witness_owner_locked : ∀ b ∈ [false, true],
    let s := { owned with fab := { at10.fab with active := b, copying := b }
                          cnt := { at10.cnt with sdst := 0x40, sper := 1, en := b } }
    let k := { s with own := { (owned).own with lock := b } }
    ordering 4 s = true ∧ s.fab.active = b ∧ s.fab.copying = b ∧ s.cnt.sper ≠ 0 ∧ 0x40 ≤ s.cnt.sdst.toNat ∧
      s.cnt.sdst.toNat ≤ 0xFE ∧ s.cnt.en = b ∧ k.own.lock = b ∧ listening 4 k = true ∧ k.straps.slot = 0 ∧ k.own.state = 1 ∧
      enrolIdx k 0x40 = some 0 ∧ (k.own.enrol.getD 0 EnrolEnt.init).last = none ∧ k.own.owner = 0x40 := by decide

/-- The owned core in a power state, halted or not. -/
def inMode (st : Nat) (halt : Bool) : State :=
  { owned with pwr := { at10.pwr with state := st }, pins := { at10.pins with pondHalt := halt } }

theorem witness_sleep_and_test : ∀ p ∈ [(0, true), (0, false), (1, false), (2, true)],
    let s := inMode p.1 p.2
    ordering 4 s = true ∧ ordering 2 s = true ∧ s.pwr.state = p.1 ∧ s.pins.pondHalt = p.2 ∧ s.rcv.cmdq = [] ∧ s.fab.outst = [] ∧
      s.fab.recv = [] ∧ s.pwr.wcnt < 65536 ∧ s.st.run = none ∧ stepDone s 9 = true ∧ halted s = p.2 ∧ inStop s = false ∧
      (let t := { s with st := { s.st with run := some (1, false) }, rcv := { s.rcv with cmdq := [.beatNo 1] } }
       ordering 4 t = true ∧ t.st.run ≠ none ∧ t.rcv.cmdq ≠ []) := by
  decide

/-- One bank in area 0, eight in area 1, a checkpoint area at byte 32768, and the owner. -/
def guarded : State :=
  { owned with
    img := { at10.img with infV := true, cur := { Image.null with
      areas := [⟨0, 1, false⟩, ⟨1, 8, false⟩, ⟨9, 0, false⟩, ⟨9, 0, false⟩, ⟨9, 0, false⟩] } }
    ckpt := { at10.ckpt with area := 32768 } }

/-- A header of its own checkpoint, written at the LOCAL slot. -/
def imaged : State :=
  { guarded with pool := { at10.pool with mem := writeBytes [] 32768 (ckptHeader guarded false 0 3 0) } }

theorem guarded_orders : Orders req 0x07 4 guarded := orders_owned 4 guarded (by decide +kernel)

theorem imaged_orders : Orders req 0x07 4 imaged := orders_owned 4 imaged (by decide +kernel)

theorem witness_arm :
    let s := guarded
    wbit 0x80000000 31 = true ∧ (0x80000000 : Word) &&& 0x1FFF = 0 ∧ s.ckpt.copy = none ∧ ckptBase s % 256 = 0 ∧
      inArea s 1 (ckptBase s) (ckptBase s + 2 * ckptLen s - 1) = true ∧ restoreReady s = true ∧
      (let t := { s with ckpt := { s.ckpt with area := 32769 }, pwr := { s.pwr with state := 0 } }
       ordering 4 t = true ∧ ckptBase t % 256 ≠ 0 ∧ t.ckpt.copy = none ∧ restoreReady t = false) ∧
      ∀ k ∈ [1, 2, 3], wfld (BitVec.ofNat 32 k) 2 0 = k ∧ wbit (BitVec.ofNat 32 k) 31 = false ∧ BitVec.ofNat 32 k &&& 0x1FF8 = 0 := by
  decide +kernel

theorem imaged_clean (base n : Nat) : Readable imaged base n := fun w _ => by
  show eccState imaged w < 2
  have h : eccState imaged w = 0 := rfl
  omega

theorem witness_restore : ∀ p ∈ [(1, ckptBase imaged), (3, replicaBase imaged)],
    let s := imaged
    let h := readBytes s.pool.mem p.2 256
    let k := (armReg false { s with ckpt := { s.ckpt with
      sameAck := if s.own.lock then s.ckpt.sameAck else wbit (BitVec.ofNat 32 p.1) 30, rcv := wbit (BitVec.ofNat 32 p.1) 29
      tseq := BitVec.ofNat 16 (wfld (BitVec.ofNat 32 p.1) 28 13) } })
    restoreReady s = true ∧ s.canonical = true ∧ restoreHdrOk k p.1 true h = decide (p.1 = 1) := by decide +kernel

theorem witness_image_check : ∀ b ∈ [false, true],
    let s := setImgSlot b { ImgSlot.empty with status := 2 } at10
    awake s = true ∧ stepDone s 5 = true ∧ (imgSlot s b).status = 2 ∧ (b = true → s.img.a.status ≠ 2) ∧ imgFlaws b s = [] := by decide

/-- An IMGSW mark waits to install slot A, in a status, with a line on channel 4 or with an instruction queued. -/
def switching (st : Nat) (busy work : Bool) : State :=
  let s := if busy then holding 4 [9] pooled else pooled
  let s := if work then s else queued 6 (ent 1) s
  { s with issue := { s.issue with stop := .imgWait false 1 1 }
           img := { s.img with a := { ImgSlot.empty with status := st, image := some Image.null } } }

theorem witness_image_switch : ∀ p ∈ [(3, false, false), (3, false, true), (3, true, true), (1, false, true), (1, true, true)],
    let s := switching p.1 p.2.1 p.2.2
    s.issue.stop = .imgWait false 1 1 ∧ halted s = false ∧ workDone s = p.2.2 ∧ (imgSlot s false).status = p.1 ∧
      firstBusyChan s = (if p.2.1 then some 4 else none) := by decide +kernel

theorem witness_installation : ∀ st ∈ [Stop.imgRun false 1 1 9, .actRun false none 9, .actRun false (some 7) 11],
    let s := { switching 3 false true with issue := { at10.issue with stop := st } }
    s.issue.stop = st ∧ (imgSlot s false).image = some Image.null ∧ imgFlaws false s = [] ∧ s.canonical = true ∧
      (9 : Nat) ≤ s.clock.clk ∧ s.clock.clk < 11 := by decide +kernel

theorem witness_stop_entry : ∀ p ∈ [(0, false), (2, false), (0, true)],
    let s := { at10 with issue := { at10.issue with stop := .ckptWait p.2 1 1 }, ckpt := { at10.ckpt with state := p.1, snap := 1 } }
    s.issue.stop = .ckptWait p.2 1 1 ∧ halted s = false ∧ workDone s = true ∧ (stopFault s p.2).isSome = decide (p = (0, false)) := by
  decide

/-- The restore of the checkpoint of imaged, with a header of kind k. -/
def restoring (k : Nat) (h : List Byte) : State :=
  { imaged with ckpt := { imaged.ckpt with state := 4, restore := some ⟨k, h, 0, []⟩ } }

theorem witness_restore_ends : ∀ k ∈ [1, 3],
    let s := restoring k [1]
    s.ckpt.restore = some ⟨k, [1], 0, []⟩ ∧ ([1] : List Byte) ≠ [] ∧ s.canonical = true ∧
      (∀ w, eccState s w = 0) := by
  intro k _
  refine ⟨rfl, by decide, ?_, fun w => rfl⟩
  show imaged.canonical = true
  decide +kernel

theorem witness_arm_timeout : ∀ n ∈ [100003, 100002],
    let s := { at10 with ckpt := { at10.ckpt with probe := some 3, state := 1 }, clock := { at10.clock with refc := n } }
    s.ckpt.probe = some 3 ∧ s.ckpt.state = 1 ∧ (3 + 100000 ≤ s.clock.refc ∨ s.clock.refc < 3 + 100000) := by decide

/-- An SYN wait that no flag passes, alone in the core, with n stalled clk behind it. -/
def stalling (n : Nat) : State :=
  let e := ent 3 (synDesc 5) (9 * 2 ^ 14)
  { at10 with live := [⟨5, e.bseq, e.id, false⟩], syn := { at10.syn with cur := some e }
              sync := { at10.sync with stallLimit := 5, stall := n } }

theorem witness_stall : ∀ n ∈ [3, 4],
    let s := stalling n
    s.sync.stallLimit ≠ 0 ∧ s.clock.skip = false ∧ stalled s = true ∧ (s.sync.stallLimit ≤ s.sync.stall + 1 ↔ n = 4) ∧
      stalled at10 = false := by decide

theorem witness_ends : ∀ b ∈ [false, true],
    let t := { imaged with st := { imaged.st with run := some (1, b) } }
    let d := { at10 with dbg := { at10.dbg with status := 2 } }
    let f := { at10 with fab := { at10.fab with copying := true, active := b } }
    t.st.run = some (1, b) ∧ t.canonical = true ∧
      restoreHdrOk t 1 false ((readBytes t.pool.mem (ckptBase t) (ckptLen t)).take 256) = true ∧
      d.dbg.status = 2 ∧ f.fab.copying = true ∧ installing f = false ∧ f.fab.waiting = [] ∧ f.routeUpset = [] ∧
      at10.st.run = none := by decide +kernel

/-! ## The block as a machine, single rules -/

theorem witness_queue :
    let held := { at10 with rst := { at10.rst with steps := [] } }
    at10.pending = [] ∧ awake (landClk at10) = true ∧ stepDone (landClk at10) 2 = true ∧ at10.fab.adds = [] ∧ at10.fab.parked = [] ∧
      at10.sb.rxq = [] ∧ awake (landClk held) = true ∧ stepDone (landClk held) 2 = false ∧ at10.canonical = true ∧
      at10.queuesFit = true := by decide

/-- The state in which one error, or two, wait for the end of the clk. -/
def erring (l : List Byte) (v : Bool) : State :=
  { at10 with err := { at10.err with v := v, fresh := l.map fun c => ⟨c, c == 0x80, none, 0, Err.info0⟩ } }

theorem witness_error_clk : ∀ b ∈ [false, true],
    let s := erring [if b then 0x80 else 0x46] b
    let t := erring [0x82, 0x80] false
    s.err.fresh.length = 1 ∧ (s.err.fresh.all fun x => x.halt == b) = true ∧ s.err.v = b ∧ s.err.log.length = 32 ∧ s.err.wptr < 31 ∧
      t.err.fresh.map (·.code) = [0x82, 0x80] ∧ (0x80 : Byte) < 0x82 ∧ t.err.v = false ∧ t.err.log.length = 32 ∧ t.err.wptr < 31 ∧
      at10.err.fresh = [] := by decide

theorem witness_step : ∃ t, step at10 = Host.Outcome.next t := ⟨tick at10, rfl⟩

theorem witness_write_not_owner :
    let f := frame 0x07 [8, 1, 1, 0, 0, 0, 0, 0]
    let s := { owned with own := { (owned).own with owner := 0x41 } }
    let r := frame 0x05 [8, 1, 1, 0]
    accessForm f (4 * frameWords f) = true ∧ f.src ≠ s.own.owner ∧ accessForm r 0 = true ∧
      (regValue (heard s) (wordAddr r 0)).isSome = true ∧ frameWords r = 1 ∧ listening 4 s = true ∧ listening (frameClass f) s = true ∧
      s.straps.slot = 0 ∧ enrolIdx s 0x40 = some 0 ∧ (s.own.enrol.getD 0 EnrolEnt.init).last = none := by decide +kernel

/-! ## Operand checks and worked examples of the spec -/

theorem test_reset_step_refuses_0 : (Instr.resetStepStart 0).wellFormed = false := by decide
theorem test_reset_step_refuses_10 : (Instr.resetStepStart 10).wellFormed = false := by decide
theorem test_reset_step_complete_refuses_0 : (Instr.resetStepComplete 0).wellFormed = false := by decide
theorem test_reset_step_complete_refuses_10 : (Instr.resetStepComplete 10).wellFormed = false := by decide
theorem test_reset_release_refuses_2 : (Instr.internalResetRelease 2).wellFormed = false := by decide
theorem test_reset_release_refuses_9 : (Instr.internalResetRelease 9).wellFormed = false := by decide
theorem test_well_formed : (Instr.resetStepStart 1).wellFormed = true ∧ (Instr.resetStepComplete 9).wellFormed = true ∧
    (Instr.internalResetRelease 3).wellFormed = true ∧ Instr.fset.wellFormed = true := by decide

/-- The operand checks agree with the model's faults: an ill-formed step number is no event. -/
theorem test_no_such_event : exec (.resetStepStart 0) at10 = .fault .noSuchEvent ∧
    exec (.internalResetRelease 9) at10 = .fault .noSuchEvent := ⟨rfl, rfl⟩

/-- 02_numbers: 1.0029296875 to BF16 with RND 0b10 under two generator words. -/
theorem test_stochastic_rounding : convertElem 1 2 0x3A1C9F02 (f32 0x3F806000) = 0x3F81 ∧
    convertElem 1 2 0xC0000000 (f32 0x3F806000) = 0x3F80 := by decide +kernel

/-- 02_numbers: 5.3 and −1.2 as FS4 and as MXFP4. -/
theorem test_blocks : convertBlock 11 0 [0, 0] [f32 0x40A9999A, f32 0xBF99999A] = (0x7ED0, [7, 0xB]) ∧
    convertBlock 8 0 [0, 0] [f32 0x40A9999A, f32 0xBF99999A] = (0x7F, [7, 0xA]) := by decide +kernel

/-- 03_program: the MXA word of the worked bundle has opcode 1, channels 4, 5 and 12, and ACC 1. -/
theorem test_slot_word :
    let e := { ent 0 with w := 0x04414C0E }
    e.op = 1 ∧ e.chX = 4 ∧ e.chY = 5 ∧ e.chOut = 12 ∧ wfld e.w 7 2 = 3 ∧ e.b1 = true ∧ e.b0 = false := by decide

/-- 03_program: the header of the worked bundle names MXA and SCL. -/
theorem test_header : bundleSlots ⟨0x20800123, 0, 0, 0, 0, 0, 0, 0⟩ = [0, 6] ∧ hdrKind 0x60800123 = 1 := by decide

/-- 03_program: ADDI S7, S7, 64 of the worked bundle, from 0x100. -/
theorem test_addi :
    (match execAddi { queued 6 { ent 0 with w := 0x4071C040 } with sregs := [(7, 0x100)] } with
      | .next t => t.scl.fly.map (·.res)
      | _ => []) = [.reg 7 0x140] := by decide +kernel

/-- 09_pool_and_movement: 256 + 0.75 in BF16 is 256, twice. -/
theorem test_scadd_rounds : convertElem 1 0 0 ((decodeElem 1 0x4380).add (decodeElem 1 0x3F40)) = 0x4380 := by decide +kernel

/-- 02_numbers: the commit of amax 3.2 over a history of 2.75 and 1.9, and the drain of 3.2 under its exponent. -/
theorem test_commit :
    let r : ScaleRec := ⟨(List.replicate 16 (0 : Word)).set 0 0x40300000 |>.set 1 0x3FF33333, 0x404CCCCD, false, 2, 2, 1, 3, false, 0⟩
    let c := r.commit
    c.scaleExp = 6 ∧ c.hptr = 3 ∧ c.hcount = 3 ∧ c.hist.getD 2 0 = 0x404CCCCD ∧
      convertElem 3 0 0 ((f32 0x404CCCCD).scale 6) = 0x75 := by decide +kernel

end Sys2Proof.Tests
end

section
/-! PROOFS. core_late beyond BEAT_HOLD_MAX (01_boundary R22; O15): what BEAT_OVERRUN answers in a late core, what the next clk
makes of the run of late clk, and the clk in which that run does not grow. -/

namespace Sys2Proof.Proofs.LateBeats

open Sys2Proof Sys2Proof.Machine Sys2Proof.Claims

/-! ## BEAT_OVERRUN -/

theorem exec_beatOverrun (s : State) : exec .beatOverrun s = execBeatOverrun s := rfl

theorem beatOverrun_raises {s : State} (late : s.out.coreLate = true) (beyond : s.sync.holdMax < s.issue.lateRun) :
    Answers .beatOverrun s (raise 0x80 FaultCtx.none s) := by
  rw [Answers, exec_beatOverrun]
  have reached : s.issue.lateRun ≥ s.sync.holdMax + 1 := beyond
  simp [execBeatOverrun, late, reached]

theorem beatOverrun_unchanged {s : State} (within : s.issue.lateRun ≤ s.sync.holdMax) : Answers .beatOverrun s s := by
  rw [Answers, exec_beatOverrun]
  have notReached : ¬ s.issue.lateRun ≥ s.sync.holdMax + 1 := by omega
  simp [execBeatOverrun, notReached]

/-! ## The next clk -/

@[simp] theorem retireCmd_issue (s : State) : (retireCmd s).issue = s.issue := by
  unfold retireCmd
  split
  · split <;> rfl
  · rfl

@[simp] theorem retireCmd_clock (s : State) : (retireCmd s).clock = s.clock := by
  unfold retireCmd
  split
  · split <;> rfl
  · rfl

@[simp] theorem retireCmd_pwr (s : State) : (retireCmd s).pwr = s.pwr := by
  unfold retireCmd
  split
  · split <;> rfl
  · rfl

theorem clkPerRef_congr {s t : State} (h : t.pwr = s.pwr) : clkPerRef t = clkPerRef s := by
  unfold clkPerRef
  rw [h]

/-- While a cycle of ref_clk goes on, no frame is served and the clk counts in the run of a late core. -/
theorem nextClk_lateRun_within_refCycle {s : State} (late : s.out.coreLate = true)
    (goesOn : s.clock.refFrac + 1 < clkPerRef s) : (nextClk s).issue.lateRun = s.issue.lateRun + 1 := by
  unfold nextClk
  dsimp only
  rw [if_neg]
  · simp [late]
  · rw [clkPerRef_congr (s := s) (by simp [late])]
    simpa [late] using goesOn

/-- What of R22's count holds: O15 with its third clause limited to a clk that ends no cycle of ref_clk. -/
theorem lateBeats_overrun_within_refCycle {s : State} (late : s.out.coreLate = true) :
    (s.sync.holdMax < s.issue.lateRun → Answers .beatOverrun s (raise 0x80 FaultCtx.none s)) ∧
    (s.issue.lateRun ≤ s.sync.holdMax → Answers .beatOverrun s s) ∧
    (s.clock.refFrac + 1 < clkPerRef s → (nextClk s).issue.lateRun = s.issue.lateRun + 1) :=
  ⟨beatOverrun_raises late, beatOverrun_unchanged, nextClk_lateRun_within_refCycle late⟩

/-! ## A reset served at the end of a cycle of ref_clk -/

/-- The owner's WRITE of RST_CMD with REACH data (R439). -/
def dataResetOrder : Frame := reqFrame ⟨0x40, 7, 0⟩ 0x07 [0x04, 0x04, 1, 0, 3, 0, 0, 0]

/-- A core owned by station 0x40 that has been late for one clk, in the last clk of a cycle of ref_clk at PL0, with the order of a
data reset in the queue of frames (R386). -/
def lateWithResetWaiting : State :=
  { State.reset with
    out := { State.reset.out with coreLate := true }
    issue := { State.reset.issue with service := true, lateRun := 1 }
    clock := { State.reset.clock with clk := 4, ek := 4, refFrac := 4 }
    own := { State.reset.own with
      state := 1, owner := 0x40, remain := 9
      enrol := State.reset.own.enrol.set 0 ⟨true, true, 0xFF, 0x40, none⟩ }
    sb := { State.reset.sb with rxq := [dataResetOrder] } }

/-- The order is served as the next clk begins: the reset is recorded in RST_CAUSE (bit 3, beside power-on), core_late is 0 (R20),
and the issue point is as after reset. -/
theorem nextClk_lateWithResetWaiting :
    let t := nextClk lateWithResetWaiting
    t.rst.cause = 0x009 ∧ t.out.coreLate = false ∧ t.issue.lateRun = 0 := by
  decide +kernel

/-- Refutes O15, in its third clause: the core of `lateWithResetWaiting` is late with a run of 1, and the data reset that the
next clk serves makes the run 0, not 2. The other two clauses hold (`beatOverrun_raises`, `beatOverrun_unchanged`). -/
theorem not_longLateBeatsOverrun : ¬ Obligations.LongLateBeatsOverrun := by
  unfold Obligations.LongLateBeatsOverrun
  rintro ⟨-, -, grows⟩
  have counted : (nextClk lateWithResetWaiting).issue.lateRun = 1 + 1 := grows lateWithResetWaiting rfl
  obtain ⟨-, -, cleared⟩ := nextClk_lateWithResetWaiting
  omega

end Sys2Proof.Proofs.LateBeats
end

section
/-! PROOFS. RESET packets (11_fabric_and_reduction R361; O24): what a reset leaves of sources, causes and waiting
packets, what a discarded packet leaves, and the path of a RESET packet from its arrival to its effect. -/

namespace Sys2Proof.Proofs.ResetPackets

open Sys2Proof Sys2Proof.Machine Sys2Proof.Claims

/-! ## The parts of a reset -/

@[simp] theorem interruptTrim_fab (s : State) : (interruptTrim s).fab = s.fab := by
  unfold interruptTrim
  split
  · split <;> rfl
  · rfl

@[simp] theorem interruptTrim_srcs (s : State) : (interruptTrim s).rst.srcs = s.rst.srcs := by
  unfold interruptTrim
  split
  · split <;> rfl
  · rfl

@[simp] theorem clearData_srcs (s : State) : (clearData s).rst.srcs = s.rst.srcs := rfl
@[simp] theorem clearData_adds (s : State) : (clearData s).fab.adds = [] := rfl
@[simp] theorem clearData_txq (s : State) :
    (clearData s).fab.txq = s.fab.txq.filter fun p => p.req.isNone && p.liveId.isNone := rfl

@[simp] theorem wakePwr_fab (s : State) : (wakePwr s).fab = s.fab := rfl
@[simp] theorem wakePwr_rst (s : State) : (wakePwr s).rst = s.rst := rfl

@[simp] theorem clearWarm_rst (s : State) : (clearWarm s).rst = s.rst := rfl
@[simp] theorem clearWarm_adds (s : State) : (clearWarm s).fab.adds = s.fab.adds := rfl
@[simp] theorem clearWarm_txq (s : State) : (clearWarm s).fab.txq = [] := rfl

@[simp] theorem holdSteps_fab (first : Nat) (s : State) : (holdSteps first s).fab = s.fab := rfl
@[simp] theorem holdSteps_cause (first : Nat) (s : State) : (holdSteps first s).rst.cause = s.rst.cause := rfl
@[simp] theorem holdSteps_srcs (first : Nat) (s : State) : (holdSteps first s).rst.srcs = s.rst.srcs := rfl

/-! ## A reset that is not cold -/

theorem getLsbD_or_one_shiftLeft (c : BitVec 10) {bit : Nat} (known : bit < 10) : (c ||| (1 <<< bit)).getLsbD bit = true := by
  rw [BitVec.getLsbD_or, BitVec.natCast_eq_ofNat, BitVec.getLsbD_ofNat, Nat.testBit_shiftLeft]
  simp [known]

/-- R432: the bit of the source stands in RST_CAUSE. -/
theorem assertReset_cause {bit reach : Nat} (known : bit < 10) (notCold : reach ≠ 1) (s : State) :
    (assertReset bit reach s).rst.cause.getLsbD bit = true := by
  simp only [assertReset, holdSteps_cause, if_neg notCold]
  exact getLsbD_or_one_shiftLeft _ known

/-- R435: the source that asserts takes the place of its own earlier assertion or joins the others; none else asserts. -/
theorem mem_srcs_of_mem_assertReset {bit reach : Nat} {s : State} {x : RstSrc} (notCold : reach ≠ 1)
    (asserted : x ∈ (assertReset bit reach s).rst.srcs) : x ∈ s.rst.srcs ∨ x.reach = reach := by
  simp only [assertReset, holdSteps_srcs, notCold, apply_ite State.rst, apply_ite Rst.srcs, clearData_srcs, wakePwr_rst,
    clearWarm_rst, interruptTrim_srcs, false_and, if_false, ite_self] at asserted
  split at asserted
  · obtain ⟨y, earlier, rfl⟩ := List.mem_map.mp asserted
    split
    · exact .inr rfl
    · exact .inl earlier
  · obtain earlier | new := List.mem_append.mp asserted
    · exact .inl earlier
    · exact .inr (by rw [List.mem_singleton.mp new])

theorem assertReset_adds {bit reach : Nat} (notCold : reach ≠ 1) (s : State) : (assertReset bit reach s).fab.adds = [] := by
  simp [assertReset, notCold, apply_ite State.fab, apply_ite FabState.adds]

/-- Of the packets that wait, a data reset discards those of requests and instructions (R385), a warm one all. -/
theorem assertReset_txq {bit reach : Nat} (notCold : reach ≠ 1) (s : State) :
    (assertReset bit reach s).fab.txq =
      if reach ≤ 2 then [] else s.fab.txq.filter fun p => p.req.isNone && p.liveId.isNone := by
  simp [assertReset, notCold, apply_ite State.fab, apply_ite FabState.txq]

theorem mem_txq_of_mem_assertReset {bit reach : Nat} {s : State} {x : TxPkt} (notCold : reach ≠ 1)
    (waits : x ∈ (assertReset bit reach s).fab.txq) : x ∈ s.fab.txq := by
  rw [assertReset_txq notCold] at waits
  split at waits
  · exact absurd waits List.not_mem_nil
  · exact List.mem_of_mem_filter waits

/-! ## A packet discarded -/

@[simp] theorem fabDrop_fab (s : State) :
    (fabDrop s).fab = { s.fab with fabDrop := satCount 16 (s.fab.fabDrop + 1) } := by
  simp [fabDrop]

@[simp] theorem fabDrop_rst (s : State) : (fabDrop s).rst = s.rst := by
  simp [fabDrop]

@[simp] theorem counted_fab (p : Pkt) (s : State) : (counted p s).fab = s.fab := by
  simp [counted]

/-- R356, R361: a RESET packet is no request, so no NACK answers it. -/
theorem refuse_of_reset {p : Pkt} (reset : p.typ = 14) (code : Nat) (s : State) : refuse p code s = fabDrop s := by
  simp [refuse, requestType, reset]

/-! ## No answer and no cold reset -/

/-- From s to t the port queues no packet and no flag add, and no source of a cold reset asserts (R361). -/
structure Quiet (s t : State) : Prop where
  adds : t.fab.adds.length ≤ s.fab.adds.length
  txq : ∀ x ∈ t.fab.txq, x ∈ s.fab.txq
  cold : ∀ x ∈ t.rst.srcs, x.reach = 1 → x ∈ s.rst.srcs

theorem Quiet.of_eq {s t u : State} (h : Quiet s t) (fab : u.fab = s.fab) (rst : u.rst = s.rst) : Quiet u t :=
  ⟨fab ▸ h.adds, fab ▸ h.txq, rst ▸ h.cold⟩

theorem quiet_of_kept {s t : State} (adds : t.fab.adds = s.fab.adds) (txq : t.fab.txq = s.fab.txq) (rst : t.rst = s.rst) :
    Quiet s t :=
  ⟨adds ▸ le_rfl, fun _ waits => txq ▸ waits, fun _ asserted _ => rst ▸ asserted⟩

theorem quiet_raise (c : Byte) (x : FaultCtx) (s : State) : Quiet s (raise c x s) :=
  quiet_of_kept (by simp) (by simp) (by simp)

theorem quiet_fabDrop (s : State) : Quiet s (fabDrop s) :=
  quiet_of_kept (by simp) (by simp) (by simp)

theorem quiet_assertReset {bit reach : Nat} (notCold : reach ≠ 1) (s : State) : Quiet s (assertReset bit reach s) where
  adds := by simp [assertReset_adds notCold]
  txq _ := mem_txq_of_mem_assertReset notCold
  cold _ asserted cold := (mem_srcs_of_mem_assertReset notCold asserted).resolve_right (by omega)

/-! ## The effect -/

theorem resetEffect_warm {p : Pkt} (warm : wfld p.w4 1 0 = 1) (s : State) : resetEffect p s = assertReset 7 2 s := by
  simp [resetEffect, warm]

theorem resetEffect_data {p : Pkt} (data : wfld p.w4 1 0 = 2) (s : State) : resetEffect p s = assertReset 7 3 s := by
  simp [resetEffect, data]

theorem resetEffect_reserved {p : Pkt} (reserved : wfld p.w4 1 0 ∉ [1, 2]) (s : State) : resetEffect p s = fabDrop s := by
  unfold resetEffect
  split <;> simp_all

theorem quiet_resetEffect (p : Pkt) (s : State) : Quiet s (resetEffect p s) := by
  unfold resetEffect
  split
  · exact quiet_assertReset (by decide) s
  · exact quiet_assertReset (by decide) s
  · exact quiet_fabDrop s

/-! ## The checks -/

theorem toReplica_bump (n k : Nat) (s : State) (p : Pkt) : toReplica (bump n k s) p = toReplica s p := by
  unfold bump
  split <;> rfl

theorem stopped_bump (n k : Nat) (s : State) (p : Pkt) : stopped (bump n k s) p = stopped s p := by
  unfold bump
  split <;> rfl

theorem jobOk_bump (n k : Nat) (s : State) (p : Pkt) : jobOk (bump n k s) p = jobOk s p := by
  unfold bump
  split <;> rfl

theorem not_stopped_of_reset {p : Pkt} (reset : p.typ = 14) (s : State) : stopped s p = false := by
  simp [stopped, reset]

theorem process_of_accepted (act : Pkt → State → State) {p : Pkt} {s : State} (h : Accepted p s) :
    process act p (bump 0x141 p.flits s) = act p (counted p s) := by
  have job : jobOk (bump 0x141 p.flits s) p = true := (jobOk_bump ..).trans h.job
  have going : stopped (bump 0x141 p.flits s) p = false := (stopped_bump ..).trans h.going
  simp [process, ← h.flits, h.contig, h.crc, h.form, h.core, job, going, counted]

/-- R361: a RESET packet of another job is discarded and counted. -/
theorem process_of_wrong_job (act : Pkt → State → State) {p : Pkt} {s : State} (reset : p.typ = 14) (intact : Intact p)
    (form : formOk p = true) (core : p.core = s.straps.core.toNat) (job : p.job ≠ s.job.id.toNat)
    (area : toReplica s p = false) : process act p s = fabDrop s := by
  obtain ⟨flits, contig, crc⟩ := intact
  have wrong : jobOk s p = false := by simp [jobOk, area, jobFree, reset, job]
  simp [process, flits, contig, crc, form, core, wrong, refuse_of_reset reset]

/-- R356: a RESET packet faults, is discarded and counted, or takes effect. -/
theorem process_cases_of_reset (act : Pkt → State → State) {p : Pkt} (reset : p.typ = 14) (s : State) :
    (∃ c x, process act p s = raise c x s) ∨ process act p s = fabDrop s ∨
      process act p s = act p (bump (0x100 + 2 * p.typ + 1) 1 s) := by
  unfold process
  rw [not_stopped_of_reset reset, if_neg (by decide : ¬ false = true)]
  simp only [refuse_of_reset reset]
  split_ifs
  · exact .inl ⟨_, _, rfl⟩
  · exact .inr (.inl rfl)
  · exact .inl ⟨_, _, rfl⟩
  · exact .inr (.inl rfl)
  · exact .inr (.inl rfl)
  · exact .inr (.inl rfl)
  · exact .inr (.inr rfl)

theorem quiet_process {p : Pkt} (reset : p.typ = 14) (s : State) : Quiet s (process resetEffect p s) := by
  obtain ⟨c, x, faults⟩ | dropped | acts := process_cases_of_reset resetEffect reset s
  · exact faults ▸ quiet_raise c x s
  · exact dropped ▸ quiet_fabDrop s
  · exact acts ▸ (quiet_resetEffect p _).of_eq (by simp) (by simp)

/-! ## The arrival -/

theorem exec_resetPacket {p : Pkt} (reset : p.typ = 14) (s : State) :
    exec (.resetPacket p) s = .next (arrive resetEffect p s) := by
  show execResetPacket p s = _
  simp [execResetPacket, rowTakes, reset]

/-- Where a packet adds to no flag, the adds of its clk keep their ranks. -/
theorem processNow_of_no_new_adds {act : Pkt → State → State} {p : Pkt} {s : State}
    (h : (process act p s).fab.adds.length ≤ s.fab.adds.length) : processNow act p s = process act p s := by
  have kept : ((process act p s).fab.adds.mapIdx fun i a =>
      if i ≥ s.fab.adds.length then { a with rank := 1 + p.ch.toNat } else a) = (process act p s).fab.adds := by
    refine List.ext_getElem (by simp) fun i _ inside => ?_
    rw [List.getElem_mapIdx, if_neg (by omega)]
  simp only [processNow, kept]

theorem arrive_of_arrives (act : Pkt → State → State) {p : Pkt} {s : State} (h : Arrives p s) :
    arrive act p s = processNow act p (bump 0x141 p.flits s) := by
  have installs : installing (bump 0x141 p.flits s) = false := by simpa [installing] using h.installing
  have credit : p.flits ≤ rxCredit (bump 0x141 p.flits s) p.ch.toNat := by simpa [rxCredit] using h.credit
  simp [arrive, h.awake, h.port, h.clk, h.parked, installs, Nat.not_lt.mpr credit]

/-- A RESET packet that the port takes is processed at once. -/
theorem answers_of_arrives {p : Pkt} {s : State} (reset : p.typ = 14) (h : Arrives p s) :
    Answers (.resetPacket p) s (process resetEffect p (bump 0x141 p.flits s)) := by
  rw [Answers, exec_resetPacket reset, arrive_of_arrives _ h, processNow_of_no_new_adds (quiet_process reset _).adds]

/-! ## The obligation -/

theorem answers_of_accepted {p : Pkt} {s : State} (reset : p.typ = 14) (h : Accepted p s) :
    Answers (.resetPacket p) s (resetEffect p (counted p s)) :=
  process_of_accepted resetEffect h ▸ answers_of_arrives reset h.toArrives

theorem answers_of_wrong_job {p : Pkt} {s : State} (reset : p.typ = 14) (h : Arrives p s) (intact : Intact p)
    (form : formOk p = true) (core : p.core = s.straps.core.toNat) (job : p.job ≠ s.job.id.toNat)
    (area : toReplica s p = false) : Answers (.resetPacket p) s (fabDrop (bump 0x141 p.flits s)) := by
  have dropped := process_of_wrong_job (s := bump 0x141 p.flits s) resetEffect reset intact form (by simpa using core)
    (by simpa using job) ((toReplica_bump ..).trans area)
  exact dropped ▸ answers_of_arrives reset h

theorem quiet_of_answers {p : Pkt} {s t : State} (reset : p.typ = 14) (h : Arrives p s) (answers : Answers (.resetPacket p) s t) :
    Quiet s t := by
  obtain rfl : process resetEffect p (bump 0x141 p.flits s) = t :=
    Host.Outcome.next.inj ((answers_of_arrives reset h).symm.trans answers)
  exact (quiet_process reset _).of_eq (by simp) (by simp)

/-- Settles O24: an accepted packet has the effect its REACH names (`answers_of_accepted`), one of another job is discarded
(`answers_of_wrong_job`), and whatever becomes of a RESET packet is quiet (`quiet_of_answers`). -/
theorem resetPacketsStartWarmAndDataResets : Obligations.ResetPacketsStartWarmAndDataResets := by
  unfold Obligations.ResetPacketsStartWarmAndDataResets
  refine ⟨fun p s reset h => ⟨fun warm => ⟨?_, ?_⟩, fun data => ⟨?_, ?_⟩, fun reserved => ⟨?_, ?_⟩⟩, ?_, ?_⟩
  · exact resetEffect_warm warm _ ▸ answers_of_accepted reset h
  · exact assertReset_cause (by decide) (by decide) _
  · exact resetEffect_data data _ ▸ answers_of_accepted reset h
  · exact assertReset_cause (by decide) (by decide) _
  · exact resetEffect_reserved reserved _ ▸ answers_of_accepted reset h
  · simp
  · intro p s reset h intact form core job area
    exact ⟨_, answers_of_wrong_job reset h intact form core job area, by simp, by simp, by simp⟩
  · intro p s t reset h answers
    have quiet := quiet_of_answers reset h answers
    exact ⟨quiet.txq, quiet.cold⟩

end Sys2Proof.Proofs.ResetPackets
end

section
/-! PROOFS. The counters at a beat edge (12_management R426; O14): the snapshot that the edge takes, that no later part of the
edge touches it, and the counters with which the next clk begins. -/

namespace Sys2Proof.Proofs.BeatSnapshots

open Sys2Proof Sys2Proof.Machine Sys2Proof.Claims

/-! ## What a count leaves of a snapshot -/

@[simp] theorem bump_snap (n k : Nat) (s : State) : (bump n k s).cnt.snap = s.cnt.snap := by unfold bump; split <;> rfl
@[simp] theorem bump_snaps (n k : Nat) (s : State) : (bump n k s).cnt.snaps = s.cnt.snaps := by unfold bump; split <;> rfl
@[simp] theorem bump_cycSnap (n k : Nat) (s : State) : (bump n k s).cnt.cycSnap = s.cnt.cycSnap := by unfold bump; split <;> rfl
@[simp] theorem bump_snapBeat (n k : Nat) (s : State) : (bump n k s).cnt.snapBeat = s.cnt.snapBeat := by unfold bump; split <;> rfl
@[simp] theorem bump_base (n k : Nat) (s : State) : (bump n k s).cnt.base = s.cnt.base := by unfold bump; split <;> rfl

/-! ## The counters and the beat number at an edge -/

theorem keepUndo_eq (s : State) : keepUndo s = { s with undo := (keepUndo s).undo } := by
  unfold keepUndo
  split
  · rfl
  · rfl

@[simp] theorem keepUndo_cnt (s : State) : (keepUndo s).cnt = s.cnt := by rw [keepUndo_eq]
@[simp] theorem keepUndo_s63 (s : State) : (keepUndo s).s63 = s.s63 := by rw [keepUndo_eq]
@[simp] theorem keepUndo_issue (s : State) : (keepUndo s).issue = s.issue := by rw [keepUndo_eq]
@[simp] theorem keepUndo_clock (s : State) : (keepUndo s).clock = s.clock := by rw [keepUndo_eq]
@[simp] theorem keepUndo_rst (s : State) : (keepUndo s).rst = s.rst := by rw [keepUndo_eq]

theorem snapCounters_eq (s : State) : snapCounters s = { s with cnt := (snapCounters s).cnt } := by
  unfold snapCounters
  split
  · rfl
  · rfl

@[simp] theorem snapCounters_s63 (s : State) : (snapCounters s).s63 = s.s63 := by rw [snapCounters_eq]
@[simp] theorem snapCounters_issue (s : State) : (snapCounters s).issue = s.issue := by rw [snapCounters_eq]
@[simp] theorem snapCounters_clock (s : State) : (snapCounters s).clock = s.clock := by rw [snapCounters_eq]
@[simp] theorem snapCounters_rst (s : State) : (snapCounters s).rst = s.rst := by rw [snapCounters_eq]

theorem snapCounters_cnt (s : State) :
    (snapCounters s).cnt = if s.cnt.snap then { s.cnt with snaps := s.cnt.base, cycSnap := s.cnt.cyc } else s.cnt := by
  simp only [snapCounters, apply_ite State.cnt]

@[simp] theorem beatNumber_cnt (s : State) : (beatNumber s).cnt = s.cnt := by
  simp [beatNumber, apply_ite State.cnt]

/-- The state after the part of a beat edge that counts: the copies of the counters, S63 and the count of the edge. -/
def edgeCounted (s : State) : State := bump 0x005 1 (beatNumber (snapCounters (keepUndo s)))

@[simp] theorem edgeCounted_snap (s : State) : (edgeCounted s).cnt.snap = s.cnt.snap := by
  simp [edgeCounted, snapCounters_cnt, apply_ite Cnt.snap]

/-- R119: where BEAT_NO does not set it in this clk, the edge increments S63. -/
theorem edgeCounted_s63 {s : State} (released : stepDone s 9 = true) (noBeatNo : s.issue.s63Set ≠ some s.clock.clk) :
    (edgeCounted s).s63 = s.s63 + 1 := by
  have kept : stepDone (snapCounters (keepUndo s)) 9 = true := by simpa [stepDone] using released
  simp [edgeCounted, beatNumber, kept, noBeatNo]

theorem edgeCounted_snaps (s : State) : (edgeCounted s).cnt.snaps = if s.cnt.snap then s.cnt.base else s.cnt.snaps := by
  simp [edgeCounted, snapCounters_cnt, apply_ite Cnt.snaps]

theorem edgeCounted_cycSnap (s : State) : (edgeCounted s).cnt.cycSnap = if s.cnt.snap then s.cnt.cyc else s.cnt.cycSnap := by
  simp [edgeCounted, snapCounters_cnt, apply_ite Cnt.cycSnap]

theorem edgeCounted_snapBeat (s : State) : (edgeCounted s).cnt.snapBeat = s.cnt.snapBeat := by
  simp [edgeCounted, snapCounters_cnt, apply_ite Cnt.snapBeat]

/-! ## What the rest of the edge leaves -/

theorem ite_cnt {c : Prop} [Decidable c] {s t u : State} (yes : t.cnt = s.cnt) (no : u.cnt = s.cnt) :
    (if c then t else u).cnt = s.cnt := by
  rw [apply_ite State.cnt, yes, no, ite_self]

@[simp] theorem synBeatEdge_cnt (s : State) : (synBeatEdge s).cnt = s.cnt := by
  unfold synBeatEdge
  split
  · exact ite_cnt rfl rfl
  · rfl

@[simp] theorem setStop_cnt (x : Stop) (s : State) : (setStop x s).cnt = s.cnt := rfl
@[simp] theorem leaveHold_cnt (s : State) : (leaveHold s).cnt = s.cnt := rfl
@[simp] theorem routeSwap_cnt (s : State) : (routeSwap s).cnt = s.cnt := rfl

@[simp] theorem ckptRestart_cnt (s : State) : (ckptRestart s).cnt = s.cnt := by
  simp [ckptRestart, apply_ite State.cnt]

@[simp] theorem takeTest_cnt (s : State) : (takeTest s).cnt = s.cnt := by
  unfold takeTest
  split
  · rfl
  · rfl

/-- R426, in every action of a mark. -/
@[simp] theorem markEdge_cnt (s : State) : (markEdge s).cnt = s.cnt := by
  unfold markEdge
  refine ite_cnt rfl ?_
  split
  case h_5 => exact ite_cnt rfl (takeTest_cnt s)
  all_goals rfl

/-- R426, in every stop of the core. -/
@[simp] theorem stopEdge_cnt (s : State) : (stopEdge s).cnt = s.cnt := by
  unfold stopEdge
  split
  case h_1 => exact markEdge_cnt s
  case h_7 =>
    split
    · exact ite_cnt rfl rfl
    · exact markEdge_cnt s
  case h_11 => exact ite_cnt (ckptRestart_cnt s) rfl
  case h_2 | h_3 | h_6 => exact ite_cnt rfl rfl
  all_goals rfl

/-! ## The edge -/

theorem exec_beatEdge (s : State) : exec .beatEdge s = execBeatEdge s := rfl

/-- After a beat edge the counters are those of its counting part, with SNAP_BEAT the beat number where SNAP is 1. -/
theorem answers_beatEdge {s : State} (going : s.pins.pondHalt = false) (up : rcvUp s = true) :
    ∃ t, Answers .beatEdge s t ∧
      t.cnt = if s.cnt.snap then { (edgeCounted s).cnt with snapBeat := (edgeCounted s).s63 } else (edgeCounted s).cnt := by
  have notIgnored : (s.pins.pondHalt || !rcvUp s) = false := by simp [going, up]
  refine ⟨_, if_neg (by simp [notIgnored]), ?_⟩
  rw [ite_cnt rfl (stopEdge_cnt _), synBeatEdge_cnt, ite_cnt (routeSwap_cnt _) rfl, ← edgeCounted]
  simp only [apply_ite State.cnt, edgeCounted_snap]

/-! ## The next clk -/

theorem retireCmd_cnt (s : State) : (retireCmd s).cnt = s.cnt := by
  unfold retireCmd
  split
  · split <;> rfl
  · rfl

theorem nextClk_base_within_refCycle {s : State} (goesOn : s.clock.refFrac + 1 < clkPerRef s) :
    (nextClk s).cnt.base = s.cnt.val := by
  unfold nextClk
  dsimp only
  rw [if_neg]
  · rw [retireCmd_cnt, apply_ite State.cnt, apply_ite Cnt.base, bump_base, ite_self]
  · rw [LateBeats.clkPerRef_congr (s := s) (by simp [apply_ite State.pwr])]
    simpa [apply_ite State.clock] using goesOn

/-! ## The obligation -/

/-- Settles O14: the counters after the edge are those of its counting part (`answers_beatEdge`), which copies them where SNAP is
1, and within a cycle of ref_clk base is what they hold as the clk begins (`nextClk_base_within_refCycle`). -/
theorem beatEdgeSnapshotsTheCounters : Obligations.BeatEdgeSnapshotsTheCounters := by
  unfold Obligations.BeatEdgeSnapshotsTheCounters
  refine ⟨fun s going up released noBeatNo => ?_, fun s goesOn => nextClk_base_within_refCycle goesOn⟩
  obtain ⟨t, answers, counters⟩ := answers_beatEdge going up
  refine ⟨t, answers, fun snap => ?_, fun noSnap => ?_⟩
  · simp [counters, snap, edgeCounted_snaps, edgeCounted_cycSnap, edgeCounted_s63 released noBeatNo]
  · simp [counters, noSnap, edgeCounted_snaps, edgeCounted_cycSnap, edgeCounted_snapBeat]

end Sys2Proof.Proofs.BeatSnapshots
end

section
/-! PROOFS. Reads and writes on the side-band bus (12_management R386 to R401, R407; O51): the path of a frame from the pair to
the request that a station makes, what a request leaves besides its reply, and the READ and the WRITE of a station that does not
own the core. -/

namespace Sys2Proof.Proofs.BusAccess

open Sys2Proof Sys2Proof.Machine Sys2Proof.Claims

/-! ## A frame taken at once -/

theorem mgcUp_congr {s t : State} (pwr : t.pwr = s.pwr) (rst : t.rst = s.rst) : mgcUp t = mgcUp s := by
  simp only [mgcUp, awake, stepDone, pwr, rst]

theorem edgeWork_congr {s t : State} (own : t.own = s.own) : edgeWork t = edgeWork s := by
  simp only [edgeWork, own]

theorem imageWork_congr {s t : State} (img : t.img = s.img) (ckpt : t.ckpt = s.ckpt) (issue : t.issue = s.issue) :
    imageWork t = imageWork s := by
  simp only [imageWork, installing, img, ckpt, issue]

theorem pendingClass_congr {s t : State} (own : t.own = s.own) (err : t.err = s.err) (img : t.img = s.img)
    (ckpt : t.ckpt = s.ckpt) (issue : t.issue = s.issue) : pendingClass t = pendingClass s := by
  simp only [pendingClass, edgeWork_congr own, imageWork_congr img ckpt issue, own, err]

/-- R406: where no lease, handover or window has run out, none ends. -/
theorem edgeActions_of_no_edgeWork {s : State} (quiet : edgeWork s = false) : edgeActions s = s := by
  simp only [edgeWork, Bool.or_eq_false_iff, Bool.and_eq_false_imp, bne_iff_ne, beq_iff_eq, beq_eq_false_iff_ne] at quiet
  obtain ⟨⟨lease, handover⟩, election⟩ := quiet
  have leased : leaseExpiry s = s := if_neg fun h => lease h.1 h.2
  have handing : handoverExpiry s = s := if_neg fun h => handover h.1 h.2
  rw [edgeActions, leased, handing]
  unfold windowClose
  split
  next closing => simp [closing] at election
  · rfl

theorem writeClass_mem (a : Nat) : writeClass a ∈ [2, 3, 4] := by
  unfold writeClass
  split_ifs <;> decide

theorem min_mem_classes {c d : Nat} (hc : c ∈ [2, 3, 4]) (hd : d ∈ [2, 3, 4]) : min c d ∈ [2, 3, 4] := by
  obtain h | h := min_choice c d
  · rwa [h]
  · rwa [h]

/-- R386: the class of a frame is 2, 3 or 4. -/
theorem frameClass_mem (f : Frame) : frameClass f ∈ [2, 3, 4] := by
  unfold frameClass
  split_ifs
  · decide
  · exact List.foldlRecOn _ _ (by decide) fun _ h _ _ => min_mem_classes h (writeClass_mem _)
  · decide

/-- R386: a frame that waits alone, with no work before it, is the next. -/
theorem nextFrame_of_alone {s : State} {f : Frame} (alone : s.sb.rxq = [f]) (first : frameClass f ≤ pendingClass s) :
    nextFrame s = some f := by
  have classes := frameClass_mem f
  simp only [List.mem_cons, List.not_mem_nil, or_false] at classes
  obtain h | h | h := classes <;> simp [nextFrame, alone, h, h ▸ first]

theorem serveFrames_of_empty (act : List (Nat × Word) → State → State) (n : Nat) {s : State} (empty : s.sb.rxq = []) :
    serveFrames act n s = s := by
  cases n with
  | zero => rfl
  | succ n => simp [serveFrames, nextFrame, empty]

theorem serveFrames_of_next (act : List (Nat × Word) → State → State) (n : Nat) {s : State} {f : Frame} (up : mgcUp s = true)
    (next : nextFrame s = some f) :
    serveFrames act (n + 1) s = serveFrames act n (serveFrame act f { s with sb := { s.sb with rxq := s.sb.rxq.erase f } }) := by
  simp only [serveFrames, up, next, Bool.not_true, Bool.false_eq_true, if_false]

/-- The state in which a frame is received: frames driven before are no longer listed (log 21). -/
def unlisted (s : State) : State := { s with sb := { s.sb with out := [], retry := s.sb.retry.filter fun r => r.slots != 0 } }

theorem heard_eq (s : State) : heard s = bump 0x160 1 (unlisted s) := rfl

@[simp] theorem unlisted_own (s : State) : (unlisted s).own = s.own := rfl
@[simp] theorem unlisted_straps (s : State) : (unlisted s).straps = s.straps := rfl
@[simp] theorem unlisted_rxq (s : State) : (unlisted s).sb.rxq = s.sb.rxq := rfl

@[simp] theorem heard_own (s : State) : (heard s).own = s.own := by simp [heard_eq]
@[simp] theorem heard_rxq (s : State) : (heard s).sb.rxq = s.sb.rxq := by simp [heard_eq]

/-- The state in which the core has put a frame that it takes into its queue. -/
def queued (f : Frame) (s : State) : State :=
  bump 0x160 1 { unlisted s with sb := { (unlisted s).sb with rxq := s.sb.rxq ++ [f] } }

theorem queued_rxq (f : Frame) (s : State) : (queued f s).sb.rxq = s.sb.rxq ++ [f] := by rw [queued, bump_sb]

theorem queued_mgcUp (f : Frame) (s : State) : mgcUp (queued f s) = mgcUp s :=
  mgcUp_congr (bump_pwr ..) (bump_rst ..)

theorem queued_pendingClass (f : Frame) (s : State) : pendingClass (queued f s) = pendingClass s :=
  pendingClass_congr (bump_own ..) (bump_err ..) (bump_img ..) (bump_ckpt ..) (bump_issue ..)

theorem bump_setSb (n k : Nat) (b : Sideband) (s : State) : { bump n k s with sb := b } = bump n k { s with sb := b } := by
  unfold bump
  split
  · rfl
  · rfl

/-- A frame that leaves the queue alone leaves the state in which it is heard. -/
theorem heard_of_queued {f : Frame} {s : State} (empty : s.sb.rxq = []) :
    { queued f s with sb := { (queued f s).sb with rxq := (queued f s).sb.rxq.erase f } } = heard s := by
  have emptied : (queued f s).sb.rxq.erase f = (unlisted s).sb.rxq := by simp [queued_rxq, empty]
  rw [emptied, queued, bump_setSb, bump_sb, heard_eq]

/-- R391, R392, R387: a whole frame to this core or to all goes into the queue, where no lease, handover or window has run out. -/
theorem takeFrame_of_room (act : List (Nat × Word) → State → State) {f : Frame} {s : State} (up : mgcUp s = true)
    (edge : edgeWork s = false) (whole : frameOk f = true)
    (mine : f.dst = BitVec.zeroExtend 8 s.straps.slot ∨ f.dst = 0xFF) (room : s.sb.rxq.length < 8) :
    takeFrame act f s = serveFrames act 8 (queued f s) := by
  have quiet : edgeActions (unlisted s) = unlisted s := edgeActions_of_no_edgeWork ((edgeWork_congr (unlisted_own s)).trans edge)
  have notOther : ¬ (f.dst ≠ BitVec.zeroExtend 8 (unlisted s).straps.slot ∧ f.dst ≠ 0xFF) := by rw [unlisted_straps]; tauto
  have notFull : ¬ (unlisted s).sb.rxq.length ≥ 8 := by rw [unlisted_rxq]; omega
  rw [takeFrame, if_neg (by simp [up])]
  change (if !frameOk f then _ else _) = _
  rw [if_neg (by simp [whole]), ← unlisted, quiet, if_neg notOther, if_neg notFull, queued, unlisted_rxq]

/-- A whole frame to this core or to all, with nothing that comes before it, is served in the state in which it is heard. -/
theorem takeFrame_of_listens (act : List (Nat × Word) → State → State) {f : Frame} {s : State}
    (listens : Listens (frameClass f) s) (whole : frameOk f = true)
    (mine : f.dst = BitVec.zeroExtend 8 s.straps.slot ∨ f.dst = 0xFF) :
    takeFrame act f s = serveFrames act 7 (serveFrame act f (heard s)) := by
  obtain ⟨up, queue, edge, pend⟩ := listens
  have alone : (queued f s).sb.rxq = [f] := by rw [queued_rxq, queue, List.nil_append]
  have next : nextFrame (queued f s) = some f := nextFrame_of_alone alone ((queued_pendingClass f s).symm ▸ pend)
  rw [takeFrame_of_room act up edge whole mine (by simp [queue]), serveFrames_of_next act 7 ((queued_mgcUp f s).trans up) next,
    heard_of_queued queue]

/-! ## A new request of an enrolled station -/

/-- R395: a request that the core has not answered last is served. -/
theorem serveFrame_of_unanswered (act : List (Nat × Word) → State → State) {f : Frame} {s : State}
    (known : Unanswered f.src f.seq f.typ s) (request : requestFrame f.typ = true)
    (broadcast : f.dst = 0xFF → broadcastOk f.typ = true) : ∃ e, serveFrame act f (heard s) = serve act e f (heard s) := by
  obtain ⟨i, e, station, rfl, unanswered⟩ := known
  have here : enrolIdx (heard s) f.src = some i := by simpa [enrolIdx] using station
  have served : (!requestFrame f.typ || (f.dst == 0xFF && !broadcastOk f.typ)) = false := by
    by_cases all : f.dst = 0xFF
    · simp [request, broadcast all]
    · rw [beq_eq_false_iff_ne.mpr all, request]; rfl
  refine ⟨s.own.enrol.getD i EnrolEnt.init, ?_⟩
  simp only [serveFrame, here, enrolled, served, Bool.and_false, Bool.false_eq_true, if_false, heard_own]
  split
  next q t g last => rw [if_neg (unanswered q t g last)]
  · rfl

/-! ## What a request leaves besides its reply -/

theorem remember_eq (station : Byte) (x : Byte × Byte × Option Frame) (s : State) :
    remember station x s = { s with own := { s.own with enrol := (remember station x s).own.enrol } } := by
  unfold remember
  split
  · rfl
  · rfl

theorem map_set_getD {α β : Type} (p : α → β) {l : List α} {i : Nat} {x d : α} (same : p x = p (l.getD i d)) :
    (l.set i x).map p = l.map p := by
  refine List.ext_getElem (by simp) fun j _ inside => ?_
  simp only [List.length_map] at inside
  simp only [List.getElem_map, List.getElem_set]
  split
  next here => subst here; rw [same, List.getD_eq_getElem _ _ inside]
  · rfl

/-- R395: of an entry, only the request it remembers changes. -/
theorem remember_entries (station : Byte) (x : Byte × Byte × Option Frame) (s : State) :
    (remember station x s).own.enrol.map (fun e => (e.v, e.claim, e.maxpri, e.station)) =
      s.own.enrol.map (fun e => (e.v, e.claim, e.maxpri, e.station)) := by
  unfold remember
  split
  · exact map_set_getD _ rfl
  · rfl

theorem silent_remember (station : Byte) (x : Byte × Byte × Option Frame) (s : State) : Silent s (remember station x s) :=
  ⟨remember_eq .., remember_entries ..⟩

theorem drive_eq (g : Frame) (s : State) :
    drive g s = { s with sb := { s.sb with out := s.sb.out ++ [g] }, cnt := (drive g s).cnt } := by
  unfold drive bump
  split
  · rfl
  · rfl

/-- R392, R395: a reply driven, and remembered or not, is the only trace of a request beside its effect. -/
theorem replies_of_silent {f : Frame} {typ : Byte} {payload : List Byte} {u t : State}
    (silent : Silent (replyFrame f (typ, payload) u) t) : Replies f.src f.seq typ payload u t := by
  obtain ⟨rest, entries⟩ := silent
  rw [replyFrame, drive_eq] at rest entries
  exact ⟨⟨mkFrame u f.src typ f.seq payload, by rw [rest], rfl, rfl, rfl, rfl, rfl, rfl⟩, by rw [rest], entries⟩

theorem afterReply_nil (s : State) : afterReply [] s = s := rfl

theorem silent_refl (s : State) : Silent s s := ⟨rfl, rfl⟩

theorem replies_serve {e : EnrolEnt} {f : Frame} {typ : Byte} {payload : List Byte} {s u : State}
    (effect : frameEffect e f s = (some (typ, payload), u, [])) :
    Replies f.src f.seq typ payload u (serve afterReply e f s) := by
  simp only [serve, effect, afterReply_nil]
  split
  · exact replies_of_silent (silent_remember ..)
  · exact replies_of_silent (silent_refl _)

theorem silent_serve {e : EnrolEnt} {f : Frame} {s u : State} (effect : frameEffect e f s = (none, u, [])) :
    Silent u (serve afterReply e f s) := by
  simp only [serve, effect, afterReply_nil]
  split
  · exact silent_remember ..
  · exact silent_refl _

theorem rxq_of_replies {src seq typ : Byte} {payload : List Byte} {u t : State} (h : Replies src seq typ payload u t) :
    t.sb.rxq = u.sb.rxq := by
  rw [h.rest]

theorem rxq_of_silent {u t : State} (h : Silent u t) : t.sb.rxq = u.sb.rxq := by
  rw [h.rest]

/-- The path of a request: its row takes the frame, and the core serves it in the state in which it is heard. -/
theorem frameRow_of_served {f : Frame} {s t : State} (listens : Listens (frameClass f) s) (whole : frameOk f = true)
    (mine : f.dst = BitVec.zeroExtend 8 s.straps.slot ∨ f.dst = 0xFF)
    (served : serveFrame afterReply f (heard s) = t) (empty : t.sb.rxq = []) : frameRow f.typ f s = .next t := by
  rw [frameRow, if_pos (.inl rfl), takeFrame_of_listens _ listens whole mine, served, serveFrames_of_empty _ _ empty]

/-- A slot address has six bits, so that no core's is the broadcast address. -/
theorem slot_ne_broadcast (slot : BitVec 6) : BitVec.zeroExtend 8 slot ≠ 0xFF := by
  have := slot.isLt
  bv_omega

/-- A new request of an enrolled station whose effect makes u and a reply. -/
theorem frameRow_replies {f : Frame} {typ : Byte} {payload : List Byte} {s u : State}
    (asks : Asks f.src f.dst f.seq f.typ (frameClass f) s) (whole : frameOk f = true) (request : requestFrame f.typ = true)
    (effect : ∀ e, frameEffect e f (heard s) = (some (typ, payload), u, [])) (queue : u.sb.rxq = s.sb.rxq) :
    ∃ t, frameRow f.typ f s = .next t ∧ Replies f.src f.seq typ payload u t := by
  have notAll : f.dst ≠ 0xFF := asks.dst ▸ slot_ne_broadcast _
  obtain ⟨e, served⟩ := serveFrame_of_unanswered afterReply asks.known request (absurd · notAll)
  have replies := replies_serve (effect e)
  exact ⟨_, frameRow_of_served asks.toListens whole (.inl asks.dst) served
    ((rxq_of_replies replies).trans (queue.trans asks.queue)), replies⟩

/-- A new broadcast request of an enrolled station whose effect makes u. -/
theorem frameRow_silent {f : Frame} {s u : State} (listens : Listens (frameClass f) s) (known : Unanswered f.src f.seq f.typ s)
    (whole : frameOk f = true) (all : f.dst = 0xFF) (request : requestFrame f.typ = true) (broadcast : broadcastOk f.typ = true)
    (effect : ∀ e, frameEffect e f (heard s) = (none, u, [])) (queue : u.sb.rxq = s.sb.rxq) :
    ∃ t, frameRow f.typ f s = .next t ∧ Silent u t := by
  obtain ⟨e, served⟩ := serveFrame_of_unanswered afterReply known request fun _ => broadcast
  have silent := silent_serve (effect e)
  exact ⟨_, frameRow_of_served listens whole (.inr all) served ((rxq_of_silent silent).trans (queue.trans listens.queue)), silent⟩

/-! ## READ -/

theorem readEffect_eq (a : Nat) (s : State) :
    readEffect a s = { s with fab := (readEffect a s).fab, cnt := (readEffect a s).cnt } := by
  unfold readEffect
  split
  · rfl
  · split
    · rfl
    · split <;> rfl

@[simp] theorem readEffect_own (a : Nat) (s : State) : (readEffect a s).own = s.own := by rw [readEffect_eq]
@[simp] theorem readEffect_sb (a : Nat) (s : State) : (readEffect a s).sb = s.sb := by rw [readEffect_eq]

/-- Reading moves only what R352 and R424 name: neither ownership nor the bus. -/
theorem readWords_frame (f : Frame) (n : Nat) : ∀ (i : Nat) (s : State),
    (readWords f n i s).2.own = s.own ∧ (readWords f n i s).2.sb = s.sb := by
  induction n with
  | zero => exact fun _ _ => ⟨rfl, rfl⟩
  | succ n ih =>
    intro i s
    obtain ⟨own, sb⟩ := ih (i + 1) (readEffect (wordAddr f i) s)
    exact ⟨own.trans (readEffect_own ..), sb.trans (readEffect_sb ..)⟩

@[simp] theorem readWords_length (f : Frame) (n : Nat) : ∀ (i : Nat) (s : State), (readWords f n i s).1.length = n := by
  induction n with
  | zero => exact fun _ _ => rfl
  | succ n ih => exact fun i s => congrArg (· + 1) (ih ..)

@[simp] theorem leBytes_length (n : Nat) : ∀ v : Nat, (leBytes n v).length = n := by
  induction n with
  | zero => exact fun _ => rfl
  | succ n ih => exact fun v => congrArg (· + 1) (ih _)

@[simp] theorem wordsBytes_length (ws : List Word) : (wordsBytes ws).length = 4 * ws.length := by
  simp [wordsBytes, wordBytes, List.length_flatMap, Nat.mul_comm]

theorem payload_length_of_accessForm {f : Frame} {n : Nat} (form : accessForm f n = true) : f.payload.length = 4 + n := by
  simp only [accessForm, Bool.and_eq_true, beq_iff_eq] at form
  obtain ⟨⟨⟨length, -⟩, -⟩, -⟩ := form
  exact length

/-- R396: where a register answers every word, a READ is answered with the words. -/
theorem doRead_of_values {f : Frame} {s : State} (form : accessForm f 0 = true)
    (values : ∀ i, i < frameWords f → (regValue s (wordAddr f i)).isSome = true) :
    doRead f s = (some (0x06, f.payload ++ wordsBytes (readWords f (frameWords f) 0 s).1), (readWords f (frameWords f) 0 s).2) := by
  have all : (List.range (frameWords f)).find? (fun i => (regValue s (wordAddr f i)).isNone) = none :=
    List.find?_eq_none.mpr fun i inside => by simpa using Option.isSome_iff_ne_none.mp (values i (List.mem_range.mp inside))
  have whole : f.payload.take 4 = f.payload := List.take_of_length_le (payload_length_of_accessForm form).le
  simp [doRead, form, all, whole]

theorem frameClass_of_read {f : Frame} (read : f.typ = 0x05) : frameClass f = 4 := by
  simp [frameClass, read]

theorem frameEffect_read {f : Frame} (read : f.typ = 0x05) (e : EnrolEnt) (s : State) :
    frameEffect e f s = ((doRead f s).1, (doRead f s).2, []) := by
  simp [frameEffect, read]

/-- R396, R401: a READ of any enrolled station is answered. -/
theorem read_replies {f : Frame} {s : State} (read : f.typ = 0x05) (asks : Asks f.src f.dst f.seq 0x05 4 s)
    (whole : frameOk f = true) (form : accessForm f 0 = true)
    (values : ∀ i, i < frameWords f → (regValue (heard s) (wordAddr f i)).isSome = true) :
    ∃ t, Answers (.read f) s t ∧ Replies f.src f.seq 0x06 (f.payload ++ wordsBytes (readWords f (frameWords f) 0 (heard s)).1)
      (readWords f (frameWords f) 0 (heard s)).2 t := by
  obtain ⟨-, sb⟩ := readWords_frame f (frameWords f) 0 (heard s)
  have row := frameRow_replies (typ := 0x06) (u := (readWords f (frameWords f) 0 (heard s)).2)
    (by rwa [read, frameClass_of_read read]) whole (by rw [read]; decide)
    (fun e => by rw [frameEffect_read read, doRead_of_values form values]) (by rw [sb, heard_rxq])
  rwa [read] at row

/-! ## WRITE -/

/-- The count of a write that R401 refuses. -/
def refusedWrite (s : State) : State := { s with own := { s.own with wnack := satCount 16 (s.own.wnack + 1) } }

theorem refusedWrite_heard (s : State) :
    refusedWrite (heard s) = { heard s with own := { s.own with wnack := satCount 16 (s.own.wnack + 1) } } := by
  simp [refusedWrite]

/-- R401: the WRITE of another station than the owner changes nothing but the count of such. -/
theorem doWrite_of_not_owner {f : Frame} {s : State} (form : accessForm f (4 * frameWords f) = true)
    (other : s.own.state = 0 ∨ f.src ≠ s.own.owner) :
    doWrite f s = (if f.dst = 0xFF then none else some (0x09, [1, 0, 0, 0]), refusedWrite s, []) := by
  simp [doWrite, form, other, rNack, refusedWrite, byte]

theorem frameEffect_write {f : Frame} (write : f.typ = 0x07) (e : EnrolEnt) (s : State) : frameEffect e f s = doWrite f s := by
  simp [frameEffect, write]

theorem write_refused {f : Frame} {s : State} (write : f.typ = 0x07) (asks : Asks f.src f.dst f.seq 0x07 (frameClass f) s)
    (whole : frameOk f = true) (form : accessForm f (4 * frameWords f) = true)
    (other : s.own.state = 0 ∨ f.src ≠ s.own.owner) :
    ∃ t, Answers (.write f) s t ∧ Replies f.src f.seq 0x09 [1, 0, 0, 0] (refusedWrite (heard s)) t := by
  have notAll : f.dst ≠ 0xFF := asks.dst ▸ slot_ne_broadcast _
  have row := frameRow_replies (typ := 0x09) (u := refusedWrite (heard s)) (by rwa [write]) whole (by rw [write]; decide)
    (fun e => by rw [frameEffect_write write, doWrite_of_not_owner form (by simpa using other), if_neg notAll]) (heard_rxq s)
  rwa [write] at row

theorem broadcast_write_refused {f : Frame} {s : State} (write : f.typ = 0x07) (listens : Listens (frameClass f) s)
    (known : Unanswered f.src f.seq 0x07 s) (all : f.dst = 0xFF) (whole : frameOk f = true)
    (form : accessForm f (4 * frameWords f) = true) (other : s.own.state = 0 ∨ f.src ≠ s.own.owner) :
    ∃ t, Answers (.write f) s t ∧ Silent (refusedWrite (heard s)) t := by
  have row := frameRow_silent (u := refusedWrite (heard s)) listens (by rwa [write]) whole all (by rw [write]; decide)
    (by rw [write]; decide)
    (fun e => by rw [frameEffect_write write, doWrite_of_not_owner form (by simpa using other), if_pos all]) (heard_rxq s)
  rwa [write] at row

/-! ## The obligation -/

/-- Settles O51: a READ is answered whoever owns the core (`read_replies`), a WRITE of another station than the owner is refused
with a reply (`write_refused`), and without one where it is broadcast (`broadcast_write_refused`). -/
theorem writesAreAcceptedOnlyFromTheOwner : Obligations.WritesAreAcceptedOnlyFromTheOwner := by
  unfold Obligations.WritesAreAcceptedOnlyFromTheOwner
  refine ⟨fun s f whole asks read form values => ?_, fun s f whole write form other => ?_⟩
  · obtain ⟨t, answers, replies⟩ := read_replies read asks whole form values
    obtain ⟨own, -⟩ := readWords_frame f (frameWords f) 0 (heard s)
    have four : f.payload.length = 4 := payload_length_of_accessForm form
    exact ⟨t, _, _, answers, replies, List.take_left' four, by simp [four], own.trans (heard_own s)⟩
  · rw [← refusedWrite_heard]
    exact ⟨fun asks => write_refused write asks whole form other,
      fun listens known all => broadcast_write_refused write listens known all whole form other⟩

end Sys2Proof.Proofs.BusAccess
end

section
/-! PROOFS. The tile of the copy that the architect's witness takes (09_pool_and_movement R302). -/

namespace Sys2Proof.Proofs.TpcTiles

open Sys2Proof Sys2Proof.Machine Sys2Proof.Tests

/-- A copy of one tile has one unit, from `witness_copy_clk`. The kernel's check of that witness needs the most memory of the
whole text, and a replay of the text checks declarations in the order of their names' hashes: this name comes first, so that the
witness is checked while little else is held. -/
theorem copyUnits_eq_singleton : copyUnits (copyEnt 0x12 4096) = [([0, 0, 0, 0], [0, 0, 0, 0])] :=
  (witness_copy_clk (0, 0) List.mem_cons_self).1

end Sys2Proof.Proofs.TpcTiles
end

section
/-! PROOFS. What every step keeps (09_pool_and_movement, 03_program R97; O4, O5): the lemmas keeps_<name> of Laws/ for every command
and for the parts of one clk, put together. -/

namespace Sys2Proof.StepKeeps

open Sys2Proof Sys2Proof.Machine Sys2Proof.Claims

/-! ## A clk, and every command -/

theorem keeps_tick {z s : State} (h : Keeps z s) : Keeps z (tick s) := by
  have land := keeps_landClk s h
  unfold tick
  exact Keeps.ite (keeps_engineClk _ (keeps_nextClk _ (keeps_endClk _ land))) (keeps_refTick _ land)

theorem exec_keeps (c : Instr) (s : State) : KeepsOut s (exec c s) := by
  induction c with
  | springDataFlit typ data => exact keeps_execSpringDataFlit typ data s (Keeps.refl s)
  | loadBlock w3 w2 w1 w0 => exact keeps_execLoadBlock w3 w2 w1 w0 s (Keeps.refl s)
  | replay w3 w2 w1 w0 => exact keeps_execReplay w3 w2 w1 w0 s (Keeps.refl s)
  | descLoad w3 w2 w1 w0 => exact keeps_execDescLoad w3 w2 w1 w0 s (Keeps.refl s)
  | beatNo w3 w2 w1 w0 => exact keeps_execBeatNo w3 w2 w1 w0 s (Keeps.refl s)
  | resume w3 w2 w1 w0 => exact keeps_execResume w3 w2 w1 w0 s (Keeps.refl s)
  | descLoadExecute => exact keeps_execDescLoadExecute s (Keeps.refl s)
  | beatNoExecute => exact keeps_execBeatNoExecute s (Keeps.refl s)
  | patchListApply => exact keeps_execPatchListApply s (Keeps.refl s)
  | bundleIssue => exact keeps_execBundleIssue s (Keeps.refl s)
  | beatMark => exact keeps_execBeatMark s (Keeps.refl s)
  | holdMark => exact keeps_execHoldMark s (Keeps.refl s)
  | imgswMark => exact keeps_execImgswMark s (Keeps.refl s)
  | ckptMark => exact keeps_execCkptMark s (Keeps.refl s)
  | beatDue => exact keeps_execBeatDue s (Keeps.refl s)
  | beatEdge => exact keeps_execBeatEdge s (Keeps.refl s)
  | plTargetChange level => exact keeps_execPlTargetChange level s (Keeps.refl s)
  | plCommit edge => exact keeps_execPlCommit edge s (Keeps.refl s)
  | plReadyRise => exact keeps_execPlReadyRise s (Keeps.refl s)
  | pondHaltRise => exact keeps_execPondHaltRise s (Keeps.refl s)
  | droopAlertRise => exact keeps_execDroopAlertRise s (Keeps.refl s)
  | droopAlertFall => exact keeps_execDroopAlertFall s (Keeps.refl s)
  | droopWindowEnd => exact keeps_execDroopWindowEnd s (Keeps.refl s)
  | gmiTxCredit ch => exact keeps_execGmiTxCredit ch s (Keeps.refl s)
  | packetHandoff ch => exact keeps_execPacketHandoff ch s (Keeps.refl s)
  | putPacket p => exact keeps_execPutPacket p s (Keeps.refl s)
  | getPacket p => exact keeps_execGetPacket p s (Keeps.refl s)
  | getrPacket p => exact keeps_execGetrPacket p s (Keeps.refl s)
  | ackPacket p => exact keeps_execAckPacket p s (Keeps.refl s)
  | nackPacket p => exact keeps_execNackPacket p s (Keeps.refl s)
  | raccPacket p => exact keeps_execRaccPacket p s (Keeps.refl s)
  | faddPacket p => exact keeps_execFaddPacket p s (Keeps.refl s)
  | carryPacket p => exact keeps_execCarryPacket p s (Keeps.refl s)
  | rconPacket p => exact keeps_execRconPacket p s (Keeps.refl s)
  | rresPacket p => exact keeps_execRresPacket p s (Keeps.refl s)
  | probePacket p => exact keeps_execProbePacket p s (Keeps.refl s)
  | proberPacket p => exact keeps_execProberPacket p s (Keeps.refl s)
  | resetPacket p => exact keeps_execResetPacket p s (Keeps.refl s)
  | thermWarn logic sram => exact keeps_execThermWarn logic sram s (Keeps.refl s)
  | thermalTrip logic sram => exact keeps_execThermalTrip logic sram s (Keeps.refl s)
  | brownOut => exact keeps_execBrownOut s (Keeps.refl s)
  | brownOutRelease => exact keeps_execBrownOutRelease s (Keeps.refl s)
  | porAssert => exact keeps_execPorAssert s (Keeps.refl s)
  | porRelease straps => exact keeps_execPorRelease straps s (Keeps.refl s)
  | chipRstAssert => exact keeps_execChipRstAssert s (Keeps.refl s)
  | chipRstRelease => exact keeps_execChipRstRelease s (Keeps.refl s)
  | internalResetRelease bit => exact keeps_execInternalResetRelease bit s (Keeps.refl s)
  | resetStepStart k => exact keeps_execResetStepStart k s (Keeps.refl s)
  | resetStepComplete k => exact keeps_execResetStepComplete k s (Keeps.refl s)
  | fuseFrameEnd words => exact keeps_execFuseFrameEnd words s (Keeps.refl s)
  | fuseTimeout => exact keeps_execFuseTimeout s (Keeps.refl s)
  | fuseRetry => exact keeps_execFuseRetry s (Keeps.refl s)
  | tapReset => exact keeps_execTapReset s (Keeps.refl s)
  | idcode => exact keeps_execIdcode s (Keeps.refl s)
  | bypass ir => exact keeps_execBypass ir s (Keeps.refl s)
  | ijtag access => exact keeps_execIjtag access s (Keeps.refl s)
  | debugReset reach => exact keeps_execDebugReset reach s (Keeps.refl s)
  | wsBypass => exact keeps_execWsBypass s (Keeps.refl s)
  | wsExtest => exact keeps_execWsExtest s (Keeps.refl s)
  | wsPreload => exact keeps_execWsPreload s (Keeps.refl s)
  | wsClamp => exact keeps_execWsClamp s (Keeps.refl s)
  | wsSafe => exact keeps_execWsSafe s (Keeps.refl s)
  | wsIntestScan => exact keeps_execWsIntestScan s (Keeps.refl s)
  | wpExtest => exact keeps_execWpExtest s (Keeps.refl s)
  | wpIntestScan => exact keeps_execWpIntestScan s (Keeps.refl s)
  | mma a => exact keeps_execMma a s (Keeps.refl s)
  | mman a => exact keeps_execMman a s (Keeps.refl s)
  | cdl1 a => exact keeps_execCdl1 a s (Keeps.refl s)
  | cdl2 a => exact keeps_execCdl2 a s (Keeps.refl s)
  | cminp a => exact keeps_execCminp a s (Keeps.refl s)
  | cmaxp a => exact keeps_execCmaxp a s (Keeps.refl s)
  | ccnt a => exact keeps_execCcnt a s (Keeps.refl s)
  | drain a => exact keeps_execDrain a s (Keeps.refl s)
  | discard a => exact keeps_execDiscard a s (Keeps.refl s)
  | arm a => exact keeps_execArm a s (Keeps.refl s)
  | quiet a => exact keeps_execQuiet a s (Keeps.refl s)
  | gpdx => exact keeps_execGpdx s (Keeps.refl s)
  | gpdw => exact keeps_execGpdw s (Keeps.refl s)
  | fwdx => exact keeps_execFwdx s (Keeps.refl s)
  | adz => exact keeps_execAdz s (Keeps.refl s)
  | kstepBroadcast a => exact keeps_execKstepBroadcast a s (Keeps.refl s)
  | tileSwap a => exact keeps_execTileSwap a s (Keeps.refl s)
  | drainRowPush a => exact keeps_execDrainRowPush a s (Keeps.refl s)
  | activityLevelStep a => exact keeps_execActivityLevelStep a s (Keeps.refl s)
  | vecAdd => exact keeps_execVecAdd s (Keeps.refl s)
  | vecSub => exact keeps_execVecSub s (Keeps.refl s)
  | vecMul => exact keeps_execVecMul s (Keeps.refl s)
  | fma => exact keeps_execFma s (Keeps.refl s)
  | fms => exact keeps_execFms s (Keeps.refl s)
  | fnma => exact keeps_execFnma s (Keeps.refl s)
  | mul3 => exact keeps_execMul3 s (Keeps.refl s)
  | abs => exact keeps_execAbs s (Keeps.refl s)
  | neg => exact keeps_execNeg s (Keeps.refl s)
  | vecMin => exact keeps_execVecMin s (Keeps.refl s)
  | vecMax => exact keeps_execVecMax s (Keeps.refl s)
  | clamp => exact keeps_execClamp s (Keeps.refl s)
  | sqd => exact keeps_execSqd s (Keeps.refl s)
  | cmp => exact keeps_execCmp s (Keeps.refl s)
  | sel => exact keeps_execSel s (Keeps.refl s)
  | vecAnd => exact keeps_execVecAnd s (Keeps.refl s)
  | vecOr => exact keeps_execVecOr s (Keeps.refl s)
  | vecXor => exact keeps_execVecXor s (Keeps.refl s)
  | mand => exact keeps_execMand s (Keeps.refl s)
  | mor => exact keeps_execMor s (Keeps.refl s)
  | mnot => exact keeps_execMnot s (Keeps.refl s)
  | cvt => exact keeps_execCvt s (Keeps.refl s)
  | perm => exact keeps_execPerm s (Keeps.refl s)
  | shuf => exact keeps_execShuf s (Keeps.refl s)
  | zip => exact keeps_execZip s (Keeps.refl s)
  | even => exact keeps_execEven s (Keeps.refl s)
  | odd => exact keeps_execOdd s (Keeps.refl s)
  | pack => exact keeps_execPack s (Keeps.refl s)
  | unpack => exact keeps_execUnpack s (Keeps.refl s)
  | ocw => exact keeps_execOcw s (Keeps.refl s)
  | cmprs => exact keeps_execCmprs s (Keeps.refl s)
  | expand => exact keeps_execExpand s (Keeps.refl s)
  | cnt => exact keeps_execCnt s (Keeps.refl s)
  | rng => exact keeps_execRng s (Keeps.refl s)
  | exp2 => exact keeps_execExp2 s (Keeps.refl s)
  | log2 => exact keeps_execLog2 s (Keeps.refl s)
  | rcp => exact keeps_execRcp s (Keeps.refl s)
  | rsqrt => exact keeps_execRsqrt s (Keeps.refl s)
  | sqrt => exact keeps_execSqrt s (Keeps.refl s)
  | tanh => exact keeps_execTanh s (Keeps.refl s)
  | sigm => exact keeps_execSigm s (Keeps.refl s)
  | erf => exact keeps_execErf s (Keeps.refl s)
  | utab => exact keeps_execUtab s (Keeps.refl s)
  | chainFlowStart => exact keeps_execChainFlowStart s (Keeps.refl s)
  | vecStep => exact keeps_execVecStep s (Keeps.refl s)
  | vecResultPush => exact keeps_execVecResultPush s (Keeps.refl s)
  | rsum => exact keeps_execRsum s (Keeps.refl s)
  | rsumsq => exact keeps_execRsumsq s (Keeps.refl s)
  | rmax => exact keeps_execRmax s (Keeps.refl s)
  | rmin => exact keeps_execRmin s (Keeps.refl s)
  | ramax => exact keeps_execRamax s (Keeps.refl s)
  | ramin => exact keeps_execRamin s (Keeps.refl s)
  | topk => exact keeps_execTopk s (Keeps.refl s)
  | botk => exact keeps_execBotk s (Keeps.refl s)
  | rstatMv => exact keeps_execRstatMv s (Keeps.refl s)
  | rstatMs => exact keeps_execRstatMs s (Keeps.refl s)
  | rstatLse => exact keeps_execRstatLse s (Keeps.refl s)
  | scadd => exact keeps_execScadd s (Keeps.refl s)
  | scmax => exact keeps_execScmax s (Keeps.refl s)
  | scmin => exact keeps_execScmin s (Keeps.refl s)
  | scmul => exact keeps_execScmul s (Keeps.refl s)
  | lrec => exact keeps_execLrec s (Keeps.refl s)
  | crset => exact keeps_execCrset s (Keeps.refl s)
  | crld => exact keeps_execCrld s (Keeps.refl s)
  | crst => exact keeps_execCrst s (Keeps.refl s)
  | crcomb => exact keeps_execCrcomb s (Keeps.refl s)
  | csend => exact keeps_execCsend s (Keeps.refl s)
  | rsuFlowStart => exact keeps_execRsuFlowStart s (Keeps.refl s)
  | rsuResultPush => exact keeps_execRsuResultPush s (Keeps.refl s)
  | statRecordWrite => exact keeps_execStatRecordWrite s (Keeps.refl s)
  | rd => exact keeps_execRd s (Keeps.refl s)
  | wr => exact keeps_execWr s (Keeps.refl s)
  | rdm => exact keeps_execRdm s (Keeps.refl s)
  | wrm => exact keeps_execWrm s (Keeps.refl s)
  | zero => exact keeps_execZero s (Keeps.refl s)
  | generatorLinePush g => exact keeps_execGeneratorLinePush g s (Keeps.refl s)
  | generatorLinePop g => exact keeps_execGeneratorLinePop g s (Keeps.refl s)
  | tin0 => exact keeps_execTin0 s (Keeps.refl s)
  | tin1 => exact keeps_execTin1 s (Keeps.refl s)
  | tinUnitEmit b => exact keeps_execTinUnitEmit b s (Keeps.refl s)
  | tpc0 => exact keeps_execTpc0 s (Keeps.refl s)
  | tpc1 => exact keeps_execTpc1 s (Keeps.refl s)
  | tpci0 => exact keeps_execTpci0 s (Keeps.refl s)
  | tpci1 => exact keeps_execTpci1 s (Keeps.refl s)
  | gath => exact keeps_execGath s (Keeps.refl s)
  | scst => exact keeps_execScst s (Keeps.refl s)
  | movScadd => exact keeps_execMovScadd s (Keeps.refl s)
  | gatherEntryStart => exact keeps_execGatherEntryStart s (Keeps.refl s)
  | acsv => exact keeps_execAcsv s (Keeps.refl s)
  | acrs => exact keeps_execAcrs s (Keeps.refl s)
  | put => exact keeps_execPut s (Keeps.refl s)
  | get => exact keeps_execGet s (Keeps.refl s)
  | getp => exact keeps_execGetp s (Keeps.refl s)
  | racc => exact keeps_execRacc s (Keeps.refl s)
  | rsend => exact keeps_execRsend s (Keeps.refl s)
  | rmaxs => exact keeps_execRmaxs s (Keeps.refl s)
  | patrolRead bank => exact keeps_execPatrolRead bank s (Keeps.refl s)
  | correctedWriteback row => exact keeps_execCorrectedWriteback row s (Keeps.refl s)
  | fset => exact keeps_execFset s (Keeps.refl s)
  | fadd => exact keeps_execFadd s (Keeps.refl s)
  | fwge => exact keeps_execFwge s (Keeps.refl s)
  | fweq => exact keeps_execFweq s (Keeps.refl s)
  | ftake => exact keeps_execFtake s (Keeps.refl s)
  | fence => exact keeps_execFence s (Keeps.refl s)
  | twge => exact keeps_execTwge s (Keeps.refl s)
  | tweq => exact keeps_execTweq s (Keeps.refl s)
  | ttake => exact keeps_execTtake s (Keeps.refl s)
  | rfadd => exact keeps_execRfadd s (Keeps.refl s)
  | flagWaitPass => exact keeps_execFlagWaitPass s (Keeps.refl s)
  | timedWaitExpiry => exact keeps_execTimedWaitExpiry s (Keeps.refl s)
  | timedWaitProceed => exact keeps_execTimedWaitProceed s (Keeps.refl s)
  | sclAdd => exact keeps_execSclAdd s (Keeps.refl s)
  | sclSub => exact keeps_execSclSub s (Keeps.refl s)
  | sclMul => exact keeps_execSclMul s (Keeps.refl s)
  | sclAnd => exact keeps_execSclAnd s (Keeps.refl s)
  | sclOr => exact keeps_execSclOr s (Keeps.refl s)
  | sclXor => exact keeps_execSclXor s (Keeps.refl s)
  | shl => exact keeps_execShl s (Keeps.refl s)
  | shr => exact keeps_execShr s (Keeps.refl s)
  | sra => exact keeps_execSra s (Keeps.refl s)
  | sclMin => exact keeps_execSclMin s (Keeps.refl s)
  | sclMax => exact keeps_execSclMax s (Keeps.refl s)
  | minu => exact keeps_execMinu s (Keeps.refl s)
  | maxu => exact keeps_execMaxu s (Keeps.refl s)
  | slt => exact keeps_execSlt s (Keeps.refl s)
  | sltu => exact keeps_execSltu s (Keeps.refl s)
  | addi => exact keeps_execAddi s (Keeps.refl s)
  | andi => exact keeps_execAndi s (Keeps.refl s)
  | ori => exact keeps_execOri s (Keeps.refl s)
  | xori => exact keeps_execXori s (Keeps.refl s)
  | shli => exact keeps_execShli s (Keeps.refl s)
  | shri => exact keeps_execShri s (Keeps.refl s)
  | srai => exact keeps_execSrai s (Keeps.refl s)
  | cmov => exact keeps_execCmov s (Keeps.refl s)
  | li => exact keeps_execLi s (Keeps.refl s)
  | lui => exact keeps_execLui s (Keeps.refl s)
  | divu => exact keeps_execDivu s (Keeps.refl s)
  | remu => exact keeps_execRemu s (Keeps.refl s)
  | drd => exact keeps_execDrd s (Keeps.refl s)
  | dwr => exact keeps_execDwr s (Keeps.refl s)
  | cpop => exact keeps_execCpop s (Keeps.refl s)
  | cpush => exact keeps_execCpush s (Keeps.refl s)
  | tcfg => exact keeps_execTcfg s (Keeps.refl s)
  | tcommit => exact keeps_execTcommit s (Keeps.refl s)
  | trd => exact keeps_execTrd s (Keeps.refl s)
  | jread => exact keeps_execJread s (Keeps.refl s)
  | sclComplete => exact keeps_execSclComplete s (Keeps.refl s)
  | holdEntry => exact keeps_execHoldEntry s (Keeps.refl s)
  | idleEntry => exact keeps_execIdleEntry s (Keeps.refl s)
  | imageInstallStart => exact keeps_execImageInstallStart s (Keeps.refl s)
  | installationComplete => exact keeps_execInstallationComplete s (Keeps.refl s)
  | ckptStopEntry => exact keeps_execCkptStopEntry s (Keeps.refl s)
  | selfTestComplete fail => exact keeps_execSelfTestComplete fail s (Keeps.refl s)
  | restoreComplete => exact keeps_execRestoreComplete s (Keeps.refl s)
  | beatOverrun => exact keeps_execBeatOverrun s (Keeps.refl s)
  | stallLimitReached => exact keeps_execStallLimitReached s (Keeps.refl s)
  | hello f => exact keeps_execHello f s (Keeps.refl s)
  | discover f => exact keeps_execDiscover f s (Keeps.refl s)
  | read f => exact keeps_execRead f s (Keeps.refl s)
  | write f => exact keeps_execWrite f s (Keeps.refl s)
  | claim f => exact keeps_execClaim f s (Keeps.refl s)
  | renew f => exact keeps_execRenew f s (Keeps.refl s)
  | release f => exact keeps_execRelease f s (Keeps.refl s)
  | wake f => exact keeps_execWake f s (Keeps.refl s)
  | alertAck f => exact keeps_execAlertAck f s (Keeps.refl s)
  | alert => exact keeps_execAlert s (Keeps.refl s)
  | event => exact keeps_execEvent s (Keeps.refl s)
  | sidebandCollision => exact keeps_execSidebandCollision s (Keeps.refl s)
  | sidebandBackoffExpiry => exact keeps_execSidebandBackoffExpiry s (Keeps.refl s)
  | leaseExpiry => exact keeps_execLeaseExpiry s (Keeps.refl s)
  | electionWindowClose => exact keeps_execElectionWindowClose s (Keeps.refl s)
  | handoverWindowExpiry => exact keeps_execHandoverWindowExpiry s (Keeps.refl s)
  | mgcWatchdogExpiry => exact keeps_execMgcWatchdogExpiry s (Keeps.refl s)
  | rstCmdCold r => exact keeps_execRstCmdCold r s (Keeps.refl s)
  | rstCmdWarm r => exact keeps_execRstCmdWarm r s (Keeps.refl s)
  | rstCmdData r => exact keeps_execRstCmdData r s (Keeps.refl s)
  | rstCmdEngine r eng => exact keeps_execRstCmdEngine r eng s (Keeps.refl s)
  | imgBegin r slot => exact keeps_execImgBegin r slot s (Keeps.refl s)
  | imgEnd r slot => exact keeps_execImgEnd r slot s (Keeps.refl s)
  | imgAbort r slot => exact keeps_execImgAbort r slot s (Keeps.refl s)
  | activate r slot => exact keeps_execActivate r slot s (Keeps.refl s)
  | imgWindow r w => exact keeps_execImgWindow r w s (Keeps.refl s)
  | imgHashWrite r slot idx w => exact keeps_execImgHashWrite r slot idx w s (Keeps.refl s)
  | imageCheckComplete => exact keeps_execImageCheckComplete s (Keeps.refl s)
  | patchBegin r => exact keeps_execPatchBegin r s (Keeps.refl s)
  | patchEnd r => exact keeps_execPatchEnd r s (Keeps.refl s)
  | patchApply r => exact keeps_execPatchApply r s (Keeps.refl s)
  | patchWindow r w => exact keeps_execPatchWindow r w s (Keeps.refl s)
  | patchCheckComplete => exact keeps_execPatchCheckComplete s (Keeps.refl s)
  | ownLock r => exact keeps_execOwnLock r s (Keeps.refl s)
  | eopenClear r => exact keeps_execEopenClear r s (Keeps.refl s)
  | ownHandover r succ => exact keeps_execOwnHandover r succ s (Keeps.refl s)
  | enrol r n w => exact keeps_execEnrol r n w s (Keeps.refl s)
  | dbgLock r => exact keeps_execDbgLock r s (Keeps.refl s)
  | errFirstClear r => exact keeps_execErrFirstClear r s (Keeps.refl s)
  | stallCtlWrite r w => exact keeps_execStallCtlWrite r w s (Keeps.refl s)
  | routeDataWrite r w => exact keeps_execRouteDataWrite r w s (Keeps.refl s)
  | routeDataRead r => exact keeps_execRouteDataRead r s (Keeps.refl s)
  | routeCopy r => exact keeps_execRouteCopy r s (Keeps.refl s)
  | routeCopyComplete => exact keeps_execRouteCopyComplete s (Keeps.refl s)
  | routeCommit r => exact keeps_execRouteCommit r s (Keeps.refl s)
  | cntClr r => exact keeps_execCntClr r s (Keeps.refl s)
  | cntLoRead r addr => exact keeps_execCntLoRead r addr s (Keeps.refl s)
  | enterShallows r => exact keeps_execEnterShallows r s (Keeps.refl s)
  | enterOff r => exact keeps_execEnterOff r s (Keeps.refl s)
  | watchWindow samples frame => exact keeps_execWatchWindow samples frame s (Keeps.refl s)
  | armCheck r w => exact keeps_execArmCheck r w s (Keeps.refl s)
  | armProbeTimeout => exact keeps_execArmProbeTimeout s (Keeps.refl s)
  | restoreLocal r w => exact keeps_execRestoreLocal r w s (Keeps.refl s)
  | restoreRemote r w => exact keeps_execRestoreRemote r w s (Keeps.refl s)
  | restoreHeld r w => exact keeps_execRestoreHeld r w s (Keeps.refl s)
  | lbist r queue => exact keeps_execLbist r queue s (Keeps.refl s)
  | bufferMbist r queue => exact keeps_execBufferMbist r queue s (Keeps.refl s)
  | poolMbist r queue => exact keeps_execPoolMbist r queue s (Keeps.refl s)
  | selfTestAll r queue => exact keeps_execSelfTestAll r queue s (Keeps.refl s)
  | pondHaltFall => exact keeps_execPondHaltFall s (Keeps.refl s)
  | debugResetRelease => exact keeps_execDebugResetRelease s (Keeps.refl s)

/-! ## A step -/

/-- What a step keeps of its state `s`, and that `rest` is what it leaves of the queue of commands. -/
structure KeepsButQueue (rest : List Instr) (s t : State) : Prop where
  cfg : t.cfg = s.cfg
  pending : t.pending = rest
  canonical : s.canonical = true → t.canonical = true
  fit : s.queuesFit = true → t.queuesFit = true

/-- A step on the state `s` whose queue of commands is `queue`. -/
def stepOn (queue : List Instr) (s : State) : Host.Outcome State Fault Refusal :=
  match queue with
  | [] => .next (tick s)
  | c :: cs => exec c { s with pending := cs }

theorem stepOn_keeps {s t : State} : ∀ queue, s.pending = queue → stepOn queue s = .next t → KeepsButQueue queue.tail s t
  | [], empty, h =>
    have kept : Keeps s t := (KeepsOut.next (keeps_tick (Keeps.refl s))).of t h
    ⟨kept.cfg, kept.pending.trans empty, kept.canonical, kept.fit⟩
  | c :: _, _, h =>
    have kept := (exec_keeps c _).of t h
    ⟨kept.cfg, kept.pending, kept.canonical, kept.fit⟩

/-- A step takes at most the command at the front of the queue, and keeps what every command and every clk keeps. -/
theorem step_keeps {s t : State} (h : step s = .next t) : KeepsButQueue s.pending.tail s t :=
  stepOn_keeps s.pending rfl h

/-- Settles O4: canonical form is part of what a step keeps (`step_keeps`). -/
theorem everyStepKeepsTheCanonicalForm : Obligations.EveryStepKeepsTheCanonicalForm := by
  unfold Obligations.EveryStepKeepsTheCanonicalForm
  exact fun s t canonical h => (step_keeps h).canonical canonical

/-- Settles O5: queues within eight entries, the licence parameters and the queue of commands are part of what a step keeps
(`step_keeps`). -/
theorem everyStepKeepsQueuesWithinEight : Obligations.EveryStepKeepsQueuesWithinEight := by
  unfold Obligations.EveryStepKeepsQueuesWithinEight
  exact fun s t h => ⟨(step_keeps h).fit, (step_keeps h).cfg, (step_keeps h).pending⟩

end Sys2Proof.StepKeeps
end

section
/-! PROOFS. The step and the reset state (12_management R407, 13_reset_and_power R433; O1, O3). -/

namespace Sys2Proof.StepAndReset

open Sys2Proof Sys2Proof.Machine Sys2Proof.Claims

/-- Settles O1: `step` runs the front command by definition. -/
theorem stepRunsFrontCommand : Obligations.StepRunsFrontCommand := fun _ _ _ => rfl

/-- Settles O3: each reset value by evaluation; a slot that nothing has reached reads what is stored. -/
theorem resetLeavesTheResetValues : Obligations.ResetLeavesTheResetValues :=
  ⟨by decide +kernel, fun _ => rfl, by decide +kernel, fun _ _ => rfl, scaleGet_quiet rfl, fun _ => rfl, rfl, rfl, rfl, rfl, rfl⟩

end Sys2Proof.StepAndReset
end

section
/-! PROOFS. The temperatures and their thresholds (01_boundary R49, 13_reset_and_power R437; O29). -/

namespace Sys2Proof.Temperatures

open Sys2Proof Sys2Proof.Machine Sys2Proof.Claims

/-- R437: the thresholds of a core whose trim load has committed, or the safe defaults. -/
theorem thermLimits_eq (s : State) : thermLimits s =
    if s.trim.committed = true ∧ s.trim.state ≠ 3 then (1600, 1520, 1840, 1760) else (1440, 1360, 1680, 1600) := by
  by_cases h : s.trim.committed = true ∧ s.trim.state ≠ 3
  · exact (if_neg (ne_true_of_eq_false (Bool.or_eq_false_iff.mpr ⟨congrArg not h.1, beq_eq_false_iff_ne.mpr h.2⟩))).trans
      (if_pos h).symm
  · exact (if_pos (Bool.or_eq_true_iff.mpr ((not_and_or.mp h).imp (fun c => congrArg not (Bool.eq_false_of_not_eq_true c))
      fun c => beq_iff_eq.mpr (not_not.mp c)))).trans (if_neg h).symm

/-- R49: a trip faults for each tier at or above its threshold. -/
def tripped (logic sram a b : Int) (m : State) : State :=
  let t := if logic ≥ a then raise 0xA2 (FaultCtx.args 0 (toCode 16 logic)) m else m
  if sram ≥ b then raise 0xA2 (FaultCtx.args 1 (toCode 16 sram)) t else t

/-- The state that keeps the temperatures, with the thresholds lim. -/
def measured (logic sram : Int) (s : State) (lim : Int × Int × Int × Int) : State :=
  { s with
    st := { s.st with tempLogic := BitVec.ofNat 16 (toCode 16 logic), tempSram := BitVec.ofNat 16 (toCode 16 sram) }
    out := { s.out with thermWarn := decide (lim.1 ≤ logic) || decide (lim.2.1 ≤ sram) } }

theorem takeTemps_eq (logic sram : Int) (s : State) : takeTemps logic sram s = measured logic sram s
    (if s.trim.committed = true ∧ s.trim.state ≠ 3 then (1600, 1520, 1840, 1760) else (1440, 1360, 1680, 1600)) :=
  congrArg (measured logic sram s) (thermLimits_eq s)

theorem thermalTrip_eq (logic sram : Int) (s : State) : exec (.thermalTrip logic sram) s = .next
    ((fun lim : Int × Int × Int × Int => tripped logic sram lim.2.2.1 lim.2.2.2 (measured logic sram s lim))
      (if s.trim.committed = true ∧ s.trim.state ≠ 3 then (1600, 1520, 1840, 1760) else (1440, 1360, 1680, 1600))) :=
  congrArg (fun lim : Int × Int × Int × Int =>
    Host.Outcome.next (tripped logic sram lim.2.2.1 lim.2.2.2 (measured logic sram s lim))) (thermLimits_eq s)

/-- Settles O29: `takeTemps` keeps the temperatures, and each tier is compared with its threshold (`tripped`). -/
theorem temperaturesWarnAndTrip : Obligations.TemperaturesWarnAndTrip := by
  intro s logic sram lim m onLogic
  exact ⟨congrArg _ (takeTemps_eq logic sram s),
    fun a b => (thermalTrip_eq logic sram s).trans (congrArg _ ((if_neg (Int.not_le.mpr b)).trans (if_pos a))),
    fun a b => (thermalTrip_eq logic sram s).trans (congrArg _ ((if_pos b).trans
      (congrArg (raise 0xA2 (FaultCtx.args 1 (toCode 16 sram))) (if_neg (Int.not_le.mpr a))))),
    fun a b => (thermalTrip_eq logic sram s).trans (congrArg _ ((if_pos b).trans
      (congrArg (raise 0xA2 (FaultCtx.args 1 (toCode 16 sram))) (if_pos a)))),
    fun a b => (thermalTrip_eq logic sram s).trans (congrArg _ ((if_neg (Int.not_le.mpr b)).trans (if_neg (Int.not_le.mpr a))))⟩

end Sys2Proof.Temperatures
end

section
/-! PROOFS. Adds to flags from the fabric (10_flags_and_beat R323, R324; O20). -/

namespace Sys2Proof.FlagAdds

open Sys2Proof Sys2Proof.Machine Sys2Proof.Claims

/-- Adds 1 to flag 0, as channel 0 does. -/
def firstAdd : FlagAdd := ⟨0, 1, none, 0, false, 1⟩

/-- Adds 1 to flag 0, as channel 1 does. -/
def secondAdd : FlagAdd := ⟨0, 1, none, 0, false, 2⟩

/-- Two adds to flag 0 wait. The store of wrong bits of flag words lists word 0 twice, first as free of wrong bits: a form that
`State.canonical` does not exclude, because it does not speak of that store. -/
def twiceListed : State :=
  { State.reset with
    fab := { State.reset.fab with adds := [firstAdd, secondAdd] }
    flagUpset := [(0, 0), (0, 2)] }

theorem twiceListed_canonical : twiceListed.canonical = true := by decide +kernel

/-- The first add removes the first listing, so the second add reads a word with two wrong bits and the core resets (R322). -/
theorem twiceListed_flag : flagGet (landAdds twiceListed) 0 = 0 := by decide +kernel

/-- Refutes O20: its last clause asks that the adds of two packets to one flag both land where the flag's word reads as free of
wrong bits, in every state. In `twiceListed` the word's store of wrong bits is not in canonical form, and the second add meets
the word's other listing. -/
theorem not_faddAndCarryPacketsAdd : ¬ Obligations.FaddAndCarryPacketsAdd := by
  unfold Obligations.FaddAndCarryPacketsAdd
  rintro ⟨-, -, -, -, both⟩
  obtain ⟨sum, -⟩ := both twiceListed firstAdd secondAdd (.inl rfl) (by decide) (by decide) rfl twiceListed_canonical rfl
    (by decide +kernel) (by decide +kernel)
  rw [show firstAdd.flag = 0 from rfl, twiceListed_flag] at sum
  exact absurd sum (by decide +kernel)

end Sys2Proof.FlagAdds
end

section
/-! PROOFS. Replies to requests (11_fabric_and_reduction R357, R358; O22). -/

namespace Sys2Proof.Replies

open Sys2Proof Sys2Proof.Machine Sys2Proof.Claims

/-- A GETP waits for its packet 1, and the word that the four bytes of the reply cover in part has one wrong bit (R276). -/
def oneWrongBit : State := { Tests.requesting with pool := { Tests.requesting.pool with upset := [(96, 1)] } }

/-- The reply. -/
def reply : Pkt := Tests.pkt 3 1 0 0 0 0 [1, 2, 3, 4]

/-- The words corrected so far, after a packet. -/
def correctedAfter (c : Instr) (s : State) : Nat :=
  match exec c s with
  | .next t => t.err.poolCe
  | _ => 0

theorem correctedAfter_of_answers {c : Instr} {s t : State} (h : Answers c s t) : correctedAfter c s = t.err.poolCe := by
  rw [correctedAfter, h]

/-- The write reads the word that it covers in part, and the correction is counted (R277, R278). -/
theorem reply_counts_correction : correctedAfter (.getrPacket reply) oneWrongBit = 1 := by decide +kernel

theorem exists_first_sixth {α : Type} {a b c d e f g : α → Prop} (h : ∃ t, a t ∧ b t ∧ c t ∧ d t ∧ e t ∧ f t ∧ g t) :
    ∃ t, a t ∧ f t :=
  h.imp fun _ k => ⟨k.1, k.2.2.2.2.2.1⟩

/-- What the statement says of the error block after a GETR has been written. -/
theorem writes_err (holds : Obligations.RepliesMeetTheirRequests) (p : Pkt) (s : State) (o : Outst) (f : FabOp) (typ : p.typ = 3)
    (accepted : Accepted p s) (canon : s.canonical = true)
    (request : (s.fab.outst.find? fun o => o.tagx == p.tagx && (o.typ == 2)) = some o) (owner : o.owner = 0)
    (len : o.len = p.plen) (op : (s.mov.fab.find? fun f => f.e.id == o.id) = some f) (getp : f.e.op = 0x2A)
    (all : ∀ x ∈ s.mov.fab, x.e.id = o.id → x.e.op = 0x2A) (writable : Writable s (f.e.d.fld 5 23 0 + 256 * o.index) p.plen) :
    ∃ t, Answers (.getrPacket p) s t ∧ t.err = s.err :=
  exists_first_sixth (holds.1 p s o f typ accepted canon request owner len op getp all writable)

/-- Refutes O22: its first clause asks that nothing of the error block differs after a GETR has been written, also where the bytes
cover in part a word with a correctable error. In `oneWrongBit` the write corrects and counts such a word. -/
theorem not_repliesMeetTheirRequests : ¬ Obligations.RepliesMeetTheirRequests := fun holds =>
  (writes_err holds reply oneWrongBit ⟨9, 2, 0, 5, 1, 4⟩ (mkFabOp (Tests.ent 0x2A ⟨0, 0, 0, 0, 0, 512, 0, 0⟩) 2048 1)
    (by decide +kernel) (Tests.taken_accepted (by decide +kernel)) (by decide +kernel) (by decide +kernel) rfl (by decide +kernel)
    (by decide +kernel) rfl (by decide +kernel) (by decide +kernel)).elim fun _ h =>
      absurd (reply_counts_correction.symm.trans ((correctedAfter_of_answers h.1).trans (congrArg Err.poolCe h.2)))
        (by decide +kernel)

end Sys2Proof.Replies
end

section
/-! PROOFS. Scalar results that land (03_program R118, R122; O42). -/

namespace Sys2Proof.ScalarResults

open Sys2Proof Sys2Proof.Machine Sys2Proof.Claims

/-- A word of descriptor 0 of class 0 is due to land. The store of wrong bits of descriptors lists that descriptor twice, first as
free of wrong bits: a form that `State.canonical` does not exclude, because it does not speak of that store. -/
def twiceListed : State :=
  { Tests.at10 with
    scl := { Tests.at10.scl with fly := [⟨Tests.ent 0x21, 0, .desc 0 0 0 0⟩] }
    descUpset := [(0, 0), (0, 2)] }

/-- The wrong bits of descriptor 0 of class 0 after a command. -/
def wrongBitsAfter (c : Instr) (s : State) : Nat :=
  match exec c s with
  | .next t => mget 0 t.descUpset 0
  | _ => 0

theorem wrongBitsAfter_of_answers {c : Instr} {s t : State} (h : Answers c s t) : wrongBitsAfter c s = mget 0 t.descUpset 0 := by
  rw [wrongBitsAfter, h]

/-- The write takes away the first listing of the descriptor, and the other one shows. -/
theorem twiceListed_wrongBits : wrongBitsAfter .sclComplete twiceListed = 2 := by decide +kernel

theorem exists_first_fifth {α : Type} {a b c d e f : α → Prop} (h : ∃ t, a t ∧ b t ∧ c t ∧ d t ∧ e t ∧ f t) :
    ∃ t, a t ∧ e t :=
  h.imp fun _ k => ⟨k.1, k.2.2.2.2.1⟩

/-- What the statement says of a descriptor whose word lands. -/
theorem lands_desc (lands : Obligations.ScalarResultsLand) (s : State) (f : SclFly) (fly : s.scl.fly = [f])
    (eng : engOk s 6 = true) (canon : s.canonical = true) (due : f.due ≤ s.clock.ek)
    (clean : ∀ cls n wd v, f.res = .desc cls n wd v → mget 0 s.descUpset (cls * 64 + n) = 0) :
    ∃ t, Answers .sclComplete s t ∧ ∀ cls n wd v, f.res = .desc cls n wd v → descGet t cls n = (descGet s cls n).set wd v ∧
      mget 0 t.descUpset (cls * 64 + n) = 0 ∧
      ∀ cls' n', cls' * 64 + n' ≠ cls * 64 + n → descGet t cls' n' = descGet s cls' n' :=
  exists_first_fifth ((lands s f fly eng canon).2 due clean)

/-- A descriptor's key in the store of wrong bits, from the result that writes one of its words. -/
def keyOf (r : SclRes) : Nat := ((resDescs r).headD (0, 0)).1 * 64 + ((resDescs r).headD (0, 0)).2

/-- Refutes O42: its clause on a descriptor's word asks that the descriptor is free of wrong bits after the word has landed, in
every state in which it read so before. In `twiceListed` the store of wrong bits is not in canonical form, and the landing
uncovers the descriptor's other listing. -/
theorem not_scalarResultsLand : ¬ Obligations.ScalarResultsLand := fun lands =>
  (lands_desc lands twiceListed _ rfl (by decide) (by decide +kernel) (by decide)
    fun _ _ _ _ h => (congrArg (fun r => mget 0 twiceListed.descUpset (keyOf r)) h.symm :)).elim fun _ h =>
    absurd (twiceListed_wrongBits.symm.trans ((wrongBitsAfter_of_answers h.1).trans (h.2 0 0 0 0 rfl).2.1)) (by decide)

end Sys2Proof.ScalarResults
end

section
/-! PROOFS. The head of a slot's queue that may start (03_program R100). -/

namespace Sys2Proof.Starts

open Sys2Proof Sys2Proof.Machine Sys2Proof.Claims

theorem dequeue_eq_left {s : State} {slot : Nat} {e : Entry} {es : List Entry} (h : getQ s slot = e :: es) :
    dequeue slot s = left slot es s :=
  (congrArg (fun l => left slot l.tail s) h :)

theorem headFor_of_startable {s : State} {slot op : Nat} {e : Entry} {es : List Entry} (h : Startable s slot e es)
    (eq : e.op = op) : headFor s slot op = some e :=
  headFor_eq h.queue h.engine h.first eq h.later h.free

theorem left_clock (slot : Nat) (es : List Entry) (s : State) : (left slot es s).clock = s.clock :=
  (bump_clock _ _ _).trans (setQ_clock _ _ _)

end Sys2Proof.Starts
end

section
/-! PROOFS. Starts of the reduction and scan unit (08_reduction_scan R272, R274; O38). -/

namespace Sys2Proof.RsuStarts

open Sys2Proof Sys2Proof.Machine Sys2Proof.Claims Sys2Proof.Starts

/-! ## The state that a start meets -/

theorem left_rsu (slot : Nat) (es : List Entry) (s : State) : (left slot es s).rsu = s.rsu :=
  (bump_rsu _ _ _).trans (setQ_rsu _ _ _)

/-- The queue, the unit and the clk are those before the count was popped. -/
structure SameUnit (s u : State) : Prop where
  queue : getQ u 3 = getQ s 3
  unit : u.rsu = s.rsu
  clk : u.clock.ek = s.clock.ek

theorem sameUnit_of_popped {s u : State} (h : Popped s u) : SameUnit s u :=
  ⟨(congrArg (fun v => getQ v 3) h.eq :), (congrArg State.rsu h.eq :), (congrArg (fun v => v.clock.ek) h.eq :)⟩

/-! ## A start -/

/-- The instruction waits for its flow. -/
def waiting (r : RsuState) (ek : Nat) (e : Entry) (len : Nat) (s : State) : State :=
  { s with rsu := { r with started := r.started ++ [(e, len, ek)] } }

/-- The start of an instruction of length len that has left the queue. -/
def settle (e : Entry) (len : Nat) (s : State) : State :=
  if len > e.rLen || !rsuStartOk s e len then descBound 3 e s else waiting s.rsu s.clock.ek e len s

theorem startedRsu_eq_settle {s u : State} {e : Entry} {es : List Entry} (n : Nat) (h : Startable s 3 e es) (k : SameUnit s u) :
    startedRsu e n u = settle e n (left 3 es u) :=
  congrArg (settle e n) (dequeue_eq_left (k.queue.trans h.queue))

/-- R272: the start checks pass. -/
theorem startedRsu_waiting {s u : State} {e : Entry} {es : List Entry} {n : Nat} (h : Startable s 3 e es) (k : SameUnit s u)
    (len : n ≤ e.rLen) (ok : rsuStartOk (left 3 es u) e n = true) :
    startedRsu e n u = waiting s.rsu s.clock.ek e n (left 3 es u) :=
  (startedRsu_eq_settle n h k).trans <|
    (if_neg (ne_true_of_eq_false (Bool.or_eq_false_iff.mpr
      ⟨decide_eq_false (Nat.not_lt.mpr len), congrArg not ok⟩))).trans <|
    congrArg₂ (fun r c => waiting r c e n (left 3 es u)) ((left_rsu 3 es u).trans k.unit)
      ((congrArg Clocks.ek (left_clock 3 es u)).trans k.clk)

/-- R274: a start check fails. -/
theorem startedRsu_descBound {s u : State} {e : Entry} {es : List Entry} {n : Nat} (h : Startable s 3 e es) (k : SameUnit s u)
    (bad : e.rLen < n ∨ rsuStartOk (left 3 es u) e n = false) : startedRsu e n u = descBound 3 e (left 3 es u) :=
  (startedRsu_eq_settle n h k).trans <|
    if_pos (Bool.or_eq_true_iff.mpr (bad.imp decide_eq_true (congrArg not)))

/-! ## Every instruction of the unit -/

/-- The instructions of the unit and their opcodes (R259). -/
def rows : List (Instr × Nat) :=
  [(Instr.rsum, 0x01), (.rsumsq, 0x02), (.rmax, 0x03), (.rmin, 0x04), (.ramax, 0x05), (.ramin, 0x06), (.topk, 0x08),
    (.botk, 0x09), (.rstatMv, 0x10), (.rstatMs, 0x11), (.rstatLse, 0x12), (.scadd, 0x18), (.scmax, 0x19), (.scmin, 0x1A),
    (.scmul, 0x1B), (.lrec, 0x1C), (.crset, 0x28), (.crld, 0x29), (.crst, 0x2A), (.crcomb, 0x2B), (.csend, 0x2C)]

theorem exec_rows : ∀ x ∈ rows, exec x.1 = fun s => .next (startRsu x.2 s) :=
  List.map_inj_left.mp (rfl : rows.map (fun x => exec x.1) = rows.map fun x s => .next (startRsu x.2 s))

/-- The start of an instruction whose length is the count popped. -/
def startCounted (e : Entry) (s : State) : Option (List Line × State) → State
  | none => s
  | some (ls, t) => startedRsu e ((ls.map (·.data)).headD 0 % 2 ^ 32) t

/-- The start by the head of the queue, the body of `startRsu`. -/
def startHead (s : State) : Option Entry → State
  | none => s
  | some e =>
    if wbit e.d.w1 31 then startCounted e s (chTake (e.d.fld 1 30 25) 4 1 s) else startedRsu e e.rLen s

theorem exec_start {s t : State} {c : Instr} {op : Nat} {e : Entry} {es : List Entry} (mem : (c, op) ∈ rows)
    (h : Startable s 3 e es) (eq : e.op = op) (k : startHead s (some e) = t) : exec c s = .next t :=
  (congrFun (exec_rows _ mem) s).trans (congrArg _ ((congrArg (startHead s) (headFor_of_startable h eq)).trans k))

theorem startHead_len {s : State} {e : Entry} (h : wbit e.d.w1 31 = false) :
    startHead s (some e) = startedRsu e e.rLen s :=
  if_neg (ne_true_of_eq_false h)

theorem startHead_count {s : State} {e : Entry} {p : Option (List Line × State)} (h : wbit e.d.w1 31 = true)
    (k : chTake (e.d.fld 1 30 25) 4 1 s = p) : startHead s (some e) = startCounted e s p :=
  (if_pos h).trans (congrArg (startCounted e s) k)

/-- Settles O38, by the two lengths that an instruction can have (`startHead_len`, `startHead_count`) and its start checks. -/
theorem rsuInstructionsStart : Obligations.RsuInstructionsStart := fun s _ _ e es mem h eq =>
  ⟨fun b ok => exec_start mem h eq ((startHead_len b).trans (startedRsu_waiting h ⟨rfl, rfl, rfl⟩ le_rfl ok)),
   fun b bad => exec_start mem h eq ((startHead_len b).trans (startedRsu_descBound h ⟨rfl, rfl, rfl⟩ (.inr bad))),
   by
    intro ls u b k n
    exact ⟨fun len ok => exec_start mem h eq ((startHead_count b k).trans
        (startedRsu_waiting h (sameUnit_of_popped (chTake_spec k)) len ok)),
      fun bad => exec_start mem h eq ((startHead_count b k).trans
        (startedRsu_descBound h (sameUnit_of_popped (chTake_spec k)) bad))⟩,
   fun b k => exec_start mem h eq (startHead_count b k)⟩

end Sys2Proof.RsuStarts
end

section
/-! PROOFS. Starts of the vector engine (07_vector R236, R250, R252; O35). -/

namespace Sys2Proof.VectorStarts

open Sys2Proof Sys2Proof.Machine Sys2Proof.Claims Sys2Proof.Starts

theorem left_vec (slot : Nat) (es : List Entry) (s : State) : (left slot es s).vec = s.vec :=
  (bump_vec _ _ _).trans (setQ_vec _ _ _)

/-- The queue, the engine and the clk are those before the count was popped. -/
structure SameEngine (s u : State) : Prop where
  queue : getQ u 2 = getQ s 2
  engine : u.vec = s.vec
  clk : u.clock.ek = s.clock.ek

theorem sameEngine_of_popped {s u : State} (h : Popped s u) : SameEngine s u :=
  ⟨(congrArg (fun v => getQ v 2) h.eq :), (congrArg State.vec h.eq :), (congrArg (fun v => v.clock.ek) h.eq :)⟩

/-! ## A start -/

/-- The instruction waits in its chain. -/
def waiting (r : VecState) (ek : Nat) (e : Entry) (len : Nat) (s : State) : State :=
  { s with vec := { r with started := r.started ++ [⟨e, len, .init, .init, .init, .init, 0, ek⟩] } }

/-- The start of an instruction of length len that has left the queue. -/
def settle (e : Entry) (len : Nat) (s : State) : State :=
  if len > e.vLen || !vecStartOk s e len then descBound 2 e s else waiting s.vec s.clock.ek e len s

theorem startMember_eq_settle {s u : State} {e : Entry} {es : List Entry} (n : Nat) (h : Startable s 2 e es) (k : SameEngine s u) :
    startMember e n u = settle e n (left 2 es u) :=
  congrArg (settle e n) (dequeue_eq_left (k.queue.trans h.queue))

/-- R250: the start checks pass. -/
theorem startMember_waiting {s u : State} {e : Entry} {es : List Entry} {n : Nat} (h : Startable s 2 e es) (k : SameEngine s u)
    (len : n ≤ e.vLen) (ok : vecStartOk (left 2 es u) e n = true) :
    startMember e n u = waiting s.vec s.clock.ek e n (left 2 es u) :=
  (startMember_eq_settle n h k).trans <|
    (if_neg (ne_true_of_eq_false (Bool.or_eq_false_iff.mpr
      ⟨decide_eq_false (Nat.not_lt.mpr len), congrArg not ok⟩))).trans <|
    congrArg₂ (fun r c => waiting r c e n (left 2 es u)) ((left_vec 2 es u).trans k.engine)
      ((congrArg Clocks.ek (left_clock 2 es u)).trans k.clk)

/-- R252: a start check fails. -/
theorem startMember_descBound {s u : State} {e : Entry} {es : List Entry} {n : Nat} (h : Startable s 2 e es) (k : SameEngine s u)
    (bad : e.vLen < n ∨ vecStartOk (left 2 es u) e n = false) : startMember e n u = descBound 2 e (left 2 es u) :=
  (startMember_eq_settle n h k).trans <|
    if_pos (Bool.or_eq_true_iff.mpr (bad.imp decide_eq_true (congrArg not)))

/-! ## Every instruction of the engine -/

/-- The instructions of the engine and their opcodes (R228). -/
def rows : List (Instr × Nat) :=
  [(Instr.vecAdd, 0x01), (.vecSub, 0x02), (.vecMul, 0x03), (.fma, 0x04), (.fms, 0x05), (.fnma, 0x06), (.mul3, 0x07),
    (.abs, 0x08), (.neg, 0x09), (.vecMin, 0x0A), (.vecMax, 0x0B), (.clamp, 0x0C), (.sqd, 0x0D), (.cmp, 0x0E), (.sel, 0x0F),
    (.vecAnd, 0x10), (.vecOr, 0x11), (.vecXor, 0x12), (.mand, 0x13), (.mor, 0x14), (.mnot, 0x15), (.cvt, 0x18),
    (.perm, 0x19), (.shuf, 0x1A), (.zip, 0x1B), (.even, 0x1C), (.odd, 0x1D), (.pack, 0x1E), (.unpack, 0x1F), (.ocw, 0x20),
    (.cmprs, 0x28), (.expand, 0x29), (.cnt, 0x2A), (.rng, 0x2B), (.exp2, 0x30), (.log2, 0x31), (.rcp, 0x32),
    (.rsqrt, 0x33), (.sqrt, 0x34), (.tanh, 0x35), (.sigm, 0x36), (.erf, 0x37), (.utab, 0x38)]

theorem exec_rows : ∀ x ∈ rows, exec x.1 = fun s => .next (startVec x.2 s) :=
  List.map_inj_left.mp (rfl : rows.map (fun x => exec x.1) = rows.map fun x s => .next (startVec x.2 s))

/-- The start of an instruction whose length is the count popped. -/
def startCounted (e : Entry) (s : State) : Option (List Line × State) → State
  | none => s
  | some (ls, t) => startMember e ((ls.map (·.data)).headD 0 % 2 ^ 32) t

/-- The start of an instruction whose chain has issued its closing member. -/
def startIssued (e : Entry) (s : State) : State :=
  if wbit e.d.w1 31 then startCounted e s (chTake (e.d.fld 1 30 25) 3 1 s) else startMember e e.vLen s

/-- The start by the head of the queue, the body of `startVec`. -/
def startHead (s : State) : Option Entry → State
  | none => s
  | some e => if !chainIssued s then s else startIssued e s

theorem exec_start {s t : State} {c : Instr} {op : Nat} {e : Entry} {es : List Entry} (mem : (c, op) ∈ rows)
    (h : Startable s 2 e es) (eq : e.op = op) (k : startHead s (some e) = t) : exec c s = .next t :=
  (congrFun (exec_rows _ mem) s).trans (congrArg _ ((congrArg (startHead s) (headFor_of_startable h eq)).trans k))

theorem startHead_issued {s : State} {e : Entry} (i : chainIssued s = true) : startHead s (some e) = startIssued e s :=
  if_neg (ne_true_of_eq_false (congrArg not i))

theorem startHead_len {s : State} {e : Entry} (i : chainIssued s = true) (h : wbit e.d.w1 31 = false) :
    startHead s (some e) = startMember e e.vLen s :=
  (startHead_issued i).trans (if_neg (ne_true_of_eq_false h))

theorem startHead_count {s : State} {e : Entry} {p : Option (List Line × State)} (i : chainIssued s = true)
    (h : wbit e.d.w1 31 = true) (k : chTake (e.d.fld 1 30 25) 3 1 s = p) : startHead s (some e) = startCounted e s p :=
  (startHead_issued i).trans ((if_pos h).trans (congrArg (startCounted e s) k))

/-- Settles O35, by the two lengths that an instruction can have (`startHead_len`, `startHead_count`) and its start checks. -/
theorem vectorInstructionsStart : Obligations.VectorInstructionsStart := fun s _ _ e es mem h eq =>
  ⟨fun i => exec_start mem h eq (if_pos (congrArg not i)),
   fun i =>
    ⟨fun b ok => exec_start mem h eq ((startHead_len i b).trans (startMember_waiting h ⟨rfl, rfl, rfl⟩ le_rfl ok)),
     fun b bad => exec_start mem h eq ((startHead_len i b).trans (startMember_descBound h ⟨rfl, rfl, rfl⟩ (.inr bad))),
     by
      intro ls u b k n
      exact ⟨fun len ok => exec_start mem h eq ((startHead_count i b k).trans
          (startMember_waiting h (sameEngine_of_popped (chTake_spec k)) len ok)),
        fun bad => exec_start mem h eq ((startHead_count i b k).trans
          (startMember_descBound h (sameEngine_of_popped (chTake_spec k)) bad))⟩,
     fun b k => exec_start mem h eq (startHead_count i b k)⟩⟩

end Sys2Proof.VectorStarts
end

section
/-! PROOFS. Array controls, the activity level, and the swap of a tile (05_arrays R166, R168, R179 to R183; O33). -/

namespace Sys2Proof.ArrayTiles

open Sys2Proof Sys2Proof.Machine Sys2Proof.Claims Sys2Proof.Starts

/-! ## The array of a slot -/

theorem setArr_getArr (a : Arr) (s : State) : setArr a (getArr s a) s = s := by cases a <;> rfl

theorem left_getArr (slot : Nat) (es : List Entry) (s : State) (a : Arr) : getArr (left slot es s) a = getArr s a := by
  cases a
  · exact (bump_mxa _ _ _).trans (setQ_mxa _ _ _)
  · exact (bump_mxb _ _ _).trans (setQ_mxb _ _ _)

theorem arrFree_of {s : State} {a : Arr} (run : (getArr s a).run = none) (step : (getArr s a).lastStep ≠ some s.clock.clk) :
    arrFree s a = true :=
  Bool.and_eq_true_iff.mpr ⟨congrArg Option.isNone run, bne_iff_ne.mpr step⟩

/-! ## Controls -/

/-- The start of a control by the head of its queue, the body of `startQuick`. -/
def quickHead (a : Arr) (f : ArrState → ArrState) (s : State) : Option Entry → State
  | none => s
  | some e =>
    if arrFree s a then complete e.id (setArr a (f (getArr (dequeue (Arr.slot a) s) a)) (dequeue (Arr.slot a) s)) else s

/-- R183, R330: a control starts and completes. -/
theorem startQuick_eq {s : State} {a : Arr} {e : Entry} {es : List Entry} {op : Nat} (f : ArrState → ArrState)
    (h : Startable s (Arr.slot a) e es) (run : (getArr s a).run = none) (step : (getArr s a).lastStep ≠ some s.clock.clk)
    (eq : e.op = op) :
    startQuick a op f s = complete e.id (setArr a (f (getArr s a)) (left (Arr.slot a) es s)) :=
  (congrArg (quickHead a f s) (headFor_of_startable h eq)).trans <|
    (if_pos (arrFree_of run step)).trans <|
    (congrArg (fun t => complete e.id (setArr a (f (getArr t a)) t)) (dequeue_eq_left h.queue)).trans
      (congrArg (fun x => complete e.id (setArr a (f x) (left (Arr.slot a) es s))) (left_getArr _ es s a))

/-- DISCARD's effect on its array. -/
def dropTile (x : ArrState) : ArrState := if x.swap.isSome then x else { x with acc := [], isOpen := false }

theorem dropTile_open {x : ArrState} (h : x.swap = none) : dropTile x = { x with acc := [], isOpen := false } :=
  if_neg (by rw [h]; exact Bool.false_ne_true)

theorem dropTile_closed {x : ArrState} (h : x.swap ≠ none) : dropTile x = x := if_pos (Option.isSome_iff_ne_none.mpr h)

/-! ## The swap -/

/-- The tile that DRAIN drains: +0 where none is open. -/
def drainedAcc (s : State) (a : Arr) : List Word :=
  if (getArr s a).isOpen then (getArr s a).acc else List.replicate (tileM s * tileN s) 0

theorem getArr_swapTile (a : Arr) (e : Entry) (acc : List Word) (s : State) : getArr (swapTile a e acc s) a =
    { getArr s a with swap := none, shadow := some (mkTile s e acc), acc := [], isOpen := false } := by
  cases a <;> rfl

theorem swapTile_q (a : Arr) (e : Entry) (acc : List Word) (s : State) : (swapTile a e acc s).q = s.q := by cases a <;> rfl

theorem swapTile_live (a : Arr) (e : Entry) (acc : List Word) (s : State) : (swapTile a e acc s).live = s.live := by
  cases a <;> rfl

theorem storesKept_swapTile {s u : State} (a : Arr) (e : Entry) (acc : List Word) (k : StoresKept s u) :
    StoresKept s (swapTile a e acc u) := by
  cases a <;>
    exact ⟨k.pool, k.ocache, k.sregs, k.descs, k.scales, k.flags, k.crs, k.chans, k.scaleNow⟩

theorem controlKept_swapTile {s u : State} (a : Arr) (e : Entry) (acc : List Word) (k : ControlKept s u) :
    ControlKept s (swapTile a e acc u) := by
  cases a <;> exact ⟨k.cfg, k.pins, k.own, k.img, k.job, k.ckpt, k.rst, k.trim⟩

theorem storesKept_left (slot : Nat) (es : List Entry) (s : State) : StoresKept s (left slot es s) :=
  ⟨(bump_pool _ _ _).trans (setQ_pool _ _ _), (bump_ocache _ _ _).trans (setQ_ocache _ _ _),
    (bump_sregs _ _ _).trans (setQ_sregs _ _ _), (bump_descs _ _ _).trans (setQ_descs _ _ _),
    (bump_scales _ _ _).trans (setQ_scales _ _ _), (bump_flags _ _ _).trans (setQ_flags _ _ _),
    (bump_crs _ _ _).trans (setQ_crs _ _ _), (bump_chans _ _ _).trans (setQ_chans _ _ _),
    (bump_scaleNow _ _ _).trans (setQ_scaleNow _ _ _)⟩

theorem controlKept_left (slot : Nat) (es : List Entry) (s : State) : ControlKept s (left slot es s) := by
  have img := (bump_img (0x010 + slot) 1 (setQ slot es s)).trans (setQ_img _ _ _)
  exact ⟨(bump_cfg _ _ _).trans (setQ_cfg _ _ _), (bump_pins _ _ _).trans (setQ_pins _ _ _),
    (bump_own _ _ _).trans (setQ_own _ _ _), ⟨congrArg Img.a img, congrArg Img.b img, congrArg Img.cur img⟩,
    (bump_job _ _ _).trans (setQ_job _ _ _), (bump_ckpt _ _ _).trans (setQ_ckpt _ _ _),
    (bump_rst _ _ _).trans (setQ_rst _ _ _), (bump_trim _ _ _).trans (setQ_trim _ _ _)⟩

/-- DRAIN by the head of its queue: it swaps at its start. -/
def drainHead (a : Arr) (s : State) : Option Entry → Host.Outcome State Fault Refusal
  | none => .next s
  | some e =>
    if arrFree s a && (getArr s a).swap.isNone && (getArr s a).shadow.isNone then
      .next (swapTile a e (drainedAcc s a) (dequeue (Arr.slot a) s))
    else .next s

theorem exec_drain {s : State} {a : Arr} {e : Entry} {es : List Entry} (h : Startable s (Arr.slot a) e es)
    (run : (getArr s a).run = none) (step : (getArr s a).lastStep ≠ some s.clock.clk) (eq : e.op = 0x18)
    (swap : (getArr s a).swap = none) (shadow : (getArr s a).shadow = none) :
    exec (.drain a) s = .next (swapTile a e (drainedAcc s a) (left (Arr.slot a) es s)) :=
  (congrArg (drainHead a s) (headFor_of_startable h eq)).trans <|
    (if_pos (Bool.and_eq_true_iff.mpr ⟨Bool.and_eq_true_iff.mpr ⟨arrFree_of run step, congrArg Option.isNone swap⟩,
      congrArg Option.isNone shadow⟩)).trans
    (congrArg (fun t => Host.Outcome.next (swapTile a e (drainedAcc s a) t)) (dequeue_eq_left h.queue))

/-! ## The activity level -/

theorem activity_stays {s : State} {a : Arr}
    (h : (getArr s a).cnt ≠ 4 ∨ s.clock.skip = true ∨ (getArr s a).level = (getArr s a).target) :
    exec (.activityLevelStep a) s = .next s :=
  if_neg fun k => h.elim (· k.1) fun h =>
    h.elim (fun skip => Bool.false_ne_true ((congrArg not skip).symm.trans k.2.1)) k.2.2

theorem activity_moves {s : State} {a : Arr} (cnt : (getArr s a).cnt = 4) (skip : s.clock.skip = false)
    (ne : (getArr s a).level ≠ (getArr s a).target) : exec (.activityLevelStep a) s = .next (setArr a { getArr s a with
      level := if (getArr s a).level < (getArr s a).target then (getArr s a).level + 1 else (getArr s a).level - 1, cnt := 0 } s) :=
  if_pos ⟨cnt, congrArg not skip, ne⟩

theorem left_live (slot : Nat) (es : List Entry) (s : State) : (left slot es s).live = s.live :=
  (bump_live _ _ _).trans (setQ_live _ _ _)

/-- Settles O33: the controls by `startQuick_eq`, DRAIN by `exec_drain`, the activity level by the direction of its move. -/
theorem arrayControlsAndActivityAct : Obligations.ArrayControlsAndActivityAct :=
  ⟨by
    intro s a e es h run step x u
    exact ⟨fun eq swap => congrArg _ ((startQuick_eq dropTile h run step eq).trans
        (congrArg (fun x => complete e.id (setArr a x u)) (dropTile_open swap))),
      fun eq swap => congrArg _ ((startQuick_eq dropTile h run step eq).trans
        ((congrArg (fun x => complete e.id (setArr a x u))
          ((dropTile_closed swap).trans (left_getArr _ es s a).symm)).trans (congrArg (complete e.id) (setArr_getArr a u)))),
      fun eq => congrArg _ (startQuick_eq _ h run step eq),
      fun eq => congrArg _ (startQuick_eq _ h run step eq),
      fun eq swap shadow => ⟨swapTile a e (drainedAcc s a) u, exec_drain h run step eq swap shadow,
        congrArg ArrState.isOpen (getArr_swapTile a e _ u), congrArg ArrState.acc (getArr_swapTile a e _ u),
        ⟨mkTile u e (drainedAcc s a), congrArg ArrState.shadow (getArr_swapTile a e _ u), rfl, rfl, rfl, rfl⟩,
        swapTile_q _ _ _ _, (swapTile_live _ _ _ _).trans (left_live _ _ _),
        storesKept_swapTile _ _ _ (storesKept_left _ _ _), controlKept_swapTile _ _ _ (controlKept_left _ _ _)⟩⟩,
   by
    intro s a x
    exact ⟨fun cnt skip lt => (activity_moves cnt skip (Nat.ne_of_lt lt)).trans
        (congrArg (fun n => Host.Outcome.next (setArr a { x with level := n, cnt := 0 } s)) (if_pos lt)),
      fun cnt skip lt => (activity_moves cnt skip (Nat.ne_of_gt lt)).trans
        (congrArg (fun n => Host.Outcome.next (setArr a { x with level := n, cnt := 0 } s)) (if_neg (Nat.lt_asymm lt))),
      activity_stays⟩⟩

end Sys2Proof.ArrayTiles
end

section
/-! PROOFS. The trim and option load (13_reset_and_power R436, 01_boundary R38; O28). -/

namespace Sys2Proof.TrimLoad

open Sys2Proof Sys2Proof.Machine Sys2Proof.Claims

theorem loading_of {s : State} (req : s.trim.fuseReq = true) (state : s.trim.state = 1) : loading s = true :=
  Bool.and_eq_true_iff.mpr ⟨req, beq_iff_eq.mpr state⟩

theorem not_loading_of {s : State} (h : s.trim.fuseReq = false ∨ s.trim.state ≠ 1) : loading s = false :=
  Bool.and_eq_false_iff.mpr (h.imp_right beq_eq_false_iff_ne.mpr)

/-! ## The frame -/

/-- The checks of a frame, in their order. -/
def checked (words : List Word) (s : State) : Host.Outcome State Fault Refusal :=
  if s.trim.reqSince + 100000 < s.clock.refc then .next (trimFail 3 s)
  else if crc32c (wordsBytes (words.take 25)) ≠ words.getD 25 0 then .next (trimFail 1 s)
  else if wfld (words.getD 0 0) 31 16 ≠ 0x0118 then .next (trimFail 2 s)
  else .next (trimPass words s)

theorem frameEnd_eq {s : State} {words : List Word} (load : loading s = true) (len : words.length = 26) :
    exec (.fuseFrameEnd words) s = checked words s :=
  if_neg (ne_true_of_eq_false (Bool.or_eq_false_iff.mpr ⟨congrArg not load, bne_eq_false_iff_eq.mpr len⟩))

theorem frameEnd_stays {s : State} (words : List Word) (idle : loading s = false) : exec (.fuseFrameEnd words) s = .next s :=
  if_pos (Bool.or_eq_true_iff.mpr (.inl (congrArg not idle)))

theorem checked_on_time {s : State} {words : List Word} (time : s.clock.refc ≤ s.trim.reqSince + 100000) : checked words s =
    if crc32c (wordsBytes (words.take 25)) ≠ words.getD 25 0 then .next (trimFail 1 s)
    else if wfld (words.getD 0 0) 31 16 ≠ 0x0118 then .next (trimFail 2 s)
    else .next (trimPass words s) :=
  if_neg (Nat.not_lt.mpr time)

theorem checked_right_crc {s : State} {words : List Word} (time : s.clock.refc ≤ s.trim.reqSince + 100000)
    (crc : crc32c (wordsBytes (words.take 25)) = words.getD 25 0) : checked words s =
    if wfld (words.getD 0 0) 31 16 ≠ 0x0118 then .next (trimFail 2 s) else .next (trimPass words s) :=
  (checked_on_time time).trans (if_neg (not_not_intro crc))

/-! ## The timeout -/

theorem timeout_fails {s : State} (load : loading s = true) (late : s.trim.reqSince + 100000 ≤ s.clock.refc) :
    exec .fuseTimeout s = .next (trimFail 3 s) :=
  if_pos (Bool.and_eq_true_iff.mpr ⟨load, decide_eq_true late⟩)

theorem timeout_stays {s : State} (h : loading s = false ∨ s.clock.refc < s.trim.reqSince + 100000) :
    exec .fuseTimeout s = .next s :=
  if_neg (ne_true_of_eq_false (Bool.and_eq_false_iff.mpr (h.imp_right fun early => decide_eq_false (Nat.not_le.mpr early))))

/-! ## The retry -/

/-- The end of the cycles at 0. -/
def retried (s : State) (r : Nat) : Host.Outcome State Fault Refusal :=
  if r ≤ s.clock.refc && s.trim.state == 1 then
    .next { s with trim := { s.trim with fuseReq := true, reqSince := s.clock.refc, retryAt := none } }
  else .next s

theorem retry_eq {s : State} {r : Nat} (h : s.trim.retryAt = some r) : exec .fuseRetry s = retried s r := by
  show execFuseRetry s = retried s r
  unfold execFuseRetry
  rw [h]
  rfl

/-- What makes a frame fail, with its CAUSE. -/
theorem checked_fails {s : State} {cause : Nat} {ws : List Word} (h : (s.trim.reqSince + 100000 < s.clock.refc ∧ cause = 3) ∨
    (s.clock.refc ≤ s.trim.reqSince + 100000 ∧ crc32c (wordsBytes (ws.take 25)) ≠ ws.getD 25 0 ∧ cause = 1) ∨
    (s.clock.refc ≤ s.trim.reqSince + 100000 ∧ crc32c (wordsBytes (ws.take 25)) = ws.getD 25 0 ∧
      wfld (ws.getD 0 0) 31 16 ≠ 0x0118 ∧ cause = 2)) : checked ws s = .next (trimFail cause s) :=
  h.elim (fun p => p.2 ▸ if_pos p.1) fun h => h.elim
    (fun p => p.2.2 ▸ (checked_on_time p.1).trans (if_pos p.2.1))
    (fun p => p.2.2.2 ▸ (checked_right_crc p.1 p.2.1).trans (if_pos p.2.2.1))

theorem load_fails (s : State) (req : s.trim.fuseReq = true) (state : s.trim.state = 1) (c : Instr) (cause : Nat)
    (h : (∃ ws : List Word, c = .fuseFrameEnd ws ∧ ws.length = 26 ∧
        ((s.trim.reqSince + 100000 < s.clock.refc ∧ cause = 3) ∨
          (s.clock.refc ≤ s.trim.reqSince + 100000 ∧ crc32c (wordsBytes (ws.take 25)) ≠ ws.getD 25 0 ∧ cause = 1) ∨
          (s.clock.refc ≤ s.trim.reqSince + 100000 ∧ crc32c (wordsBytes (ws.take 25)) = ws.getD 25 0 ∧
            wfld (ws.getD 0 0) 31 16 ≠ 0x0118 ∧ cause = 2))) ∨
      (c = .fuseTimeout ∧ s.trim.reqSince + 100000 ≤ s.clock.refc ∧ cause = 3)) : exec c s = .next (trimFail cause s) :=
  h.elim
    (fun a => a.elim fun _ p => (congrArg (fun c => exec c s) p.1).trans
      ((frameEnd_eq (loading_of req state) p.2.1).trans (checked_fails p.2.2)))
    (fun p => (congrArg (fun c => exec c s) p.1).trans
      ((timeout_fails (loading_of req state) p.2.1).trans (congrArg (fun n => Host.Outcome.next (trimFail n s)) p.2.2.symm)))

/-- Settles O28, by the checks of the frame in their order (`checked`), the timeout, and the two ends of a failure. -/
theorem trimLoadsFromTheFuseFrame : Obligations.TrimLoadsFromTheFuseFrame :=
  ⟨⟨fun s req state =>
      ⟨fun ws len time crc word =>
        ⟨trimPass ws s, (frameEnd_eq (loading_of req state) len).trans ((checked_right_crc time crc).trans
            (if_neg (not_not_intro word))), rfl, rfl, rfl, rfl, Nat.mod_mod _ _, Nat.mod_mod _ _, Nat.mod_mod _ _,
          Nat.mod_mod _ _, Nat.mod_mod _ _, Nat.mod_mod _ _, rfl, rfl, ⟨rfl, rfl, rfl, rfl, rfl, rfl, rfl, rfl, rfl⟩⟩,
       fun c cause h =>
        ⟨fun few => (load_fails s req state c cause h).trans (congrArg _ (if_neg (Nat.not_le.mpr few))),
         fun third => (load_fails s req state c cause h).trans (congrArg _ (if_pos third.ge))⟩,
       fun early => timeout_stays (.inr early)⟩,
    fun _ ws idle => ⟨frameEnd_stays ws (not_loading_of idle), timeout_stays (.inl (not_loading_of idle))⟩⟩,
   fun _ _ armed state =>
    ⟨fun due => (retry_eq armed).trans (if_pos (Bool.and_eq_true_iff.mpr ⟨decide_eq_true due, beq_iff_eq.mpr state⟩)),
     fun early => (retry_eq armed).trans (if_neg (ne_true_of_eq_false (Bool.and_eq_false_iff.mpr
       (.inl (decide_eq_false (Nat.not_le.mpr early))))))⟩⟩

end Sys2Proof.TrimLoad
end

section
/-! PROOFS. The watch windows of a core in Shallows (13_reset_and_power R450; O30). -/

namespace Sys2Proof.WatchWindows

open Sys2Proof Sys2Proof.Machine Sys2Proof.Claims

/-- The wake lane of a window: 1 for the sprout pattern, 2 for a frame for the slot, 0 for neither. -/
def lane (samples : List Bool) (frame : Option Byte) (s : State) : Nat :=
  if sproutMatch s.pwr.sproutUse samples then 1 else if frame = some (s.straps.slot.zeroExtend 8) then 2 else 0

/-- The wake by a lane: the release begins at step 1. -/
def woken (lane : Nat) (s : State) : State :=
  let t := wakePwr { s with pwr := { s.pwr with wake := lane, wcnt := satCount 16 (s.pwr.wcnt + 1) } }
  holdSteps 1 { t with rst := { t.rst with fromSleep := true } }

/-- What a due window does. -/
def opened (samples : List Bool) (frame : Option Byte) (s : State) : Host.Outcome State Fault Refusal :=
  if lane samples frame s = 0 then .next s else .next (woken (lane samples frame s) s)

theorem window_opens {s : State} (samples : List Bool) (frame : Option Byte) (state : s.pwr.state = 3)
    (due : s.pwr.watchAt ≤ s.clock.refc) : exec (.watchWindow samples frame) s = opened samples frame (watchNext s) :=
  if_neg (ne_true_of_eq_false (Bool.or_eq_false_iff.mpr
    ⟨decide_eq_false (not_not_intro state), decide_eq_false (Nat.not_lt.mpr due)⟩))

theorem window_stays {s : State} (samples : List Bool) (frame : Option Byte)
    (h : s.pwr.state ≠ 3 ∨ s.clock.refc < s.pwr.watchAt) : exec (.watchWindow samples frame) s = .next s :=
  if_pos (Bool.or_eq_true_iff.mpr (h.imp decide_eq_true decide_eq_true))

theorem lane_of_match {samples : List Bool} {frame : Option Byte} {s : State}
    (h : sproutMatch s.pwr.sproutUse samples = true ∨ frame = some (s.straps.slot.zeroExtend 8)) :
    lane samples frame s = if sproutMatch s.pwr.sproutUse samples then 1 else 2 := by
  by_cases k : sproutMatch s.pwr.sproutUse samples = true
  · exact (if_pos k).trans (if_pos k).symm
  · exact (if_neg k).trans ((if_pos (h.resolve_left k)).trans (if_neg k).symm)

theorem lane_of_no_match {samples : List Bool} {frame : Option Byte} {s : State}
    (sprout : sproutMatch s.pwr.sproutUse samples = false) (own : ¬frame = some (s.straps.slot.zeroExtend 8)) :
    lane samples frame s = 0 :=
  (if_neg (ne_true_of_eq_false sprout)).trans (if_neg own)

theorem lane_ne_zero {samples : List Bool} {frame : Option Byte} {s : State}
    (h : sproutMatch s.pwr.sproutUse samples = true ∨ frame = some (s.straps.slot.zeroExtend 8)) : lane samples frame s ≠ 0 := by
  rw [lane_of_match h]
  split <;> decide

/-- Step i of a release held from step 1 on. -/
def held (c : Nat) (i : Nat) (x : RstStep) : RstStep := if 1 ≤ i + 1 then { x with st := 0, tFree := c + 1 } else x

theorem held_eq (c i : Nat) (x : RstStep) : held c i x = { x with st := 0, tFree := c + 1 } := if_pos (Nat.le_add_left 1 i)

theorem held_of_mem {l : List RstStep} {c : Nat} {x : RstStep} (h : x ∈ l.mapIdx (held c)) : x.st = 0 ∧ x.tFree = c + 1 :=
  (List.mem_mapIdx.mp h).elim fun i p => p.elim fun _ eq => eq ▸ held_eq c i _ ▸ ⟨rfl, rfl⟩

theorem steps_held {x : RstStep} {s : State} (n : Nat) (h : x ∈ (woken n (watchNext s)).rst.steps) :
    x.st = 0 ∧ x.tFree = s.clock.refc + 1 :=
  held_of_mem (l := s.rst.steps) h

theorem steps_length (n : Nat) (s : State) : (woken n (watchNext s)).rst.steps.length = s.rst.steps.length :=
  List.length_mapIdx (l := s.rst.steps) (f := held s.clock.refc)

/-- The next multiple of the period lies within one period. -/
theorem next_window (s : State) : s.clock.refc < (watchNext s).pwr.watchAt ∧
    (watchNext s).pwr.watchAt ≤ s.clock.refc + 100 * max 1 s.pwr.periodUse :=
  have period : 0 < 100 * max 1 s.pwr.periodUse := Nat.mul_pos (by decide) (Nat.lt_of_lt_of_le Nat.one_pos (Nat.le_max_left _ _))
  ⟨Nat.lt_sub_of_add_lt (Nat.add_lt_add_left (Nat.mod_lt _ period) _), Nat.sub_le _ _⟩

theorem opened_match {samples : List Bool} {frame : Option Byte} {s : State}
    (h : sproutMatch s.pwr.sproutUse samples = true ∨ frame = some (s.straps.slot.zeroExtend 8)) :
    opened samples frame s = .next (woken (lane samples frame s) s) :=
  if_neg (lane_ne_zero h)

theorem woken_eq (n : Nat) (s : State) : woken n (watchNext s) =
    { s with pwr := (woken n (watchNext s)).pwr, rst := (woken n (watchNext s)).rst } :=
  rfl

theorem storesKept_woken (n : Nat) (s : State) : StoresKept s (woken n (watchNext s)) :=
  ⟨(congrArg State.pool (woken_eq n s) :), (congrArg State.ocache (woken_eq n s) :), (congrArg State.sregs (woken_eq n s) :),
    (congrArg State.descs (woken_eq n s) :), (congrArg State.scales (woken_eq n s) :), (congrArg State.flags (woken_eq n s) :),
    (congrArg State.crs (woken_eq n s) :), (congrArg State.chans (woken_eq n s) :), (congrArg State.scaleNow (woken_eq n s) :)⟩

theorem window_wakes {s : State} {samples : List Bool} {frame : Option Byte} (state : s.pwr.state = 3)
    (due : s.pwr.watchAt ≤ s.clock.refc)
    (h : sproutMatch s.pwr.sproutUse samples = true ∨ frame = some (s.straps.slot.zeroExtend 8)) :
    exec (.watchWindow samples frame) s = .next (woken (lane samples frame s) (watchNext s)) :=
  (window_opens samples frame state due).trans (opened_match (s := watchNext s) h)

theorem window_closes {s : State} {samples : List Bool} {frame : Option Byte} (state : s.pwr.state = 3)
    (due : s.pwr.watchAt ≤ s.clock.refc)
    (sprout : sproutMatch s.pwr.sproutUse samples = false) (own : ¬frame = some (s.straps.slot.zeroExtend 8)) :
    exec (.watchWindow samples frame) s = .next (watchNext s) :=
  (window_opens samples frame state due).trans (if_pos (lane_of_no_match (s := watchNext s) sprout own))

/-- Settles O30, by the lane that the window finds (`lane`). -/
theorem watchWindowWakes : Obligations.WatchWindowWakes :=
  ⟨by
    intro s samples frame state due own
    exact ⟨fun h => ⟨woken (lane samples frame s) (watchNext s), window_wakes state due h, rfl, lane_of_match h, rfl, rfl, rfl,
        fun _ mem => steps_held (s := s) _ mem, steps_length _ s, storesKept_woken _ s⟩,
      fun sprout own => ⟨(watchNext s).pwr.watchAt, (next_window s).1, (next_window s).2, window_closes state due sprout own⟩⟩,
   fun _ samples frame h => window_stays samples frame h⟩

end Sys2Proof.WatchWindows
end

section
/-! PROOFS. The hand-off of a packet and its credits (01_boundary R28, 11_fabric_and_reduction R366; O25). -/

namespace Sys2Proof.Handoff

open Sys2Proof Sys2Proof.Machine Sys2Proof.Claims

/-! ## What a hand-off leaves unchanged -/

/-- t with the live instructions, the reduction unit and the counters of s. -/
def back (s t : State) : State := { t with live := s.live, rsu := s.rsu, cnt := s.cnt }

/-- Another port. -/
def withFab (f : FabState) (s : State) : State := { s with fab := f }

theorem back_bump (s t : State) (src n : Nat) : back s (bump src n t) = back s t :=
  (congrArg (back s) (bump_eq src n t) :)

theorem back_completeAll (s t : State) (ids : List Nat) : back s (completeAll ids t) = back s t := by
  induction ids generalizing t with
  | nil => rfl
  | cons id ids ih => exact ih (complete id t)

theorem back_handedOff (s t : State) (id : Nat) : back s (handedOff id t) = back s t := by
  unfold handedOff
  split <;> rfl

/-! ## The port after a hand-off -/

/-- The packet is on the wire, its request outstanding. -/
def onWire (p : TxPkt) (f : FabState) : FabState :=
  { f with
    txq := f.txq.erase p
    wire := p :: f.wire
    outst := match p.req with
      | some o => f.outst ++ [o]
      | none => f.outst }

/-- Credits of channel 0 spent on n flits. -/
def spend0 (n clk : Nat) (f : FabState) : FabState := { f with txCred0 := f.txCred0 - n, busy0 := clk + n }

/-- Credits of channel 1 spent on n flits. -/
def spend1 (n clk : Nat) (f : FabState) : FabState := { f with txCred1 := f.txCred1 - n, busy1 := clk + n }

/-- The port after the hand-off. -/
def handed (p : TxPkt) (s : State) : FabState :=
  if p.ch = 0 then spend0 (flitsOf p.payload.length) s.clock.clk (onWire p s.fab)
  else spend1 (flitsOf p.payload.length) s.clock.clk (onWire p s.fab)

/-- The requests outstanding, with that of a packet. -/
def requested (l : List Outst) : Option Outst → List Outst
  | some o => l ++ [o]
  | none => l

theorem requested_eq (l : List Outst) (o : Option Outst) : requested l o = l ++ o.toList := by
  cases o with
  | none => exact (List.append_nil l).symm
  | some o => rfl

/-- The end of the instruction that the packet ends. -/
def release (t : State) : Option Nat → State
  | some i => handedOff i t
  | none => t

theorem back_release (s t : State) (o : Option Nat) : back s (release t o) = back s t := by
  cases o with
  | none => rfl
  | some i => exact back_handedOff s t i

/-- The state after the hand-off. -/
def moved (p : TxPkt) (s : State) : State := finishRsu (handOver p s)

theorem back_moved (p : TxPkt) (s : State) : back s (moved p s) = withFab (handed p s) s :=
  (back_completeAll s _ _).trans ((back_release s (bump 0x140 (flitsOf p.payload.length)
    (bump (0x100 + 2 * wfld p.hdr.w0 31 27) 1 (withFab (handed p s) s))) p.liveId).trans
      ((back_bump s _ _ _).trans (back_bump s _ _ _)))

theorem moved_fab (p : TxPkt) (s : State) : (moved p s).fab = handed p s := (congrArg State.fab (back_moved p s) :)

theorem storesKept_moved (p : TxPkt) (s : State) : StoresKept s (moved p s) :=
  have h := back_moved p s
  ⟨(congrArg State.pool h :), (congrArg State.ocache h :), (congrArg State.sregs h :), (congrArg State.descs h :),
    (congrArg State.scales h :), (congrArg State.flags h :), (congrArg State.crs h :), (congrArg State.chans h :),
    (congrArg State.scaleNow h :)⟩

theorem controlKept_moved (p : TxPkt) (s : State) : ControlKept s (moved p s) :=
  have h := back_moved p s
  ⟨(congrArg State.cfg h :), (congrArg State.pins h :), (congrArg State.own h :),
    ⟨(congrArg (·.img.a) h :), (congrArg (·.img.b) h :), (congrArg (·.img.cur) h :)⟩,
    (congrArg State.job h :), (congrArg State.ckpt h :), (congrArg State.rst h :), (congrArg State.trim h :)⟩

/-! ## The command -/

theorem formFor_eq {ch : Nat} {p : TxPkt} {s : State} (h : s.fab.txq.find? (fun q => q.ch == ch) = some p) :
    formFor ch 256 s = s :=
  if_pos (congrArg Option.isSome h)

/-- The packet found, if it may go. -/
def goes (s : State) (ch : Nat) : Option TxPkt → Option TxPkt
  | some p =>
    if portOk s && decide (p.due ≤ s.clock.ek) && decide ((if ch = 0 then s.fab.busy0 else s.fab.busy1) ≤ s.clock.clk) &&
        decide (flitsOf p.payload.length ≤ txCredit s ch) then some p else none
  | none => none

theorem readyPacket_eq {ch : Nat} {p : TxPkt} {s : State} (h : s.fab.txq.find? (fun q => q.ch == ch) = some p)
    (port : portOk s = true) (due : p.due ≤ s.clock.ek) (free : (if ch = 0 then s.fab.busy0 else s.fab.busy1) ≤ s.clock.clk)
    (credit : flitsOf p.payload.length ≤ txCredit s ch) : readyPacket s ch = some p :=
  (congrArg (goes s ch) h).trans (if_pos (Bool.and_eq_true_iff.mpr ⟨Bool.and_eq_true_iff.mpr ⟨Bool.and_eq_true_iff.mpr
    ⟨port, decide_eq_true due⟩, decide_eq_true free⟩, decide_eq_true credit⟩))

/-- The hand-off of the packet that may go. -/
def handOff (s : State) : Option TxPkt → Host.Outcome State Fault Refusal
  | some p => .next (finishRsu (handOver p s))
  | none => .next s

theorem exec_packetHandoff {ch : BitVec 1} {p : TxPkt} {s : State}
    (h : s.fab.txq.find? (fun q => q.ch == ch.toNat) = some p) (ready : readyPacket s ch.toNat = some p) :
    exec (.packetHandoff ch) s = .next (moved p s) :=
  (congrArg (fun t => handOff t (readyPacket t ch.toNat)) (formFor_eq h)).trans (congrArg (handOff s) ready)

theorem ch_of_find {ch : Nat} {p : TxPkt} {l : List TxPkt} (h : l.find? (fun q => q.ch == ch) = some p) : p.ch = ch :=
  beq_iff_eq.mp (List.find?_some h :)

/-- A returned credit. -/
def credited (s : State) (ch : BitVec 1) : Host.Outcome State Fault Refusal :=
  if ch = 0 then .next { s with fab := { s.fab with txCred0 := s.fab.txCred0 + 1 } }
  else .next { s with fab := { s.fab with txCred1 := s.fab.txCred1 + 1 } }

theorem credit_taken {s : State} (ch : BitVec 1) (up : awake s = true) (port : stepDone s 7 = true) :
    exec (.gmiTxCredit ch) s = credited s ch :=
  if_neg (ne_true_of_eq_false (Bool.or_eq_false_iff.mpr ⟨congrArg not port, congrArg not up⟩))

theorem credit_ignored {s : State} (ch : BitVec 1) (h : awake s = false ∨ stepDone s 7 = false) :
    exec (.gmiTxCredit ch) s = .next s :=
  if_pos (Bool.or_eq_true_iff.mpr (h.symm.imp (congrArg not) (congrArg not)))

theorem bit_cases {P : BitVec 1 → Prop} (zero : P 0) (one : P 1) (ch : BitVec 1) : P ch :=
  (BitVec.eq_zero_or_eq_one ch).elim (fun h => h ▸ zero) (fun h => h ▸ one)

/-- Settles O25: the packet found may go, and its hand-off changes only the port, by its channel (`handed`), live instructions,
the reduction unit and counters (`back_moved`). -/
theorem packetHandoffSpendsCredits : Obligations.PacketHandoffSpendsCredits := by
  refine ⟨fun s => bit_cases (fun p found port due free credit => ?_) (fun p found port due free credit => ?_),
    fun s up port => ⟨credit_taken 0 up port, credit_taken 1 up port⟩, fun s ch h => credit_ignored ch h⟩
  · have fab : (moved p s).fab = spend0 (flitsOf p.payload.length) s.clock.clk (onWire p s.fab) :=
      (moved_fab p s).trans (if_pos (ch_of_find found))
    exact ⟨moved p s, exec_packetHandoff found (readyPacket_eq found port due free credit), (congrArg FabState.txq fab :),
      (congrArg FabState.wire fab :), (congrArg FabState.outst fab).trans (requested_eq _ _),
      (congrArg (fun f => f.txCred0 + flitsOf p.payload.length) fab).trans (Nat.sub_add_cancel credit),
      (congrArg FabState.txCred1 fab :), (congrArg FabState.busy0 fab :), (congrArg FabState.busy1 fab :),
      storesKept_moved p s, controlKept_moved p s⟩
  · have fab : (moved p s).fab = spend1 (flitsOf p.payload.length) s.clock.clk (onWire p s.fab) :=
      (moved_fab p s).trans (if_neg fun zero => absurd (zero.symm.trans (ch_of_find found)) (by decide))
    exact ⟨moved p s, exec_packetHandoff found (readyPacket_eq found port due free credit), (congrArg FabState.txq fab :),
      (congrArg FabState.wire fab :), (congrArg FabState.outst fab).trans (requested_eq _ _),
      (congrArg FabState.txCred0 fab :),
      (congrArg (fun f => f.txCred1 + flitsOf p.payload.length) fab).trans (Nat.sub_add_cancel credit),
      (congrArg FabState.busy0 fab :), (congrArg FabState.busy1 fab :), storesKept_moved p s, controlKept_moved p s⟩

end Sys2Proof.Handoff
end

section
/-! PROOFS. What a spring flit does by its type (04_loading R132, R133, R138; O8). -/

namespace Sys2Proof.SpringFlits

open Sys2Proof Sys2Proof.Machine Sys2Proof.Claims

/-! ## Command flits -/

theorem wfld_top (w : Word) : wfld w 31 24 = w.toNat / 2 ^ 24 :=
  (congrArg (· % 2 ^ 8) (Nat.shiftRight_eq_div_pow w.toNat 24)).trans (Nat.mod_eq_of_lt (Nat.div_lt_of_lt_mul w.isLt))

/-- A word is its top byte and its low 24 bits. -/
theorem cmdWord_top (w : Word) : cmdWord (wfld w 31 24) (BitVec.ofNat 24 w.toNat) = w :=
  have nat : wfld w 31 24 <<< 24 + w.toNat % 2 ^ 24 = w.toNat :=
    (congrArg (· + w.toNat % 2 ^ 24) ((Nat.shiftLeft_eq _ 24).trans (congrArg (· * 2 ^ 24) (wfld_top w)))).trans
      (Nat.div_add_mod' _ _)
  (congrArg word nat).trans ((BitVec.ofNat_toNat 32 w).trans (BitVec.setWidth_eq w))

theorem takes_flit {s : State} (takes : Takes s) : ¬(!rcvTakes s) = true :=
  ne_true_of_eq_false (congrArg not (Bool.and_eq_true_iff.mpr ⟨takes.rdy, congrArg not takes.halt⟩))

theorem commandFlit_acts {s : State} {data : BitVec 128} {cmd : Nat} (takes : Takes s)
    (top : wfld ((flitWords data).getD 3 0) 31 24 = cmd) : exec (.springDataFlit 1 data) s =
      .next (cmdFlit (cmdWord cmd (BitVec.ofNat 24 ((flitWords data).getD 3 0).toNat)) ((flitWords data).getD 2 0)
        ((flitWords data).getD 1 0) ((flitWords data).getD 0 0) s) :=
  (if_neg (takes_flit takes)).trans (congrArg (fun w => Host.Outcome.next (cmdFlit w ((flitWords data).getD 2 0)
    ((flitWords data).getD 1 0) ((flitWords data).getD 0 0) s)) ((cmdWord_top _).symm.trans (congrArg (cmdWord · _) top)))

/-! ## Data flits -/

/-- A data flit, by the load in progress. -/
def dataFlit (data : BitVec 128) (s : State) : Option Load → Host.Outcome State Fault Refusal
  | some l => .next (loadFlit data l s)
  | none => .next (raise 0x02 (flitCtx ((flitWords data).getD 3 0) ((flitWords data).getD 2 0)) s)

theorem dataFlit_acts {s : State} {data : BitVec 128} {l : Option Load} (takes : Takes s) (load : s.rcv.load = l) :
    exec (.springDataFlit 0 data) s = dataFlit data s l :=
  (if_neg (takes_flit takes)).trans (congrArg (dataFlit data s) load)

theorem loadFlit_ends {s : State} {l : Load} {data : BitVec 128} (desc : l.isBlock = false) (last : l.left = 1) :
    loadFlit data l s = finishDesc { l with
      isBlock := false, left := 0, flits := l.flits + 1, crcRun := crc32cRun l.crcRun (leBytes 16 data.toNat)
      words := l.words ++ flitWords data } s :=
  (congrArg₂ (fun b n => loadFlit data { l with isBlock := b, left := n } s) desc last :)

/-- Settles O8: a command flit goes to the row of its CMD byte (`commandFlit_acts`), a data flit to the load in progress
(`loadFlit_ends`) or to a fault. -/
theorem springFlitsActByTheirType : Obligations.SpringFlitsActByTheirType := by
  intro s data takes w low
  exact ⟨fun top => commandFlit_acts takes top, fun top => commandFlit_acts takes top, fun top => commandFlit_acts takes top,
    fun top => commandFlit_acts takes top, fun top => commandFlit_acts takes top,
    fun l load desc last _ crc => ⟨_, (dataFlit_acts takes load).trans
      (congrArg Host.Outcome.next ((loadFlit_ends desc last).trans (if_pos crc))), rfl⟩,
    fun load => dataFlit_acts takes load⟩

end Sys2Proof.SpringFlits
end

section
/-! PROOFS. The checks of an arriving packet (11_fabric_and_reduction R356; O18). -/

namespace Sys2Proof.PacketChecks

open Sys2Proof Sys2Proof.Machine Sys2Proof.Claims Sys2Proof.Proofs.ResetPackets

/-! ## The rows of the packet types -/

/-- A TYPE, its command and its effect (R349). -/
def rows : List (Nat × (Pkt → Instr) × (Pkt → State → State)) :=
  [(1, Instr.putPacket, putEffect), (2, .getPacket, getEffect), (3, .getrPacket, getrEffect), (4, .ackPacket, ackEffect),
    (5, .nackPacket, nackEffect), (6, .raccPacket, raccEffect), (8, .faddPacket, faddEffect), (9, .carryPacket, carryEffect),
    (10, .rconPacket, fun _ t => t), (11, .rresPacket, rresEffect), (12, .probePacket, probeEffect),
    (13, .proberPacket, proberEffect), (14, .resetPacket, resetEffect)]

/-- A row takes a packet of its TYPE. -/
def taken (act : Pkt → State → State) (t : Nat) (p : Pkt) (s : State) : Host.Outcome State Fault Refusal :=
  if rowTakes t p then .next (arrive act p s) else .next s

theorem exec_row : ∀ x ∈ rows, (fun p s => exec (x.2.1 p) s) = taken x.2.2 x.1 :=
  List.map_inj_left.mp (rfl : rows.map _ = rows.map _)

theorem request_row : ∀ x ∈ rows, requestType x.1 = decide (x.1 ∈ [1, 2, 6, 8, 9, 10, 12]) :=
  List.map_inj_left.mp (rfl : rows.map _ = rows.map _)

theorem jobFree_row : ∀ x ∈ rows, jobFree x.1 = decide (x.1 ∈ [3, 4, 5, 12, 13]) :=
  List.map_inj_left.mp (rfl : rows.map _ = rows.map _)

/-- The row of a TYPE and its command. -/
theorem exists_row {t : Nat} {c : Pkt → Instr} (mem : (t, c) ∈ rows.map fun x => (x.1, x.2.1)) :
    ∃ act, (t, c, act) ∈ rows :=
  (List.mem_map.mp mem).elim fun x h =>
    ⟨x.2.2, (congrArg (fun y : Nat × (Pkt → Instr) => (y.1, y.2, x.2.2) ∈ rows) h.2).mp h.1⟩

/-! ## No check adds to a flag -/

theorem fabDrop_adds (s : State) : (fabDrop s).fab.adds = s.fab.adds :=
  (congrArg FabState.adds (fabDrop_fab s) :)

/-- A reply by its route. -/
def routed (q : PktSpec) (s : State) : Option Word → Option State
  | none => none
  | some e => some { s with fab := { s.fab with txq := s.fab.txq ++
      [⟨mkHdr s q (pathEgress e (pathIndex e q.j)), q.payload, pathIndex e q.j % 2, s.clock.ek, none, none⟩] } }

/-- A reply queued, or without a route discarded. -/
def queued (s : State) : Option State → State
  | some t => t
  | none => fabDrop s

theorem routed_adds (q : PktSpec) (s : State) : ∀ r, (queued s (routed q s r)).fab.adds = s.fab.adds
  | some _ => rfl
  | none => fabDrop_adds s

theorem refuse_adds (p : Pkt) (code : Nat) (s : State) : (refuse p code s).fab.adds = s.fab.adds := by
  unfold refuse
  split
  · exact (routed_adds _ (fabDrop s) _).trans (fabDrop_adds s)
  · exact fabDrop_adds s

theorem raise_adds (c : Byte) (x : FaultCtx) (s : State) : (raise c x s).fab.adds = s.fab.adds :=
  (congrArg (·.fab.adds) (raise_eq c x s) :)

/-! ## The checks in their order -/

section
variable {act : Pkt → State → State} {p : Pkt} {s : State}

theorem process_breach (breach : ¬(p.flits = flitsOf p.plen ∧ p.contig = true)) :
    process act p s = raise 0x63 FaultCtx.none s :=
  if_pos ((not_and_or.mp breach).imp id Bool.eq_false_of_not_eq_true)

theorem framed (flits : p.flits = flitsOf p.plen) (contig : p.contig = true) :
    ¬(p.flits ≠ flitsOf p.plen ∨ p.contig = false) :=
  fun h => h.elim (· flits) fun no => Bool.false_ne_true (no.symm.trans contig)

theorem process_crc (flits : p.flits = flitsOf p.plen) (contig : p.contig = true) (crc : packetCrc p.hdr p.data ≠ p.w7) :
    process act p s = if p.typ = 12 then fabDrop s else raise 0x62 (FaultCtx.args p.w3.toNat p.w0.toNat) s :=
  (if_neg (framed flits contig)).trans (if_pos crc)

theorem crcFault_adds (p : Pkt) (x : FaultCtx) (s : State) :
    (if p.typ = 12 then fabDrop s else raise 0x62 x s).fab.adds = s.fab.adds := by
  split
  · exact fabDrop_adds s
  · exact raise_adds 0x62 x s

/-- The checks after those of framing and CRC. -/
def checked (act : Pkt → State → State) (p : Pkt) (s : State) : State :=
  if !formOk p then refuse p 3 s
  else if p.core ≠ s.straps.core.toNat then refuse p 6 s
  else if !jobOk s p then refuse p 4 s
  else if stopped s p then (if p.typ = 1 ∨ p.typ = 6 then nackTo p 5 (fabDrop s) else fabDrop s)
  else act p (bump (0x100 + 2 * p.typ + 1) 1 s)

theorem process_intact (h : Intact p) : process act p s = checked act p s :=
  (if_neg (framed h.flits h.contig)).trans (if_neg fun no => no h.crc)

theorem checked_form (form : formOk p = false) : checked act p s = refuse p 3 s := if_pos (congrArg not form)

theorem formed (form : formOk p = true) : ¬(!formOk p) = true := ne_true_of_eq_false (congrArg not form)

theorem checked_core (form : formOk p = true) (core : p.core ≠ s.straps.core.toNat) : checked act p s = refuse p 6 s :=
  (if_neg (formed form)).trans (if_pos core)

theorem checked_job (form : formOk p = true) (core : p.core = s.straps.core.toNat) (job : jobOk s p = false) :
    checked act p s = refuse p 4 s :=
  (if_neg (formed form)).trans ((if_neg fun no => no core).trans (if_pos (congrArg not job)))

theorem formOk_rcon (typ : p.typ = 10) : formOk p = false := by
  simp [formOk, typ]

theorem jobOk_other (free : jobFree p.typ = false) (job : p.job ≠ s.job.id.toNat) (area : toReplica s p = false) :
    jobOk s p = false :=
  (if_neg (ne_true_of_eq_false area)).trans (Bool.or_eq_false_iff.mpr ⟨free, beq_eq_false_iff_ne.mpr job⟩)

/-! ## The answer -/

theorem answers_row {c : Pkt → Instr} {t : State} (arrives : Arrives p s) (row : (p.typ, c, act) ∈ rows)
    (eq : process act p (bump 0x141 p.flits s) = t) (adds : t.fab.adds = (bump 0x141 p.flits s).fab.adds) :
    Answers (c p) s t :=
  (congrFun₂ (exec_row _ row) p s).trans <| (if_pos (Bool.or_eq_true_iff.mpr (.inl (beq_self_eq_true p.typ)))).trans <|
    congrArg Host.Outcome.next <| (arrive_of_arrives act arrives).trans <|
      (processNow_of_no_new_adds (Nat.le_of_eq (congrArg List.length ((congrArg (·.fab.adds) eq).trans adds)))).trans eq

/-- The refusal of a packet of this TYPE. -/
def refused (p : Pkt) (code : Nat) (s : State) : State :=
  if p.typ ∈ [1, 2, 6, 8, 9, 10, 12] then nackTo p code (fabDrop s) else fabDrop s

theorem refuse_eq {c : Pkt → Instr} (row : (p.typ, c, act) ∈ rows) (code : Nat) : refuse p code s = refused p code s :=
  if_congr ((Bool.eq_iff_iff.mp (request_row _ row)).trans decide_eq_true_iff) rfl rfl

theorem answers_refused {c : Pkt → Instr} {code : Nat} (arrives : Arrives p s) (row : (p.typ, c, act) ∈ rows) (intact : Intact p)
    (eq : checked act p (bump 0x141 p.flits s) = refuse p code (bump 0x141 p.flits s)) :
    Answers (c p) s (refused p code (bump 0x141 p.flits s)) :=
  answers_row arrives row ((process_intact intact).trans (eq.trans (refuse_eq row code)))
    ((congrArg (·.fab.adds) (refuse_eq row code)).symm.trans (refuse_adds p code _))

end

/-- Settles O18: the packet's row (`exists_row`) makes the checks in order, and none of them adds to a flag. -/
theorem packetsAreCheckedInOrder : Obligations.PacketsAreCheckedInOrder := by
  intro p s c arrives mem u no
  obtain ⟨act, row⟩ := exists_row mem
  exact ⟨fun breach => answers_row arrives row (process_breach breach) (raise_adds ..),
    fun flits contig crc => answers_row arrives row (process_crc flits contig crc) (crcFault_adds ..),
    fun intact bad => answers_refused arrives row intact (checked_form (bad.elim id formOk_rcon)),
    fun intact form core => answers_refused arrives row intact (checked_core form ((bump_straps 0x141 p.flits s).symm ▸ core)),
    fun intact form core free job area => answers_refused arrives row intact (checked_job form
      ((bump_straps 0x141 p.flits s).symm ▸ core)
      ((jobOk_bump ..).trans (jobOk_other ((jobFree_row _ row).trans (decide_eq_false free)) job area)))⟩

end Sys2Proof.PacketChecks
end

section
/-! PROOFS. Support: what the issue of a bundle or mark leaves alone (03_program R97, R128). -/

namespace Sys2Proof

open Machine Claims

/-- The state without what the issue point, the receiver, the power state, the counters, a late beat, the outputs and the image
slots hold. -/
def steady (s : State) : State :=
  { s with issue := Issue.init, rcv := Rcv.init, pwr := Pwr.init, cnt := Cnt.init, sync := Sync.init,
           out := State.reset.out, img := State.reset.img }

/-- What an issue keeps: `steady`, the image slots, whether a HOLD mark waits, the clk counter, and, but for the issue itself, the
clk of the last one. -/
def kept (s : State) : (State × Img × Bool × Nat) × Option Nat :=
  ((steady s, s.img, s.issue.holdMark, s.cnt.cyc), s.issue.lastIssue)

theorem kept_ite {c : Prop} [d : Decidable c] {a b s : State} (ha : kept a = kept s) (hb : kept b = kept s) :
    kept (if c then a else b) = kept s := (apply_ite kept c a b).trans ((congr (congrArg (ite c) ha) hb).trans (ite_self _))

theorem bump_kept (n k : Nat) (s : State) : kept (bump n k s) = kept s := kept_ite (b := s) (rfl (a := kept s)) (rfl (a := kept s))

/-- s with core_late lowered (R338). -/
def lowered (s : State) : State :=
  { s with
    out := { s.out with coreLate := false }
    issue := { s.issue with lateRun := 0 }
    sync := { s.sync with lateBeats := satCount 16 (s.sync.lateBeats + 1)
                          lateMax := max s.sync.lateMax (satCount 16 s.issue.lateRun) } }

theorem lowerLate_kept (s : State) : kept (lowerLate s) = kept s :=
  kept_ite (a := lowered s) (b := s) (rfl (a := kept s)) (rfl (a := kept s))

/-- s with its replay at the phase p. -/
def phased (p : Phase) (s : State) : State := { s with issue := { s.issue with phase := some p } }

theorem advance_kept (s : State) : kept (advance s) = kept s := by
  unfold advance
  generalize headReplay s = x
  generalize nextPos s = y
  match x, y with
  | none, y => exact rfl (a := kept s)
  | some x, none => exact rfl (a := kept s)
  | some x, some y =>
    exact kept_ite (a := phased _ s) (rfl (a := kept s)) (kept_ite (a := phased _ s) (rfl (a := kept s))
      (kept_ite (b := phased _ s) (rfl (a := kept s)) (rfl (a := kept s))))

/-- The issue of a bundle or mark keeps all but the clk of the last issue, and that is this clk. -/
theorem noteIssue_kept (s : State) : kept (noteIssue (advance s)) = ((kept s).1, some s.clock.clk) :=
  have same := (bump_kept 0x003 1 (advance s)).trans (advance_kept s)
  Prod.ext ((congrArg Prod.fst same :)) ((congrArg (fun k => some k.1.1.clock.clk) same :))

/-- The error block after an error is noted; the clk counter and S63 are part of what is recorded (R459). -/
def notedErr (halt : Bool) (code : Byte) (c : FaultCtx) (e : Err) (s63 : Word) (cyc : Nat) : Err :=
  let f : Fresh := ⟨code, halt, c.inst.map (·.1), (c.inst.map (·.2)).getD 0, faultInfo c s63 cyc⟩
  if e.fresh.contains f then e else { e with fresh := e.fresh ++ [f] }

theorem raise_err (c : Byte) (x : FaultCtx) (s : State) : (raise c x s).err = notedErr true c x s.err s.s63 s.cnt.cyc :=
  apply_ite State.err _ _ _

theorem raise_err_congr {c : Byte} {x : FaultCtx} {s t : State} (err : t.err = s.err) (s63 : t.s63 = s.s63)
    (cyc : t.cnt.cyc = s.cnt.cyc) : (raise c x t).err = (raise c x s).err :=
  (raise_err c x t).trans ((congr (congr (congrArg (notedErr true c x) err) s63) cyc).trans (raise_err c x s).symm)

/-- The state without the queues, the instructions in flight and the fabric besides. -/
def idle (s : State) : State := { steady s with q := State.reset.q, live := [], gates := [], fab := State.reset.fab }

theorem stores_of_idle {s t : State} (h : idle t = idle s) : StoresKept s t :=
  ⟨(congrArg State.pool h :), (congrArg State.ocache h :), (congrArg State.sregs h :), (congrArg State.descs h :),
    (congrArg State.scales h :), (congrArg State.flags h :), (congrArg State.crs h :), (congrArg State.chans h :),
    (congrArg State.scaleNow h :)⟩

theorem control_of_idle {s t : State} (h : idle t = idle s)
    (img : t.img.a = s.img.a ∧ t.img.b = s.img.b ∧ t.img.cur = s.img.cur) :
    ControlKept s t :=
  ⟨(congrArg State.cfg h :), (congrArg State.pins h :), (congrArg State.own h :), img, (congrArg State.job h :),
    (congrArg State.ckpt h :), (congrArg State.rst h :), (congrArg State.trim h :)⟩

end Sys2Proof
end

section
/-! PROOFS. Mark bundles (03_program R101, R119, R128, R129; O11, O12). -/

namespace Sys2Proof

open Machine Claims

/-- s with another block of the image slots. -/
def withImg (i : Img) (s : State) : State := { s with img := i }

/-- The image slots after a mark of MARK_OP op (R421). -/
def markImg (op : Nat) (b : W8) (s : State) : Img := if op = 3 then { s.img with pend := true, pslot := wbit b.w2 0 } else s.img

/-- The action of a mark (R128). -/
def markAction (op : Nat) (b : W8) : MarkAct :=
  if op = 1 then .beat else if op = 2 then .hold else if op = 3 then .imgsw (wbit b.w2 0) else .ckpt (wbit b.w2 0)

/-- The state that a mark of MARK_OP op leaves, before its checks fault. -/
def marked (op : Nat) (b : W8) (s : State) : State :=
  let t := lowerLate (bump 0x008 1 (noteIssue (advance (withImg (markImg op b s) s))))
  { t with issue := { t.issue with mark := true, act := some (markAction op b), holdMark := t.issue.holdMark || op == 2
                                   resumeAt := if op == 2 then none else t.issue.resumeAt } }

/-- The four rows and their MARK_OPs. -/
def markRows : List (Instr × Nat) := [(.beatMark, 1), (.holdMark, 2), (.imgswMark, 3), (.ckptMark, 4)]

theorem exec_mark : ∀ x ∈ markRows,
    exec x.1 = fun s => .next (markIssue x.2 (markAction x.2) (fun b t => withImg (markImg x.2 b t) t) s) :=
  List.map_inj_left.mp rfl

/-- The fault of a mark with a wrong beat number (R129, R460). -/
def wrongBeat (b : W8) (h : Bool) (it bi : Nat) (no : Word) : FaultCtx := ⟨none, some (h, bi, it), none, b.w1, no⟩

section
variable {c : Instr} {op : Nat} {s : State} {b : W8} {h : Bool} {it bi : Nat}

theorem nextMark_of (next : nextPos s = some (h, it, bi)) (isB : b = halfBundle (getHalf s h) bi) (may : mayIssue s = true)
    (kind : hdrKind b.w0 = 2) (isOp : markOp b = op) : nextMark s op = some (b, h, it, bi) := by
  subst isB isOp
  unfold nextMark
  rw [next]
  exact if_pos (Bool.and_eq_true_iff.mpr ⟨Bool.and_eq_true_iff.mpr ⟨may, beq_of_eq kind⟩, beq_self_eq_true _⟩)

theorem issueMark_no_chain (closed : s.issue.chain = []) :
    issueMark op (markAction op b) b h it bi (withImg (markImg op b s) s) =
      if wbit b.w2 31 && b.w1 != s.s63 then raise 0x81 (wrongBeat b h it bi s.s63) (marked op b s) else marked op b s :=
  have no : ¬(!s.issue.chain.isEmpty) = true := closed ▸ Bool.false_ne_true
  if_congr Iff.rfl (congrArg (raise 0x81 (wrongBeat b h it bi s.s63)) (if_neg no)) (if_neg no)

theorem markIssue_next {act : W8 → MarkAct} {f : W8 → State → State} (mark : nextMark s op = some (b, h, it, bi))
    (parity : s.rcv.badParity.contains (h, false, bi) = false) : markIssue op act f s = issueMark op (act b) b h it bi (f b s) := by
  unfold markIssue
  rw [mark]
  exact if_neg (ne_true_of_eq_false parity)

theorem exec_mark_of (row : (c, op) ∈ markRows)
    (next : nextPos s = some (h, it, bi)) (isB : b = halfBundle (getHalf s h) bi) (may : mayIssue s = true)
    (kind : hdrKind b.w0 = 2) (isOp : markOp b = op) (parity : s.rcv.badParity.contains (h, false, bi) = false)
    (closed : s.issue.chain = []) :
    exec c s = .next (if wbit b.w2 31 && b.w1 != s.s63 then raise 0x81 (wrongBeat b h it bi s.s63) (marked op b s)
      else marked op b s) :=
  (congrFun (exec_mark (c, op) row) s).trans (congrArg Host.Outcome.next
    ((markIssue_next (nextMark_of next isB may kind isOp) parity).trans (issueMark_no_chain closed)))

end

/-- But for the last issue, the mark leaves what `kept` speaks of. -/
theorem mark_kept (s : State) : kept (lowerLate (bump 0x008 1 (noteIssue (advance s)))) = ((kept s).1, some s.clock.clk) :=
  ((lowerLate_kept _).trans (bump_kept 0x008 1 _)).trans (noteIssue_kept s)

theorem marked_steady (op : Nat) (b : W8) (s : State) : steady (marked op b s) = steady s :=
  congrArg (·.1.1) (mark_kept (withImg (markImg op b s) s))

theorem lowerLate_coreLate (s : State) : (lowerLate s).out.coreLate = false := by
  cases late : s.out.coreLate
  · exact (congrArg (fun t : State => t.out.coreLate) (if_neg (t := lowered s) (e := s) (ne_true_of_eq_false late))).trans late
  · exact congrArg (fun t : State => t.out.coreLate) (if_pos (t := lowered s) (e := s) late)

/-- Settles O11: the mark's row (`exec_mark_of`) leaves the state `marked`, and of it all but the issue point and the image slots
is as before (`marked_steady`). -/
theorem marksEndTheBeat : Obligations.MarksEndTheBeat := by
  intro c op s b h it bi row next isB may kind isOp parity closed number
  have right : ¬(wbit b.w2 31 && b.w1 != s.s63) = true := fun wrong =>
    bne_iff_ne.mp (Bool.and_eq_true_iff.mp wrong).2 (number (Bool.and_eq_true_iff.mp wrong).1)
  have acts := (exec_mark_of row next isB may kind isOp parity closed).trans (congrArg Host.Outcome.next (if_neg right))
  have same := marked_steady op b s
  have before := mark_kept (withImg (markImg op b s) s)
  have image : (marked op b s).img = markImg op b s :=
    (congrArg (fun k : (State × Img × Bool × Nat) × Option Nat => k.1.2.1) before :)
  have slot {β : Type} (f : Img → β) (set : f { s.img with pend := true, pslot := wbit b.w2 0 } = f s.img) :
      f (marked op b s).img = f s.img :=
    (congrArg f image).trans ((apply_ite f ..).trans ((congrArg (ite (op = 3) · _) set).trans (ite_self _)))
  exact ⟨_, acts, rfl, rfl, (congrArg (fun k : (State × Img × Bool × Nat) × Option Nat => k.1.2.2.1 || op == 2) before :),
    (congrArg Prod.snd before :), image, lowerLate_coreLate .., (congrArg State.err same :), (congrArg State.q same :),
    (congrArg State.live same :), (congrArg State.s63 same :), stores_of_idle ((congrArg idle same :)),
    control_of_idle ((congrArg idle same :)) ⟨slot _ rfl, slot _ rfl, slot _ rfl⟩⟩

/-- Settles O12: the mark's row faults where the beat number is wrong (`exec_mark_of`), with the beat number and the clk
counter that the mark leaves as they were. -/
theorem markWithWrongBeatNumberFaults : Obligations.MarkWithWrongBeatNumberFaults := by
  intro c op s b h it bi row next isB may kind isOp parity closed chk wrong
  have fails : (wbit b.w2 31 && b.w1 != s.s63) = true := Bool.and_eq_true_iff.mpr ⟨chk, bne_iff_ne.mpr wrong⟩
  have acts := (exec_mark_of row next isB may kind isOp parity closed).trans (congrArg Host.Outcome.next (if_pos fails))
  have same := marked_steady op b s
  have s63 : (marked op b s).s63 = s.s63 := (congrArg State.s63 same :)
  have cyc : (marked op b s).cnt.cyc = s.cnt.cyc :=
    (congrArg (fun k : (State × Img × Bool × Nat) × Option Nat => k.1.2.2.2) (mark_kept (withImg (markImg op b s) s)) :)
  exact ⟨_, acts, raise_err_congr (congrArg State.err same :) s63 cyc, congrArg Issue.mark (noteError_issue ..),
    (noteError_s63 ..).trans s63⟩

end Sys2Proof
end

section
/-! PROOFS. The level and the regulator (01_boundary R23 to R27, 13_reset_and_power R446; O16). -/

namespace Sys2Proof

open Machine Claims
open Proofs.BeatSnapshots (keepUndo_eq)

/-- The target of pl_target: itself or the limit, whichever is lower (R24, R27). -/
def aim (s : State) : Nat := min s.pins.plTarget.toNat (plLimit s)

/-- s with the target t and the regulator's move: to the voltage v, from f, since a; r is pl_ready. -/
def regulator (t : BitVec 2) (v f a : Nat) (r : Bool) (s : State) : State :=
  { s with pwr := { s.pwr with target := t, vout := v, slewFrom := f, slewAt := a, ready := r } }

/-- s with the target t and its regulator asked for the voltage v (R24). -/
def regulated (t : BitVec 2) (v : Nat) (s : State) : State :=
  regulator t v (if v = s.pwr.vout then s.pwr.slewFrom else voltNow s) (if v = s.pwr.vout then s.pwr.slewAt else s.clock.refc)
    (s.pwr.ready && v == s.pwr.vout && decide (s.pins.plTarget.toNat ≤ plLimit s)) s

theorem regulated_err (t : BitVec 2) (v : Nat) (s : State) : (regulated t v s).err = s.err := rfl

theorem regulated_level (t : BitVec 2) (v : Nat) (s : State) : (regulated t v s).pwr.level = s.pwr.level := rfl

/-- That move, as the model makes it. -/
def slew (v : Nat) (s : State) : State :=
  if v ≠ s.pwr.vout then regulator s.pwr.target v (voltNow s) s.clock.refc false s
  else if s.pins.plTarget.toNat > plLimit s then regulator s.pwr.target s.pwr.vout s.pwr.slewFrom s.pwr.slewAt false s
  else s

theorem regulator_congr {t : BitVec 2} {v f a f' a' : Nat} {r r' : Bool} (s : State) (from_ : f = f') (since : a = a')
    (ready : r = r') :
    regulator t v f a r s = regulator t v f' a' r' s := by rw [from_, since, ready]

theorem slew_eq (v : Nat) (s : State) : slew v s = regulated s.pwr.target v s := by
  by_cases stays : v = s.pwr.vout
  · subst stays
    have ready : (s.pwr.ready && s.pwr.vout == s.pwr.vout) = s.pwr.ready :=
      (congrArg (s.pwr.ready && ·) (beq_self_eq_true _)).trans (Bool.and_true _)
    refine (if_neg (not_not.mpr rfl)).trans (Eq.trans ?_ (regulator_congr s (if_pos rfl).symm (if_pos rfl).symm
      (congrArg (· && _) ready.symm)))
    by_cases within : s.pins.plTarget.toNat ≤ plLimit s
    · exact (if_neg (Nat.not_lt.mpr within)).trans
        (regulator_congr s rfl rfl ((congrArg (s.pwr.ready && ·) (decide_eq_true within)).trans (Bool.and_true _)).symm)
    · exact (if_pos (Nat.not_le.mp within)).trans
        (regulator_congr s rfl rfl ((congrArg (s.pwr.ready && ·) (decide_eq_false within)).trans (Bool.and_false _)).symm)
  · exact (if_pos stays).trans (regulator_congr s (if_neg stays).symm (if_neg stays).symm
      (congrArg (· && _) ((congrArg (s.pwr.ready && ·) (beq_false_of_ne stays)).trans (Bool.and_false _))).symm)

theorem aim_toNat (s : State) : (BitVec.ofNat 2 (aim s)).toNat = aim s :=
  (BitVec.toNat_ofNat ..).trans (Nat.mod_eq_of_lt (Nat.lt_of_le_of_lt (Nat.min_le_left ..) s.pins.plTarget.isLt))

/-- The regulator follows the level in force and the target (R24). -/
theorem retarget_eq (s : State) :
    retarget s = regulated (BitVec.ofNat 2 (aim s)) (max (levelVolt s.pwr.level.toNat) (levelVolt (aim s))) s :=
  (slew_eq (voltTarget (regulator (BitVec.ofNat 2 (aim s)) s.pwr.vout s.pwr.slewFrom s.pwr.slewAt s.pwr.ready s))
    (regulator (BitVec.ofNat 2 (aim s)) s.pwr.vout s.pwr.slewFrom s.pwr.slewAt s.pwr.ready s)).trans
    (congrArg (fun n => regulated (BitVec.ofNat 2 (aim s)) (max (levelVolt s.pwr.level.toNat) (levelVolt n)) s) (aim_toNat s))

/-! ## The commit (R25) -/

/-- s with the level that a commit puts in force. -/
def inForce (n : Nat) (s : State) : State := { s with pwr := { s.pwr with level := BitVec.ofNat 2 n, awaitCommit := false } }

/-- s with the undo record u. -/
def withUndo (u : Option Undo) (s : State) : State := { s with undo := u }

theorem keepUndo_withUndo (s : State) : keepUndo s = withUndo (keepUndo s).undo s := keepUndo_eq s

/-- A commit puts the target in force; the regulator then follows that level's own voltage. -/
theorem retarget_inForce (u : Option Undo) (s : State) : retarget (inForce (aim s) (withUndo u s)) =
    regulated (BitVec.ofNat 2 (aim s)) (levelVolt (aim s)) (inForce (aim s) (withUndo u s)) :=
  (retarget_eq _).trans (congrArg (fun v => regulated (BitVec.ofNat 2 (aim s)) v (inForce (aim s) (withUndo u s)))
    ((congrArg (fun n => max (levelVolt n) (levelVolt (aim s))) (aim_toNat s)).trans (Nat.max_self _)))

theorem plBreach_withUndo (u : Option Undo) (s : State) : plBreach (withUndo u s) = withUndo u (plBreach s) :=
  (raise_eq ..).trans ((congrArg (fun e => { withUndo u s with err := e })
    (raise_err_congr (s := s) (t := withUndo u s) rfl rfl rfl)).trans (congrArg (withUndo u) (raise_eq ..).symm))

/-- A raise at pl_ready 0. -/
def early (s : State) : Bool := decide (aim s > s.pwr.level.toNat) && !s.pwr.ready

/-- s after a commit that stands for all but the undo record. -/
def committed (s : State) : State := retarget (inForce (aim s) (if early s then plBreach s else s))

/-- What a commit does, in the clk of a beat_edge or not. -/
def commits (edge : Bool) (s : State) : Host.Outcome State Fault Refusal :=
  if s.pins.pondHalt || !rcvUp s then .next s
  else if !edge then .next (plBreach (keepUndo s)) else .next (committed (keepUndo s))

section
variable {s : State} (going : s.pins.pondHalt = false) (up : rcvUp s = true)
include going up

theorem commit_heard (edge : Bool) :
    exec (.plCommit edge) s = if !edge then .next (plBreach (keepUndo s)) else .next (committed (keepUndo s)) :=
  (if_neg (by rw [going, up]; decide) : commits edge s = _)

theorem commit_acts : exec (.plCommit true) s = .next (retarget (inForce (aim s)
    (if early s then withUndo (keepUndo s).undo (plBreach s) else withUndo (keepUndo s).undo s))) :=
  (commit_heard going up true).trans (congrArg Host.Outcome.next (congrArg committed (keepUndo_withUndo s)) |>.trans
    (congrArg (fun t => Host.Outcome.next (retarget (inForce (aim s) (if early s then t else withUndo (keepUndo s).undo s))))
      (plBreach_withUndo (keepUndo s).undo s)))

end

theorem readyRise_iff (s : State) : (!s.pwr.ready && rcvUp s && !s.pwr.mode && decide (s.pins.plTarget.toNat ≤ plLimit s) &&
    voltNow s == 50 * s.pwr.vout) = true ↔ s.pwr.ready = false ∧ rcvUp s = true ∧ s.pwr.mode = false ∧
    s.pins.plTarget.toNat ≤ plLimit s ∧ voltNow s = 50 * s.pwr.vout := by
  simp only [Bool.and_eq_true, Bool.not_eq_true', decide_eq_true_eq, beq_iff_eq, and_assoc]

/-- s with another level on the pl_target pins. -/
def asked (level : BitVec 2) (s : State) : State := { s with pins := { s.pins with plTarget := level } }

/-- What a change of pl_target leaves. -/
def followed (level : BitVec 2) (s : State) : State := if rcvUp s then retarget (asked level s) else asked level s

/-- s with b on pl_ready. -/
def readied (b : Bool) (s : State) : State := { s with pwr := { s.pwr with ready := b } }

/-- What the end of a slew does. -/
def slewEnds (s : State) : Host.Outcome State Fault Refusal :=
  if !s.pwr.ready && rcvUp s && !s.pwr.mode && decide (s.pins.plTarget.toNat ≤ plLimit s) && voltNow s == 50 * s.pwr.vout then
    .next (readied true s)
  else .next s

/-- The clauses of O16, over the states that they leave. -/
theorem level_clauses :
    (∀ (s : State) (level : BitVec 2), rcvUp s = true → Answers (.plTargetChange level) s
      (regulated (BitVec.ofNat 2 (aim (asked level s))) (max (levelVolt s.pwr.level.toNat) (levelVolt (aim (asked level s))))
        (asked level s))) ∧
    (∀ (s : State) (level : BitVec 2), rcvUp s = false → Answers (.plTargetChange level) s (asked level s)) ∧
    (∀ s : State, rcvUp s = true → s.pwr.mode = false → s.pins.plTarget.toNat ≤ plLimit s → voltNow s = 50 * s.pwr.vout →
      Answers .plReadyRise s (readied true s)) ∧
    (∀ s : State, plLimit s < s.pins.plTarget.toNat ∨ voltNow s ≠ 50 * s.pwr.vout ∨ s.pwr.mode = true ∨ rcvUp s = false →
      Answers .plReadyRise s s) ∧
    (∀ s : State, rcvUp s = true → s.pins.pondHalt = false → s.pwr.ready = true ∨ aim s ≤ s.pwr.level.toNat →
      ∃ u, Answers (.plCommit true) s
        (regulated (BitVec.ofNat 2 (aim s)) (levelVolt (aim s)) (inForce (aim s) (withUndo u s)))) ∧
    (∀ s : State, rcvUp s = true → s.pins.pondHalt = false → s.pwr.ready = false → s.pwr.level.toNat < aim s →
      ∃ t, Answers (.plCommit true) s t ∧ t.err = (plBreach s).err ∧ t.pwr.level = BitVec.ofNat 2 (aim s)) ∧
    (∀ s : State, rcvUp s = true → s.pins.pondHalt = false → ∃ u, Answers (.plCommit false) s (withUndo u (plBreach s))) ∧
    (∀ (s : State) (b : Bool), s.pins.pondHalt = true ∨ rcvUp s = false → Answers (.plCommit b) s s) := by
  refine ⟨fun s level up => congrArg Host.Outcome.next (a₁ := followed level s) ((if_pos up).trans (retarget_eq _)),
    fun s level down => congrArg Host.Outcome.next (a₁ := followed level s) (if_neg (ne_true_of_eq_false down)),
    fun s up full within settled => ?_, fun s no => (if_neg fun c => ?_ : slewEnds s = _),
    fun s up going quiet => ⟨(keepUndo s).undo, ?_⟩, fun s up going low raises => ?_,
    fun s up going => ⟨(keepUndo s).undo, ?_⟩,
    fun s b no => (if_pos (Bool.or_eq_true_iff.mpr (no.imp id (congrArg not))) : commits b s = _)⟩
  · cases ready : s.pwr.ready
    · exact (if_pos ((readyRise_iff s).mpr ⟨ready, up, full, within, settled⟩) : slewEnds s = _)
    · exact (if_neg fun c => Bool.false_ne_true (((readyRise_iff s).mp c).1.symm.trans ready) : slewEnds s = _).trans
        (congrArg (fun b => Host.Outcome.next (readied b s)) ready)
  · obtain ⟨-, up, full, within, settled⟩ := (readyRise_iff s).mp c
    rcases no with h | h | h | h
    · exact Nat.not_le.mpr h within
    · exact h settled
    · exact Bool.false_ne_true (full.symm.trans h)
    · exact Bool.false_ne_true (h.symm.trans up)
  · have clear : ¬early s = true := fun c =>
      quiet.elim (fun h => Bool.false_ne_true ((Bool.not_eq_true' _).mp (Bool.and_eq_true_iff.mp c).2 ▸ h))
        (Nat.not_le.mpr (of_decide_eq_true (Bool.and_eq_true_iff.mp c).1))
    exact (commit_acts going up).trans (congrArg Host.Outcome.next
      ((congrArg (fun t => retarget (inForce (aim s) t)) (if_neg clear)).trans (retarget_inForce (keepUndo s).undo s)))
  · have breach : early s = true := Bool.and_eq_true_iff.mpr ⟨decide_eq_true raises, congrArg not low⟩
    exact ⟨_, (commit_acts going up).trans (congrArg Host.Outcome.next
      ((congrArg (fun t => retarget (inForce (aim s) t)) (if_pos breach)).trans (retarget_eq _))),
      regulated_err .., regulated_level ..⟩
  · exact (commit_heard going up false).trans (congrArg Host.Outcome.next
      ((congrArg plBreach (keepUndo_withUndo s)).trans (plBreach_withUndo (keepUndo s).undo s)))

/-- Settles O16: one equation for what the regulator follows (`retarget_eq`), used by a change of pl_target and by a commit. -/
theorem levelFollowsTargetAndCommit : Obligations.LevelFollowsTargetAndCommit := level_clauses

end Sys2Proof
end

section
/-! PROOFS. The scalar instructions besides the REG and IMM forms (03_program R122 to R126; O41). -/

namespace Sys2Proof

open Machine Claims Starts

/-- s with the result r of e in flight, after those of l, due lat clk after k. -/
def airborne (e : Entry) (lat : Nat) (r : SclRes) (l : List SclFly) (k : Nat) (s : State) : State :=
  { s with scl := { s.scl with fly := l ++ [⟨e, k + lat, r⟩] } }

/-- What the head of the queue does, where one may start. -/
def headOr {α : Type} (f : Entry → α) (no : α) : Option Entry → α
  | some e => f e
  | none => no

/-- s without the head e of its queue of entries e and es, and with the result r of e alone in flight. -/
def alone (s : State) (e : Entry) (es : List Entry) (lat : Nat) (r : SclRes) : State := airborne e lat r [] s.clock.ek (left 6 es s)

/-- CLS of the DESC form. -/
def clsOf (e : Entry) : Nat := wfld e.w 19 17
/-- The number of the descriptor in the DESC form. -/
def numOf (e : Entry) : Nat := wfld e.w 7 2
/-- The word of the descriptor in the DESC form. -/
def wordOf (e : Entry) : Nat := wfld e.w 16 14
/-- SEL of the TRK form. -/
def selOf (e : Entry) : Nat := wfld e.w 13 12
/-- IMM20 with its sign. -/
def imm20 (e : Entry) : Int := (wfld e.w 19 0 : Int) - (if wbit e.w 19 then 1048576 else 0)

/-- DRD's word of the descriptor, as it stands in t, is on its way. -/
def drdFlies (e : Entry) (t u : State) : Host.Outcome State Fault Refusal :=
  .next (sclFly e 2 (.reg (sclD e) ((descGet t (clsOf e) (numOf e)).get (wordOf e))) (dequeue 6 u))

/-- What DRD does with what its read of the descriptor finds. -/
def drdReads (e : Entry) : State × Bool → Host.Outcome State Fault Refusal
  | (u, true) => drdFlies e (afterFly u) u
  | (u, false) => .next u

/-- What CPOP does with the count that it takes. -/
def cpopTakes (e : Entry) (s : State) : Option (List Line × State) → Host.Outcome State Fault Refusal
  | some (ls, t) => .next (sclFly e 2 (.reg (sclD e) (word ((ls.map (·.data)).headD 0))) (dequeue 6 t))
  | none => .next s

/-- The fault of a TCFG whose value breaks its bounds (R126). -/
def tcfgBad (s : State) (e : Entry) (t : State) : State := raise 0x09 (FaultCtx.ofEntry 6 e (sclA e) (sreg s (sclD e)).toNat) t

/-- What TCFG does at its start. -/
def tcfgStarts (s : State) (e : Entry) : Host.Outcome State Fault Refusal :=
  if tcfgOk (selOf e) (sreg s (sclD e)) then
    .next (sclFly e (trkLat s (sclA e) 2) (.scaleCfg (sclA e) (selOf e) (sreg s (sclD e))) (dequeue 6 s))
  else .next (tcfgBad s e (dequeue 6 s))

/-- What TCOMMIT does at its start. -/
def tcommitStarts (s : State) (e : Entry) : Host.Outcome State Fault Refusal :=
  .next (sclFly e (trkLat s (sclA e) 4) (.scaleCommit (sclA e)) (dequeue 6 s))

/-- s with the count of a CPUSH on its channel. -/
def pushed (s : State) (e : Entry) : State := chPush (sclB e) [((sreg s (sclD e)).toNat, false, false)] s

/-- What CPUSH does at its start. -/
def cpushStarts (s : State) (e : Entry) : Host.Outcome State Fault Refusal :=
  if chRoom s (sclB e) ≥ 1 then .next (sclFly e 1 .none (dequeue 6 (pushed s e))) else .next s

theorem left_q {es : List Entry} {s t : State} (same : t.q = s.q) : (left 6 es t).q = (left 6 es s).q :=
  (bump_q ..).trans ((congrArg (fun q => { q with scl := es }) same).trans (bump_q (0x010 + 6) 1 (setQ 6 es s)).symm)

theorem left_scl (es : List Entry) (s : State) : (left 6 es s).scl = s.scl := (bump_scl ..).trans (setQ_scl ..)

theorem sclFly_left {s u : State} {e : Entry} {es : List Entry} {l : List SclFly} (queue : getQ u 6 = e :: es)
    (fly : u.scl.fly = l) (ek : u.clock.ek = s.clock.ek) (lat : Nat) (r : SclRes) :
    sclFly e lat r (dequeue 6 u) = airborne e lat r l s.clock.ek (left 6 es u) :=
  (congrArg (sclFly e lat r) (dequeue_eq_left queue)).trans (congrArg₂ (fun l k => airborne e lat r l k (left 6 es u))
    ((congrArg SclState.fly (left_scl es u)).trans fly) ((congrArg Clocks.ek (left_clock 6 es u)).trans ek))

theorem sext_field (w : Word) (n : Nat) :
    sext (n + 1) (wfld w n 0) = (wfld w n 0 : Int) - (if wbit w n then 2 ^ (n + 1) else 0) := by
  have low : wfld w n 0 < 2 ^ (n + 1) := Nat.mod_lt _ (Nat.two_pow_pos (n + 1))
  have digit : wbit w n = (wfld w n 0).testBit n :=
    ((Nat.testBit_mod_two_pow w.toNat (n + 1) n).trans (congrArg (· && wbit w n) (decide_eq_true n.lt_succ_self))).symm
  unfold sext
  rw [Nat.mod_eq_of_lt low]
  by_cases positive : wfld w n 0 < 2 ^ n
  · exact (if_pos positive).trans ((congrArg (_ - ·) (if_neg (ne_true_of_eq_false
      (digit.trans (Nat.testBit_lt_two_pow positive))))).trans (Int.sub_zero _)).symm
  · exact (if_neg positive).trans (congrArg (_ - ·) (if_pos
      (digit.trans (Nat.testBit_of_two_pow_le_and_two_pow_add_one_gt (Nat.not_lt.mp positive) low)))).symm

theorem afterFly_none {s : State} (fly : s.scl.fly = []) : afterFly s = s :=
  (congrArg (List.foldl (fun t f => landRes f.res t) s) fly :)

theorem trkLat_alone {s : State} (fly : s.scl.fly = []) (n lat : Nat) : trkLat s n lat = lat := (congrArg (List.foldl _ lat) fly :)

theorem none_busy {s : State} (fly : s.scl.fly = []) (l : List Nat) : l.any (sregBusy s) = false :=
  List.any_eq_false.mpr fun n _ => ne_true_of_eq_false
    ((congrArg (fun l : List SclFly => n != 0 && l.any fun f => sclTarget f.e.w == some (.inl n)) fly).trans (Bool.and_false _))

section
variable {s : State} {e : Entry} {es : List Entry} (start : Startable s 6 e es)
include start

theorem sclHead_some {op : Nat} {reads : Entry → List Nat} (isOp : e.op = op) (clear : (reads e).any (sregBusy s) = false) :
    sclHead s op reads = some e := by
  unfold sclHead
  rw [headFor_of_startable start isOp]
  exact if_neg (ne_true_of_eq_false clear)

theorem sclOp_flies {op lat : Nat} {reads : Entry → List Nat} {val : State → Entry → Word} (isOp : e.op = op)
    (clear : (reads e).any (sregBusy s) = false) :
    sclOp op lat reads val s = airborne e lat (.reg (sclD e) (val s e)) s.scl.fly s.clock.ek (left 6 es s) :=
  (congrArg (headOr (fun e => sclFly e lat (.reg (sclD e) (val s e)) (dequeue 6 s)) s) (sclHead_some start isOp clear)).trans
    (sclFly_left start.queue rfl rfl ..)

variable (fly : s.scl.fly = [])
include fly

theorem head_starts {op : Nat} {reads : Entry → List Nat} {c : Instr} (f : Entry → Host.Outcome State Fault Refusal)
    (isOp : e.op = op) (runs : exec c s = headOr f (.next s) (sclHead s op reads)) : exec c s = f e :=
  runs.trans (congrArg (headOr f (.next s)) (sclHead_some start isOp (none_busy fly _)))

theorem flies (lat : Nat) (r : SclRes) : sclFly e lat r (dequeue 6 s) = alone s e es lat r := sclFly_left start.queue fly rfl ..

theorem starts {op : Nat} (reads : Entry → List Nat) {c : Instr} (lat : Nat) (r : Entry → SclRes) (isOp : e.op = op)
    (runs : exec c s = headOr (fun e => .next (sclFly e lat (r e) (dequeue 6 s))) (.next s) (sclHead s op reads)) :
    exec c s = .next (alone s e es lat (r e)) :=
  (head_starts start fly _ isOp runs).trans (congrArg Host.Outcome.next (flies start fly ..))

theorem makes {op lat : Nat} {reads : Entry → List Nat} {val : State → Entry → Word} {c : Instr} {w : Word} (isOp : e.op = op)
    (runs : exec c s = .next (sclOp op lat reads val s)) (is : val s e = w) :
    exec c s = .next (alone s e es lat (.reg (sclD e) w)) :=
  runs.trans (congrArg Host.Outcome.next ((sclOp_flies start isOp (none_busy fly _)).trans
    (congrArg₂ (fun l v => airborne e lat (.reg (sclD e) v) l s.clock.ek (left 6 es s)) fly is)))

theorem popped_flies {u : State} (popped : Popped s u) (lat : Nat) (r : SclRes) :
    sclFly e lat r (dequeue 6 u) = airborne e lat r [] s.clock.ek (left 6 es u) :=
  have same : (u.q, u.scl, u.clock.ek) = (s.q, s.scl, s.clock.ek) :=
    (congrArg (fun t : State => (t.q, t.scl, t.clock.ek)) popped.eq :)
  sclFly_left ((congrArg (·.1.scl) same).trans start.queue) ((congrArg (·.2.1.fly) same).trans fly) (congrArg (·.2.2) same) ..

end

/-- The row c leaves t where e has its opcode op. -/
def Acts (e : Entry) (op : Nat) (c : Instr) (s t : State) : Prop := e.op = op → Answers c s t

/-- The clauses of O41, by the fields of the instruction. -/
theorem scalar_clauses (s : State) (e : Entry) (es : List Entry) (start : Startable s 6 e es) (fly : s.scl.fly = []) :
    Acts e 0x17 .cmov s (alone s e es 1 (if sreg s (sclA e) = 0 then .none else .reg (sclD e) (sreg s (sclB e)))) ∧
    Acts e 0x18 .li s (alone s e es 1 (.reg (sclD e) (BitVec.ofInt 32 (imm20 e)))) ∧
    Acts e 0x19 .lui s (alone s e es 1 (.reg (sclD e) (word (wfld e.w 19 0 * 4096)))) ∧
    (e.op = 0x20 → mget 0 s.descUpset (clsOf e * 64 + numOf e) = 0 →
      Answers .drd s (alone s e es 2 (.reg (sclD e) ((descGet s (clsOf e) (numOf e)).get (wordOf e))))) ∧
    Acts e 0x21 .dwr s (alone s e es 2 (.desc (clsOf e) (numOf e) (wordOf e) (sreg s (sclD e)))) ∧
    (∀ l v, e.op = 0x28 → chTake (sclB e) 13 1 s = some ([l], v) →
      Answers .cpop s (airborne e 2 (.reg (sclD e) (word l.data)) [] s.clock.ek (left 6 es v))) ∧
    (e.op = 0x29 → 1 ≤ chRoom s (sclB e) →
      ∃ t, Answers .cpush s t ∧ t.scl.fly = [⟨e, s.clock.ek + 1, .none⟩] ∧ t.chans = (pushed s e).chans ∧
        t.q = (left 6 es s).q ∧ t.sregs = s.sregs ∧ t.pool = s.pool ∧ t.flags = s.flags ∧ t.descs = s.descs ∧
        t.scales = s.scales ∧ t.scaleNow = s.scaleNow ∧ t.crs = s.crs ∧ t.ocache = s.ocache) ∧
    (e.op = 0x30 → tcfgOk (selOf e) (sreg s (sclD e)) = true →
      Answers .tcfg s (alone s e es 2 (.scaleCfg (sclA e) (selOf e) (sreg s (sclD e))))) ∧
    (e.op = 0x30 → tcfgOk (selOf e) (sreg s (sclD e)) = false → Answers .tcfg s (tcfgBad s e (left 6 es s))) ∧
    Acts e 0x31 .tcommit s (alone s e es 4 (.scaleCommit (sclA e))) ∧
    Acts e 0x32 .trd s (alone s e es 2 (.reg (sclD e) ((scaleGet s (sclA e)).word (wfld e.w 13 9)))) ∧
    Acts e 0x38 .jread s (alone s e es 1 (.reg (sclD e)
      (if wfld e.w 13 0 = 0 then word s.job.id.toNat else word s.job.nranks))) := by
  refine ⟨fun isOp => ?_, fun isOp => ?_, fun isOp => ?_, fun isOp clean => ?_, fun isOp => ?_, fun l v isOp takes => ?_,
    fun isOp room => ?_, fun isOp ok => ?_, fun isOp bad => ?_, fun isOp => ?_, fun isOp => ?_, fun isOp => ?_⟩
  · exact starts start fly (fun e => [sclA e, sclB e]) 1
      (fun e => if sreg s (sclA e) = 0 then .none else .reg (sclD e) (sreg s (sclB e))) isOp rfl
  · exact makes start fly isOp rfl (congrArg (BitVec.ofInt 32) (sext_field e.w 19))
  · exact makes start fly isOp rfl (congrArg (fun n => word n) (Nat.shiftLeft_eq ..))
  · have reads : descReads [(clsOf e, numOf e)] s = (s, true) := by
      unfold descReads
      split
      · rfl
      · rw [List.map_singleton, clean]; rfl
    exact (head_starts start fly (reads := fun _ => []) (fun e => drdReads e (descReads [(clsOf e, numOf e)] s)) isOp rfl).trans
      ((congrArg (drdReads e) reads).trans ((congrArg (fun t => drdFlies e t s) (afterFly_none fly)).trans
        (congrArg Host.Outcome.next (flies start fly ..))))
  · exact starts start fly (fun e => [sclD e]) 2 (fun e => .desc (clsOf e) (numOf e) (wordOf e) (sreg s (sclD e))) isOp rfl
  · exact (congrArg (headOr (fun e => cpopTakes e s (chTake (sclB e) 13 1 s)) (.next s)) (headFor_of_startable start isOp)).trans
      ((congrArg (cpopTakes e s) takes).trans (congrArg Host.Outcome.next (popped_flies start fly (chTake_spec takes) ..)))
  · have same := ArrayTiles.storesKept_left 6 es (pushed s e)
    exact ⟨_, (head_starts start fly (reads := fun e => [sclD e]) (cpushStarts s) isOp rfl).trans ((if_pos room).trans
        (congrArg Host.Outcome.next (sclFly_left (s := s) (u := pushed s e) start.queue fly rfl 1 .none))), rfl, same.chans,
      left_q rfl, same.sregs, same.pool, same.flags, same.descs, same.scales, same.scaleNow, same.crs, same.ocache⟩
  · exact (head_starts start fly (reads := fun e => [sclD e]) (tcfgStarts s) isOp rfl).trans ((if_pos ok).trans
      (congrArg Host.Outcome.next ((congrArg (fun n => sclFly e n _ (dequeue 6 s)) (trkLat_alone fly (sclA e) 2)).trans
        (flies start fly ..))))
  · exact (head_starts start fly (reads := fun e => [sclD e]) (tcfgStarts s) isOp rfl).trans
      ((if_neg (ne_true_of_eq_false bad)).trans (congrArg (fun t => Host.Outcome.next (tcfgBad s e t)) (dequeue_eq_left start.queue)))
  · exact (congrArg (headOr (tcommitStarts s) (.next s)) (headFor_of_startable start isOp)).trans
      (congrArg Host.Outcome.next ((congrArg (fun n => sclFly e n _ (dequeue 6 s)) (trkLat_alone fly (sclA e) 4)).trans
        (flies start fly ..)))
  · exact makes start fly isOp rfl (congrArg (fun t => (scaleGet t (sclA e)).word (wfld e.w 13 9)) (afterFly_none fly))
  · exact makes start fly isOp rfl rfl

/-- Settles O41: with no result in flight the head of the queue starts (`head_starts`), and the state that its equation leaves is
one result in flight over the state without that entry (`sclFly_left`). -/
theorem scalarMovesReachEveryStore : Obligations.ScalarMovesReachEveryStore := scalar_clauses

end Sys2Proof
end

section
/-! PROOFS. The scalar REG and IMM forms (03_program R121 to R123; O40). -/

namespace Sys2Proof

open Machine Claims Starts

/-- The forms (instruction, opcode, latency, value of SA, SB and the instruction) over their operations: saturation, a truth value
as a word, IMM14 with its sign, IMM14 as a word, a shift's count, and the divisions. -/
def forms {α β : Type} (mk : Instr → Nat → Nat → (Word → Word → α → Word) → β) (sat : Int → Word)
    (bit : Bool → Word) (imm : α → Int) (zx : α → Word) (cnt : α → Nat) (quo rem : Word → Word → Word) : List β :=
  [mk .sclAdd 0x01 1 (fun a b _e => sat (a.toInt + b.toInt)),
    mk .sclSub 0x02 1 (fun a b _e => sat (a.toInt - b.toInt)),
    mk .sclMul 0x03 3 (fun a b _e => sat (a.toInt * b.toInt)),
    mk .sclAnd 0x04 1 (fun a b _e => a &&& b),
    mk .sclOr 0x05 1 (fun a b _e => a ||| b),
    mk .sclXor 0x06 1 (fun a b _e => a ^^^ b),
    mk .shl 0x07 1 (fun a b _e => a <<< (b.toNat % 32)),
    mk .shr 0x08 1 (fun a b _e => a >>> (b.toNat % 32)),
    mk .sra 0x09 1 (fun a b _e => a.sshiftRight (b.toNat % 32)),
    mk .sclMin 0x0A 1 (fun a b _e => if a.toInt ≤ b.toInt then a else b),
    mk .sclMax 0x0B 1 (fun a b _e => if a.toInt ≤ b.toInt then b else a),
    mk .minu 0x0C 1 (fun a b _e => if a.toNat ≤ b.toNat then a else b),
    mk .maxu 0x0D 1 (fun a b _e => if a.toNat ≤ b.toNat then b else a),
    mk .slt 0x0E 1 (fun a b _e => bit (decide (a.toInt < b.toInt))),
    mk .sltu 0x0F 1 (fun a b _e => bit (decide (a.toNat < b.toNat))),
    mk .addi 0x10 1 (fun a _b e => sat (a.toInt + imm e)),
    mk .andi 0x11 1 (fun a _b e => a &&& zx e),
    mk .ori 0x12 1 (fun a _b e => a ||| zx e),
    mk .xori 0x13 1 (fun a _b e => a ^^^ zx e),
    mk .shli 0x14 1 (fun a _b e => a <<< cnt e),
    mk .shri 0x15 1 (fun a _b e => a >>> cnt e),
    mk .srai 0x16 1 (fun a _b e => a.sshiftRight (cnt e)),
    mk .divu 0x1A 34 (fun a b _e => quo a b),
    mk .remu 0x1B 34 (fun a b _e => rem a b)]

/-- What a form reads (R121). -/
def formReads (op : Nat) (e : Entry) : List Nat := sclA e :: if op < 0x10 ∨ 0x1A ≤ op then [sclB e] else []

/-- What a form does: a division waits for the division before it (R123). -/
def formed (op lat : Nat) (f : Word → Word → Entry → Word) (s : State) : Host.Outcome State Fault Refusal :=
  let goes := sclOp op lat (formReads op) (fun t e => f (sreg t (sclA e)) (sreg t (sclB e)) e) s
  .next (if op = 0x1A ∨ op = 0x1B then if divBusy s then s else goes else goes)

/-- The forms as the model computes them. -/
def modelForms : List (Instr × (State → Host.Outcome State Fault Refusal)) :=
  forms (fun c op lat f => (c, formed op lat f)) sat32 boolWord sclImmS sclImm (fun e => wfld e.w 4 0)
    (fun a b => if b.toNat = 0 then 0xFFFFFFFF else word (a.toNat / b.toNat))
    (fun a b => if b.toNat = 0 then word a.toNat else word (a.toNat % b.toNat))

/-- The forms as R122 states them, on the value of IMM14. -/
def statedForms : List (Instr × Nat × Nat × (Word → Word → Int → Word)) :=
  forms (fun c op lat f => (c, op, lat, f)) (fun x => BitVec.ofInt 32 (max (-2147483648) (min 2147483647 x)))
    (fun b => if b then 1 else 0) id (fun i => BitVec.ofInt 32 (i % 16384)) (fun i => (i % 32).toNat)
    (fun a b => if b = 0 then 0xFFFFFFFF else a / b) (fun a b => if b = 0 then a else a % b)

theorem exec_forms : ∀ x ∈ modelForms, exec x.1 = x.2 := List.map_inj_left.mp rfl

theorem sat32_eq : sat32 = fun x => BitVec.ofInt 32 (max (-2147483648) (min 2147483647 x)) := by
  funext x
  refine congrArg (BitVec.ofInt 32) ?_
  by_cases above : 2147483647 < x
  · exact (if_pos above).trans ((congrArg (max _) (min_eq_left above.le)).trans (max_eq_right (by decide))).symm
  · refine (if_neg above).trans (Eq.trans ?_ (congrArg (max _) (min_eq_right (Int.not_lt.mp above))).symm)
    by_cases below : x < -2147483648
    · exact (if_pos below).trans (max_eq_left below.le).symm
    · exact (if_neg below).trans (max_eq_right (Int.not_lt.mp below)).symm

theorem boolWord_eq : boolWord = fun b => if b then 1 else 0 := funext fun b => by cases b <;> rfl

theorem sclImmS_eq (e : Entry) : sclImmS e = (wfld e.w 13 0 : Int) - (if wbit e.w 13 then 16384 else 0) := sext_field e.w 13

theorem sclImmS_emod (e : Entry) : sclImmS e % 16384 = (wfld e.w 13 0 : Int) := by
  have low : (wfld e.w 13 0 : Int) % 16384 = wfld e.w 13 0 := congrArg Int.ofNat (Nat.mod_mod e.w.toNat 16384)
  rw [sclImmS_eq]
  cases wbit e.w 13
  · exact (congrArg (· % 16384) (Int.sub_zero _)).trans low
  · exact (Int.sub_emod_right _ _).trans low

theorem sclImm_eq : sclImm = fun e => BitVec.ofInt 32 (sclImmS e % 16384) :=
  funext fun e => (BitVec.ofInt_natCast ..).symm.trans (congrArg (BitVec.ofInt 32) (sclImmS_emod e).symm)

theorem count_eq : (fun e : Entry => wfld e.w 4 0) = fun e => (sclImmS e % 32).toNat := funext fun e =>
  have parts : sclImmS e % 32 = (wfld e.w 13 0 : Int) % 32 :=
    (Int.emod_emod_of_dvd _ (by decide : (32 : Int) ∣ 16384)).symm.trans (congrArg (· % 32) (sclImmS_emod e))
  ((congrArg Int.toNat parts).trans (Nat.mod_mod_of_dvd e.w.toNat (by decide : 32 ∣ 16384))).symm

theorem toNat_zero_iff (b : Word) : b.toNat = 0 ↔ b = 0 := BitVec.toNat_inj (y := 0)

theorem quotient_eq : (fun a b : Word => if b.toNat = 0 then (0xFFFFFFFF : Word) else word (a.toNat / b.toNat)) =
    fun a b => if b = 0 then 0xFFFFFFFF else a / b :=
  funext fun _ => funext fun b => if_congr (toNat_zero_iff b) rfl BitVec.udiv_def.symm

theorem remainder_eq : (fun a b : Word => if b.toNat = 0 then word a.toNat else word (a.toNat % b.toNat)) =
    fun a b => if b = 0 then a else a % b :=
  funext fun a => funext fun b => if_congr (toNat_zero_iff b)
    ((BitVec.ofNat_toNat ..).trans (BitVec.setWidth_eq a)) BitVec.umod_def.symm

/-- A stated form's instruction and what it does. -/
def onImm (x : Instr × Nat × Nat × (Word → Word → Int → Word)) : Instr × (State → Host.Outcome State Fault Refusal) :=
  (x.1, formed x.2.1 x.2.2.1 fun a b e => x.2.2.2 a b (sclImmS e))

theorem modelForms_eq : modelForms = statedForms.map onImm := by
  unfold modelForms
  rw [sat32_eq, boolWord_eq, sclImm_eq, count_eq, quotient_eq, remainder_eq]
  rfl

section
variable {op lat : Nat} {s : State} {e : Entry} {es : List Entry} (start : Startable s 6 e es) (isOp : e.op = op)
  (sa : sregBusy s (sclA e) = false) (sb : op < 0x10 ∨ 0x1A ≤ op → sregBusy s (sclB e) = false)
  (division : op = 0x1A ∨ op = 0x1B → divBusy s = false)
include sa sb

theorem formReads_clear : (formReads op e).any (sregBusy s) = false := by
  refine Bool.or_eq_false_iff.mpr ⟨sa, ?_⟩
  by_cases both : op < 0x10 ∨ 0x1A ≤ op
  · exact (congrArg (List.any · (sregBusy s)) (if_pos both)).trans (Bool.or_eq_false_iff.mpr ⟨sb both, rfl⟩)
  · exact congrArg (List.any · (sregBusy s)) (if_neg both)

include start isOp division

theorem formed_flies (f : Word → Word → Entry → Word) : formed op lat f s =
    .next (airborne e lat (.reg (sclD e) (f (sreg s (sclA e)) (sreg s (sclB e)) e)) s.scl.fly s.clock.ek (left 6 es s)) := by
  refine congrArg Host.Outcome.next (Eq.trans ?_
    (sclOp_flies (val := fun t e => f (sreg t (sclA e)) (sreg t (sclB e)) e) start isOp (formReads_clear sa sb)))
  by_cases divides : op = 0x1A ∨ op = 0x1B
  · exact (if_pos divides).trans (if_neg (ne_true_of_eq_false (division divides)))
  · exact if_neg divides

end

/-- A stated form at the head of the queue, in the words of O40: imm spells out the value of IMM14. -/
theorem stated_answers {imm : Entry → Int} (signed : ∀ e, sclImmS e = imm e) (s : State) (c : Instr) (op lat : Nat)
    (f : Word → Word → Int → Word) (e : Entry) (es : List Entry) (row : (c, op, lat, f) ∈ statedForms)
    (start : Startable s 6 e es) (isOp : e.op = op) (sa : sregBusy s (sclA e) = false)
    (sb : op < 0x10 ∨ 0x1A ≤ op → sregBusy s (sclB e) = false) (division : op = 0x1A ∨ op = 0x1B → divBusy s = false) :
    Answers c s (airborne e lat (.reg (sclD e) (f (sreg s (sclA e)) (sreg s (sclB e)) (imm e))) s.scl.fly s.clock.ek
      (left 6 es s)) :=
  (congrFun (exec_forms _ (modelForms_eq ▸ List.mem_map_of_mem (f := onImm) row)) s).trans 
    (signed e ▸ formed_flies start isOp sa sb division fun a b e => f a b (sclImmS e))

/-- Settles O40: the table of the forms, as the model computes them and as R122 states them, is one (`modelForms_eq`), and a form
at the head of the queue starts (`formed_flies`). -/
theorem scalarFormsComputeTheirResult : Obligations.ScalarFormsComputeTheirResult := stated_answers sclImmS_eq

end Sys2Proof
end
